-- ==== Sys2Proof/Word.lean ====
section
/-! DEFINITION. The word types of the block: bytes and 32-bit registers (R6). -/

namespace Sys2Proof

/-- One byte of the CSR window or of a frame. -/
abbrev Byte := BitVec 8

/-- A register or a dword: 32 bits, bit 0 least significant (R6). -/
abbrev Word := BitVec 32

end Sys2Proof
end

