-- ==== Sys2Proof/Syntax.lean ====
section
/-! DEFINITION. The commands of the block: one constructor for each row of the opcode table, with the row's operands, and the
structures those operands are made of. -/

namespace Sys2Proof

/-- A segment of an arriving frame: its bytes, whether the frame ends with it, whether it was hit by an uncorrectable
codeword or an invalid code group or, on a tunnel, ends with K30.7 (R121, R170), and whether its PTP message is beyond
the rate at which SEC verifies (R298). -/
structure Seg where
  bytes : List Byte
  last : Bool
  codeErr : Bool
  overRate : Bool
  deriving DecidableEq, Repr, Inhabited

/-- A transmit descriptor fetched from a ring (R114, R297). -/
structure Desc where
  addr : Nat := 0
  len : Nat := 0
  flags : Nat := 0
  word : Nat := 0
  deriving DecidableEq, Repr, Inhabited

/-- What a trim run measures (R284): the delays of the 36 coarse cells and of the 30 vernier steps, in one unit, and the 256
calibration pairs C1, C2 taken with the selection made of them. -/
structure Trim where
  cells : List Nat
  steps : List Nat
  pairs : List (Nat × Nat)
  deriving DecidableEq, Repr, Inhabited

/-- A technology that a port's partner advertises (Table HSL-3): its speed as Table MAC-1 codes it, its lanes, and whether it is for
copper (CR) or a backplane (KR). -/
structure Tech where
  speed : Nat
  lanes : Nat
  copper : Bool
  deriving DecidableEq, Repr, Inhabited

/-- Code groups as a rope lane receives them (R144, R146, R153, R159), a rope frame of them or any other number, each abcdei fghj with
bit a as its most significant bit; the code groups by which the elastic buffer's fill changed over it,
and the comma position. -/
structure RopeFrame where
  groups : List (BitVec 10)
  drift : Int
  slip : Nat
  deriving DecidableEq, Repr, Inhabited

/-- An upset of a parity-protected register word since the scrubber's last pass (R106, R107): the register's address, whether
its shadow is hit, and the bit that flipped. -/
structure Upset where
  addr : Nat
  shadow : Bool
  bit : Fin 32
  deriving DecidableEq, Repr, Inhabited

/-- An ECC error that a protected memory met (R499, R500): the memory of Table FLT-1, the address in it, and whether two bits
were wrong. The address is a CSR address where the memory has one; else the cell of the packet memory, the place in the
timestamp queue, the entry of the history counted from the newest, 4,096 times the DPLL plus the age of a one-second entry. -/
structure MemErr where
  mem : Fin 22
  addr : Nat
  double : Bool
  deriving DecidableEq, Repr, Inhabited

/-- What a host asks for beside writes of memory (R82–R85): some dwords of BAR0, a dword of BAR2 with its MSI-X table and pending
array, a dword of the configuration space; an I/O request, an AtomicOp or a locked read; or, by a configuration write, a dword of the
BARs, D3hot or D0, or the bus-master enable (R484). -/
inductive HostRead where
  | bar0 (addr : BitVec 28) (dwords : Nat)
  | bar2 (addr : BitVec 16)
  | config (dword : BitVec 10)
  | other
  | setBar (dword : BitVec 10) (data : Word)
  | power (d3hot : Bool)
  | busMaster (enable : Bool)
  deriving DecidableEq, Repr, Inhabited

/-- What resets the host side: a PCIe hot reset, an FLR (R77), or PERST_N driven low until its release (R64). -/
inductive HostReset where
  | hot | flr | perst
  deriving DecidableEq, Repr, Inhabited

/-- What one edge of the time clock fires: arm slots, and the update groups a strobe names on the same edge (R101, R104). -/
structure Firing where
  slots : BitVec 4
  strobe : BitVec 8
  deriving DecidableEq, Repr, Inhabited

/-- A dword of a vector's entry of the MSI-X table written (R84, R111). -/
structure VectorWrite where
  dword : Fin 4
  data : Word
  deriving DecidableEq, Repr, Inhabited

/-- A port whose line no longer gives a link, and whether its partner reports a fault (R122, R244). -/
structure LineLoss where
  port : Fin 64
  remote : Bool
  deriving DecidableEq, Repr, Inhabited

/-- What the PRBS checker of a lane counted: bit errors before or within its lock (R136). -/
structure PrbsCount where
  lane : Fin 64
  errors : Nat
  deriving DecidableEq, Repr, Inhabited

/-- A run of rope frames that leave: the lane bits from the last edge of the rope reference to the first K28.5, and how many frames
(R146, R147, R290). -/
structure RopeRun where
  bits : Nat
  frames : Nat
  deriving DecidableEq, Repr, Inhabited

/-- A copy whose last byte leaves a port, with the receive descriptors the host gave for it where the port is 64 (R114, R233). -/
structure CopyEnd where
  port : Fin 81
  descs : List Desc
  deriving DecidableEq, Repr, Inhabited

/-- The start of a copy: how many bits after its lane's last reference edge its SFD leaves (R290), and an error met as its frame is
read from the packet memory (R215). -/
structure CopyStart where
  bits : Nat
  ecc : Option (Nat × Bool)
  deriving DecidableEq, Repr, Inhabited

/-- A command: one row of the opcode table. -/
inductive Instr where
  /-- POWER_ON_RESET (R61). -/
  | powerOnReset (flash : Bool) (mramOk : Bool)
  /-- COLD_RESET (R68). -/
  | coldReset
  /-- WARM_RESET (R70). -/
  | warmReset
  /-- WARM_RESET_DONE (R70). -/
  | warmResetDone
  /-- WATCHDOG_RESET (R78). -/
  | watchdogReset
  /-- WATCHDOG_ARM (R78). -/
  | watchdogArm (period : BitVec 16)
  /-- WATCHDOG_KICK (R78). -/
  | watchdogKick
  /-- BLOCK_RESET (R75). -/
  | blockReset (blocks : Word)
  /-- BLOCK_RESET_DONE (R68). -/
  | blockResetDone (page : Fin 24)
  /-- PORT_RESET (R76). -/
  | portReset (high : Bool) (ports : Word)
  /-- HOST_RESET (R77). -/
  | hostReset (kind : HostReset)
  /-- PERST_N_RELEASE (R64). -/
  | perstNRelease
  /-- PCIE_DL_UP (R64). -/
  | pcieDlUp
  /-- PCIE_DL_DOWN (R113). -/
  | pcieDlDown
  /-- THERM_WARN (R501). -/
  | thermWarn
  /-- THERM_CRIT (R501). -/
  | thermCrit
  /-- IMG_SLOT_READ_DONE (R45). -/
  | imgSlotReadDone (image : List Byte)
  /-- FLASH_TIMEOUT (R45). -/
  | flashTimeout
  /-- STAGING_WINDOW_WRITE (R47). -/
  | stagingWindowWrite (index : BitVec 20) (be : BitVec 4) (data : Word)
  /-- START_FULL (R47). -/
  | startFull
  /-- PENDING_WINDOW_WRITE (R54). -/
  | pendingWindowWrite (index : BitVec 15) (be : BitVec 4) (data : Word)
  /-- PR_START (R56). -/
  | prStart (group : Fin 8) (flush : Bool) (allowLoss : Bool)
  /-- PR_VERIFY_DONE (R56). -/
  | prVerifyDone
  /-- PR_DRAIN_TIMEOUT (R56). -/
  | prDrainTimeout
  /-- PR_QUIESCED (R56). -/
  | prQuiesced
  /-- IMG_LOCK (R94). -/
  | imgLock
  /-- REGISTER_WRITE (R87). -/
  | registerWrite (addr : BitVec 28) (be : BitVec 4) (data : List Word)
  /-- RC_READ (R9). -/
  | rcRead (what : HostRead)
  /-- PAIR_LOWER_READ (R89). -/
  | pairLowerRead (addr : BitVec 28) (both : Bool)
  /-- TABLE_ENTRY_WRITE (R90). -/
  | tableEntryWrite (addr : BitVec 28) (data : List Word)
  /-- BIT_ALIAS_WRITE (R96). -/
  | bitAliasWrite (offset : BitVec 26) (be : BitVec 4) (data : Word)
  /-- SHADOW_WRITE (R97). -/
  | shadowWrite (addr : BitVec 28) (data : Word)
  /-- UG_STROBE (R98). -/
  | ugStrobe (groups : BitVec 8)
  /-- ARM_SLOT_ARM (R102). -/
  | armSlotArm (slot : Fin 4) (groups : BitVec 8)
  /-- ARM_SLOT_FIRE (R101). -/
  | armSlotFire (edge : Firing)
  /-- SCRUB_PASS (R107). -/
  | scrubPass (upsets : List Upset)
  /-- VECTOR_EOI (R111). -/
  | vectorEoi (vector : Fin 64)
  /-- VECTOR_UNMASK (R111). -/
  | vectorUnmask (vector : Fin 64) (entry : VectorWrite)
  /-- AER_ERROR (R113). -/
  | aerError (uncorrectable : Bool) (number : Fin 32)
  /-- COMPLETION_TIMEOUT (R113). -/
  | completionTimeout (ring : Fin 16)
  /-- TX_RING_TAIL (R114). -/
  | txRingTail (ring : Fin 8) (tail : BitVec 16) (descs : List Desc)
  /-- CPU_FRAME_FETCHED (R218). -/
  | cpuFrameFetched (ring : Fin 8) (seg : Seg)
  /-- SIGNAL_DETECT (R464). -/
  | signalDetect (lane : Fin 80)
  /-- CDR_LOCK (R134). -/
  | cdrLock (lane : Fin 80)
  /-- CDR_LOSS (R139). -/
  | cdrLoss (lane : Fin 80) (gone : Bool)
  /-- ALIGN_LOCK (R126). -/
  | alignLock (lane : Fin 64) (slip : Nat) (deskew : Nat) (fecPos : Nat)
  /-- ALIGN_LOSS (R126). -/
  | alignLoss (lane : Fin 64)
  /-- AN_COMPLETE (R129). -/
  | anComplete (port : Fin 64) (techs : List Tech) (fecAble : Bool) (fecReq : Nat)
  /-- AN_BREAK_LINK_TIMEOUT (R129). -/
  | anBreakLinkTimeout (port : Fin 64)
  /-- TRAINING_TIMEOUT (R130). -/
  | trainingTimeout (port : Fin 64)
  /-- LINK_UP (R67). -/
  | linkUp (port : Fin 64)
  /-- LINK_DOWN (R244). -/
  | linkDown (line : LineLoss)
  /-- PORT_ENABLE (R125). -/
  | portEnable (port : Fin 64) (data : Word)
  /-- L1_ENTRY (R132). -/
  | l1Entry (lane : Fin 64)
  /-- L1_EXIT (R133). -/
  | l1Exit (lane : Fin 64)
  /-- L2_ENTRY (R134). -/
  | l2Entry (lane : Fin 64)
  /-- L2_EXIT (R134). -/
  | l2Exit (lane : Fin 64)
  /-- PHASE_VALID (R134). -/
  | phaseValid (lane : Fin 64)
  /-- PRBS_INJECT (R137). -/
  | prbsInject (lane : Fin 64)
  /-- PRBS_LOCK (R136). -/
  | prbsLock (found : PrbsCount)
  /-- PRBS_LOCK_LOSS (R136). -/
  | prbsLockLoss (lane : Fin 64) (errors : Nat)
  /-- FRAME_RECEIVE (R22). -/
  | frameReceive (port : Fin 64) (start : Option (Nat × Bool)) (seg : Seg)
  /-- RLK_RESTART (R154). -/
  | rlkRestart (rope : Fin 16)
  /-- ROPE_SIGNAL_LOSS (R154). -/
  | ropeSignalLoss (rope : Fin 16)
  /-- ROPE_FRAME_RECEIVE (R146). -/
  | ropeFrameReceive (rope : Fin 16) (frame : RopeFrame)
  /-- HYPERFRAME_RECEIVE (R150). -/
  | hyperframeReceive (rope : Fin 16) (bits : Nat)
  /-- HYPERFRAME_TRANSMIT (R147). -/
  | hyperframeTransmit (rope : Fin 16) (run : RopeRun)
  /-- MGT_SEND_WRITE (R166). -/
  | mgtSendWrite (rope : Fin 16) (data : Word)
  /-- MGT_POP (R167). -/
  | mgtPop (rope : Fin 16)
  /-- CONFIRM_TIMEOUT (R154). -/
  | confirmTimeout (rope : Fin 16)
  /-- FALLBACK_TIMEOUT (R154). -/
  | fallbackTimeout (rope : Fin 16)
  /-- STEP_TIMEOUT (R154). -/
  | stepTimeout (rope : Fin 16)
  /-- DOWN_HOLD_EXPIRY (R154). -/
  | downHoldExpiry (rope : Fin 16)
  /-- RUN_LOCK_TIMEOUT (R154). -/
  | runLockTimeout (rope : Fin 16)
  /-- OFFSET_MEASURE (R161). -/
  | offsetMeasure (rope : Fin 16) (offset : Int) (change : Int)
  /-- BUFFER_FREEZE (R161). -/
  | bufferFreeze (rope : Fin 16)
  /-- TUNNEL_FRAME_RECEIVE (R170). -/
  | tunnelFrameReceive (rope : Fin 16) (bits : Nat) (overRate : Bool)
  /-- HEADER_DISPATCH (R185). -/
  | headerDispatch (cluster : Fin 8)
  /-- ENGINE_LOOKUP (R187). -/
  | engineLookup (cluster : Fin 8) (engine : Fin 12) (errors : List MemErr)
  /-- BYPASS_FRAME_ENQUEUE (R186). -/
  | bypassFrameEnqueue (ring : Fin 8)
  /-- STEAL (R200). -/
  | steal (clusters : BitVec 8) (cycles : Nat)
  /-- ACTIVITY_HALVING (R200). -/
  | activityHalving
  /-- STEAL_RECALL (R204). -/
  | stealRecall (cluster : Fin 8)
  /-- BUCKET_MOVE (R204). -/
  | bucketMove (cluster : Fin 8) (bucket : BitVec 12)
  /-- ENGINE_RETIRE (R205). -/
  | engineRetire (cluster : Fin 8) (engine : Fin 12)
  /-- RETIRE_DONE (R205). -/
  | retireDone (cluster : Fin 8) (engine : Fin 12)
  /-- ENGINE_UNRETIRE (R207). -/
  | engineUnretire (cluster : Fin 8) (engine : Fin 12)
  /-- ENGINE_HANG (R502). -/
  | engineHang (cluster : Fin 8) (engine : Fin 12)
  /-- COPY_ADMIT (R235). -/
  | copyAdmit
  /-- MULTICAST_COPY_CREATE (R232). -/
  | multicastCopyCreate
  /-- CHAIN_ALLOC (R220). -/
  | chainAlloc (port : Fin 81)
  /-- CACHE_REFILL (R223). -/
  | cacheRefill (pool : Fin 4) (groups : BitVec 8)
  /-- CACHE_DRAIN (R223). -/
  | cacheDrain (pool : Fin 4) (groups : BitVec 8)
  /-- BUFFER_FREE (R229). -/
  | bufferFree (handle : BitVec 21) (tag : BitVec 8)
  /-- HOST_FREE (R230). -/
  | hostFree (handle : BitVec 21) (tag : BitVec 8)
  /-- COPY_TRANSMIT (R242). -/
  | copyTransmit (port : Fin 81) (bits : Nat) (ecc : Option (Nat × Bool))
  /-- COPY_TRANSMIT_DONE (R233). -/
  | copyTransmitDone (copy : CopyEnd)
  /-- QUEUE_FLUSH (R244). -/
  | queueFlush (port : Fin 81) (queues : BitVec 8)
  /-- GATE_ENTRY (R246). -/
  | gateEntry (port : Fin 81) (entry : Fin 256)
  /-- GCL_SWITCH (R247). -/
  | gclSwitch (port : Fin 81)
  /-- PREEMPT_VERIFY (R250). -/
  | preemptVerify (port : Fin 81) (ok : Bool)
  /-- TIMED_LAUNCH (R256). -/
  | timedLaunch (port : Fin 81) (start : CopyStart)
  /-- STREAM_KEEPER_VISIT (R262). -/
  | streamKeeperVisit
  /-- TBS_SNAP (R272). -/
  | tbsSnap
  /-- TBS_SET (R273). -/
  | tbsSet
  /-- TBS_ADD (R273). -/
  | tbsAdd
  /-- TBS_SLEW (R276). -/
  | tbsSlew
  /-- SLEW_DONE (R276). -/
  | slewDone
  /-- AGEING_UPDATE (R270). -/
  | ageingUpdate (dpll : Fin 2)
  /-- TDC_MEASURE (R278). -/
  | tdcMeasure (channel : Fin 92) (cm : Nat)
  /-- TDC_CAL_PAIR (R280). -/
  | tdcCalPair (channel : Fin 92) (c1 : Nat) (c2 : Nat)
  /-- TDC_PERIODIC_MEASURE (R283). -/
  | tdcPeriodicMeasure (channel : Fin 80) (cm : Nat)
  /-- TDC_TRIM_REQUEST (R286). -/
  | tdcTrimRequest (index : Fin 3) (channels : Word)
  /-- TDC_TRIM_RUN (R285). -/
  | tdcTrimRun (channel : Fin 92) (trim : Trim)
  /-- TX_STAMP_POP (R299). -/
  | txStampPop
  /-- PHX_SAMPLE (R308). -/
  | phxSample (link : Fin 80) (blocks : Nat)
  /-- PHX_REPORT_SEND (R313). -/
  | phxReportSend (port : Fin 64) (words : Nat) (bits : Nat)
  /-- PHX_REPORT_RECEIVE (R314). -/
  | phxReportReceive (port : Fin 64) (bits : Nat) (bytes : List Byte)
  /-- PHX_STALE_TIMEOUT (R315). -/
  | phxStaleTimeout (link : Fin 80)
  /-- PHX_CAL_START (R322). -/
  | phxCalStart (link : Fin 128) (target : Bool) (channel : Fin 128)
  /-- PHX_CAL_END (R323). -/
  | phxCalEnd
  /-- REF_TICK (R336). -/
  | refTick (phaseT : Int) (phaseF : Int)
  /-- SLOT_WAIT_EXPIRY (R341). -/
  | slotWaitExpiry (slot : Fin 32)
  /-- SLOT_DISQ_EXPIRY (R341). -/
  | slotDisqExpiry (slot : Fin 32)
  /-- FREQ_WINDOW (R337). -/
  | freqWindow (slot : Fin 32) (offset : Int)
  /-- AUTO_SERVICE (R340). -/
  | autoService
  /-- PTP_POST (R332). -/
  | ptpPost
  /-- PTP_POST_TIMEOUT (R338). -/
  | ptpPostTimeout
  /-- REF_PHASE_WRITE (R340). -/
  | refPhaseWrite (phase : Fin 4)
  /-- REF_FORCE (R346). -/
  | refForce (data : Word)
  /-- DPLL_LOCKED (R354). -/
  | dpllLocked (dpll : Fin 2)
  /-- SECOND_ENTRY (R358). -/
  | secondEntry (diode : Option Int)
  /-- HOLDOVER_UPDATE (R366). -/
  | holdoverUpdate (dpll : Fin 2)
  /-- TEMP_STALE (R367). -/
  | tempStale
  /-- LEARN_MINUTE (R369). -/
  | learnMinute
  /-- MODEL_REFIT (R371). -/
  | modelRefit
  /-- LEARN_CLEAR (R373). -/
  | learnClear
  /-- ROOT_LOCK_LOSS (R384). -/
  | rootLockLoss
  /-- ROOT_RELOCK_TIMER (R385). -/
  | rootRelockTimer
  /-- ROOT_LOCK_ATTEMPT_END (R382). -/
  | rootLockAttemptEnd (outcome : Fin 4)
  /-- SYN_RELOCK (R383). -/
  | synRelock
  /-- SYN_RETARGET (R386). -/
  | synRetarget
  /-- SSC_AUX_WRITE (R390). -/
  | sscAuxWrite (data : Word)
  /-- SSC_CORE_WRITE (R392). -/
  | sscCoreWrite (data : Word)
  /-- OUT_PARK (R397). -/
  | outPark (park : BitVec 16)
  /-- OUT_DELAY_WRITE (R396). -/
  | outDelayWrite (output : Fin 12) (data : Word)
  /-- PPS_EDGE (R398). -/
  | ppsEdge (output : Fin 4)
  /-- PPS_ALIGN_LOST (R400). -/
  | ppsAlignLost (output : Fin 4)
  /-- DLL_UNLOCK (R404). -/
  | dllUnlock (output : Fin 16)
  /-- HEARTBEAT_SEND (R414). -/
  | heartbeatSend
  /-- HEARTBEAT_RECEIVE (R414). -/
  | heartbeatReceive (message : List Byte) (clean : Bool)
  /-- MATE_LOST (R414). -/
  | mateLost
  /-- HEARTBEAT_MISS_RELEASE (R410). -/
  | heartbeatMissRelease
  /-- YIELD_RECEIVE (R415). -/
  | yieldReceive (message : List Byte) (clean : Bool)
  /-- MIRROR_RECEIVE (R426). -/
  | mirrorReceive (message : List Byte) (clean : Bool)
  /-- DPLL_STATE_SEND (R431). -/
  | dpllStateSend
  /-- DPLL_STATE_RECEIVE (R431). -/
  | dpllStateReceive (message : List Byte) (clean : Bool)
  /-- RESYNC_DONE_RECEIVE (R428). -/
  | resyncDoneReceive (message : List Byte) (clean : Bool)
  /-- ILK_CLAIM (R409). -/
  | ilkClaim
  /-- GUARD_EXPIRY (R415). -/
  | guardExpiry
  /-- HOLDOFF_EXPIRY (R416). -/
  | holdoffExpiry
  /-- SWITCHOVER (R417). -/
  | switchover
  /-- SWITCHOVER_YIELD (R417). -/
  | switchoverYield
  /-- CLEAR_FAULT (R418). -/
  | clearFault
  /-- ANNOUNCE_SEND (R419). -/
  | announceSend
  /-- ANNOUNCE_RECEIVE (R420). -/
  | announceReceive (frame : List Byte)
  /-- MIRROR_SEND (R424). -/
  | mirrorSend
  /-- RESYNC_WALK (R427). -/
  | resyncWalk
  /-- RESYNC_WALK_END (R427). -/
  | resyncWalkEnd
  /-- OTP_PROGRAM_SLOT (R437). -/
  | otpProgramSlot (slot : Fin 4) (vpp : Bool)
  /-- OTP_REVOKE_SLOT (R437). -/
  | otpRevokeSlot (slot : Fin 4) (vpp : Bool)
  /-- OTP_RAISE_FLOOR (R437). -/
  | otpRaiseFloor (vpp : Bool)
  /-- OTP_RAISE_DEBUG (R437). -/
  | otpRaiseDebug (mode : Fin 4) (vpp : Bool)
  /-- OTP_OP_DONE (R438). -/
  | otpOpDone (ok : Bool)
  /-- ATTESTATION_REQUEST (R441). -/
  | attestationRequest
  /-- ATTESTATION_DONE (R441). -/
  | attestationDone
  /-- BYPASS (R443). -/
  | bypass (data : List Byte)
  /-- IDCODE (R443). -/
  | idcode
  /-- SAMPLE_PRELOAD (R443). -/
  | samplePreload (pins : List Byte) (data : List Byte)
  /-- EXTEST (R443). -/
  | extest (data : List Byte)
  /-- EXTEST_PULSE (R443). -/
  | extestPulse (data : List Byte)
  /-- EXTEST_TRAIN (R443). -/
  | extestTrain (data : List Byte)
  /-- DBG_CHAL (R444). -/
  | dbgChal
  /-- DBG_RESP (R444). -/
  | dbgResp (slot : Fin 256) (key : List Byte) (signature : List Byte)
  /-- TAMPER_TRIP (R446). -/
  | tamperTrip (source : Fin 7)
  /-- DOMAIN_OFF (R464). -/
  | domainOff (domain : Fin 9)
  /-- DOMAIN_WAKE (R464). -/
  | domainWake (domain : Fin 9)
  /-- DOMAIN_POWER_GOOD (R458). -/
  | domainPowerGood (domain : Fin 9)
  /-- DOMAIN_POWER_FAIL (R467). -/
  | domainPowerFail (domain : Fin 9)
  /-- DOMAIN_OFF_REQ (R466). -/
  | domainOffReq (domains : BitVec 9)
  /-- LATENCY_TOLERANCE_WRITE (R463). -/
  | latencyToleranceWrite (register : Fin 99) (tolerance : Word)
  /-- ENGINE_GATE (R462). -/
  | engineGate (cluster : Fin 8) (engine : Option (Fin 12))
  /-- ROPE_QUAD_GATE (R462). -/
  | ropeQuadGate (quad : Fin 2)
  /-- TIME_ONLY_ENTRY (R468). -/
  | timeOnlyEntry
  /-- TIME_ONLY_EXIT (R470). -/
  | timeOnlyExit
  /-- TIME_ONLY_EXIT_DONE (R470). -/
  | timeOnlyExitDone
  /-- COUNTER_VALUE_WRITE (R478). -/
  | counterValueWrite (counter : Fin 8736) (value : BitVec 64)
  /-- COUNTER_CONFIG_WRITE (R478). -/
  | counterConfigWrite (counter : Fin 8736) (data : Word)
  /-- COUNTER_FREEZE (R480). -/
  | counterFreeze (freeze : Bool)
  /-- HARVEST_SNAPSHOT (R482). -/
  | harvestSnapshot
  /-- HARVEST_NOW (R481). -/
  | harvestNow
  /-- HARVEST_RECORD_DONE (R483). -/
  | harvestRecordDone (ok : Bool)
  /-- CAIRN_ENTRY_WRITE (R487). -/
  | cairnEntryWrite
  /-- CRG_ARM (R489). -/
  | crgArm
  /-- CRG_MODE_WRITE (R489). -/
  | crgModeWrite (mode : Fin 4) (dest : Bool)
  /-- CRG_HOST_TRIGGER (R490). -/
  | crgHostTrigger
  /-- CRG_TIME_TRIGGER (R490). -/
  | crgTimeTrigger
  /-- BUFFER_SWEEP (R492). -/
  | bufferSweep
  /-- ENGINE_BIST (R491). -/
  | engineBist
  /-- TDC_SELF_TEST (R491). -/
  | tdcSelfTest
  /-- EYE_SCAN (R491). -/
  | eyeScan
  /-- RING_BIST (R491). -/
  | ringBist
  /-- TABLE_BIST (R491). -/
  | tableBist
  /-- TST_ABORT (R491). -/
  | tstAbort
  /-- TST_DONE (R491). -/
  | tstDone (failed : List (BitVec 21)) (res0 : Word) (res1 : Word)
  /-- LOG_POP (R505). -/
  | logPop
  /-- WINDOW_CLOSE (R510). -/
  | windowClose (subsystem : Fin 8)
  /-- FLT_RELEASE (R504). -/
  | fltRelease
  /-- END_COAST (R503). -/
  | endCoast
  /-- FLT_REACT_WRITE (R503). -/
  | fltReactWrite (event : Fin 512) (reaction : Fin 8)
  /-- POWER_DOWN (R523). -/
  | powerDown
  /-- RESETN_RELEASE (R68). -/
  | resetnRelease (flash : Bool) (mramOk : Bool)
  /-- PORT_RESET_DONE (R68). -/
  | portResetDone (port : Fin 64)
  /-- ILK_N_CHANGE (R408). -/
  | ilkNChange (level : Bool)
  /-- DLL_RELOCK (R404). -/
  | dllRelock (output : Fin 16)
  /-- TIME_ONLY_ENTRY_DONE (R468). -/
  | timeOnlyEntryDone
  /-- CONTROL_RAMP_END (R374). -/
  | controlRampEnd
  /-- LINK_TRAINING_DONE (R130). -/
  | linkTrainingDone (port : Fin 64)
  deriving DecidableEq, Repr

end Sys2Proof
end

