-- ==== Sys2Proof/Machine/Bits.lean ====
section
/-! DEFINITION. Bit-field, byte-order, signed and checksum helpers, and the sparse map every table of the
state is kept in. -/

namespace Sys2Proof.Machine

/-- The field of `width` bits whose lowest bit is `lsb`, as a number. -/
def bits (w : Word) (lsb width : Nat) : Nat := (w.extractLsb' lsb width).toNat

/-- The mask of a field. -/
def fieldMask (lsb width : Nat) : Word := (BitVec.ofNat 32 (2 ^ width - 1)) <<< lsb

/-- `w` with its field of `width` bits at `lsb` replaced by the low bits of `v`. -/
def setBits (w : Word) (lsb width v : Nat) : Word :=
  (w &&& ~~~(fieldMask lsb width)) ||| ((BitVec.ofNat 32 (v % 2 ^ width)) <<< lsb)

/-- A Boolean as a one-bit field. -/
def bit (b : Bool) : Nat := if b then 1 else 0

/-- Two's complement value of the low `width` bits of `n`. -/
def signed (width n : Nat) : Int :=
  let m := n % 2 ^ width
  if m < 2 ^ (width - 1) then (m : Int) else (m : Int) - (2 ^ width : Nat)

/-- The `width`-bit two's complement code of `v`. -/
def unsigned (width : Nat) (v : Int) : Nat := (v % (2 ^ width : Nat)).toNat

/-- `v` kept within `[lo, hi]`. -/
def clampInt (lo hi v : Int) : Int := if v < lo then lo else if hi < v then hi else v

/-- The `width`-bit two's complement code of `v` clamped to the range of the code. -/
def saturate (width : Nat) (v : Int) : Nat :=
  unsigned width (clampInt (-(2 ^ (width - 1) : Nat)) ((2 ^ (width - 1) : Nat) - 1) v)

/-- A counter of `width` bits that stops at its greatest value. -/
def satAdd (width n k : Nat) : Nat := min (2 ^ width - 1) (n + k)

/-- `v / d` rounded to the nearest integer, halves away from zero. -/
def roundDiv (v : Int) (d : Nat) : Int :=
  if 0 ≤ v then (2 * v + d) / (2 * d) else -((-2 * v + d) / (2 * d))

/-- The number whose bytes, least significant first, are `bs` (R6, R35). -/
def leNat : List Byte → Nat
  | [] => 0
  | b :: bs => b.toNat + 256 * leNat bs

/-- The number whose bytes, most significant first, are `bs`. -/
def beNat (bs : List Byte) : Nat := bs.foldl (fun a b => a * 256 + b.toNat) 0

/-- The low `n` bytes of `v`, least significant first. -/
def leBytes : Nat → Nat → List Byte
  | 0, _ => []
  | n + 1, v => BitVec.ofNat 8 v :: leBytes n (v / 256)

/-- The low `n` bytes of `v`, most significant first. -/
def beBytes (n v : Nat) : List Byte := (leBytes n v).reverse

/-- Bytes `off` to `off + n - 1` of a string; bytes past its end are left out. -/
def slice (bs : List Byte) (off n : Nat) : List Byte := (bs.drop off).take n

/-- Bit `i` of a number. -/
def hasBit (v i : Nat) : Bool := v.testBit i

/-- `v` with bit `i` set. -/
def orBit (v i : Nat) : Nat := v ||| (2 ^ i)

/-- `v` with bit `i` clear. -/
def clrBit (v i : Nat) : Nat := if v.testBit i then v - 2 ^ i else v

/-- `v` with bit `i` equal to `b`. -/
def putBit (v i : Nat) (b : Bool) : Nat := if b then orBit v i else clrBit v i

/-- The indices below `n` at which `v` has a bit set, ascending. -/
def bitList (n v : Nat) : List Nat := (List.range n).filter (fun i => v.testBit i)

/-- One step of a bit-serial cyclic check: shift `crc` of `width` bits left and fold in bit `b`. -/
def crcStep (width poly : Nat) (crc : Nat) (b : Bool) : Nat :=
  let top := crc.testBit (width - 1)
  let sh := (crc * 2) % 2 ^ width
  if top == b then sh else sh ^^^ poly

/-- A cyclic check of `width` bits over bytes taken most significant bit first. -/
def crcMsb (width poly init : Nat) (bs : List Byte) : Nat :=
  bs.foldl (fun c b => [7, 6, 5, 4, 3, 2, 1, 0].foldl (fun c i => crcStep width poly c (b.getLsbD i)) c) init

/-- One step of a reflected cyclic check: fold in bit `b` and shift right. -/
def crcReflStep (poly : Nat) (crc : Nat) (b : Bool) : Nat :=
  if crc.testBit 0 == b then crc / 2 else (crc / 2) ^^^ poly

/-- A reflected cyclic check: each byte least significant bit first, the register in reflected form. -/
def crcRefl (poly init : Nat) (bs : List Byte) : Nat :=
  bs.foldl (fun c b => [0, 1, 2, 3, 4, 5, 6, 7].foldl (fun c i => crcReflStep poly c (b.getLsbD i)) c) init

/-- A table kept as pairs of a key and a value. Keys rise strictly in every table the model builds. -/
abbrev Sparse (α : Type) := List (Nat × α)

/-- What the table holds at `k`. -/
def Sparse.get? {α : Type} : Sparse α → Nat → Option α
  | [], _ => none
  | (j, v) :: m, k => if j = k then some v else Sparse.get? m k

/-- What the table holds at `k`, or `dflt`. -/
def Sparse.getD {α : Type} (m : Sparse α) (k : Nat) (dflt : α) : α := (Sparse.get? m k).getD dflt

/-- The table without the key `k`. -/
def Sparse.del {α : Type} : Sparse α → Nat → Sparse α
  | [], _ => []
  | (j, v) :: m, k => if j = k then Sparse.del m k else (j, v) :: Sparse.del m k

/-- The pair `(k, v)` put before the first greater key. -/
def Sparse.ins {α : Type} : Sparse α → Nat → α → Sparse α
  | [], k, v => [(k, v)]
  | (j, w) :: m, k, v => if k < j then (k, v) :: (j, w) :: m else (j, w) :: Sparse.ins m k v

/-- The table with `v` at `k`. -/
def Sparse.put {α : Type} (m : Sparse α) (k : Nat) (v : α) : Sparse α := Sparse.ins (Sparse.del m k) k v

/-- The keys of a table rise strictly. -/
def Sparse.sorted {α : Type} : Sparse α → Bool
  | [] => true
  | [_] => true
  | (j, _) :: (k, v) :: m => decide (j < k) && Sparse.sorted ((k, v) :: m)

/-- Element `i` of a list, or `dflt`. -/
def nthD {α : Type} (l : List α) (i : Nat) (dflt : α) : α := (l[i]?).getD dflt

/-- `x` in a set kept as a list without repeats. -/
def addOnce (x : Nat) (l : List Nat) : List Nat := if x ∈ l then l else l ++ [x]

/-- An element put in its place in a list ordered by `before`. -/
def insertBy {α : Type} (before : α → α → Bool) (x : α) : List α → List α
  | [] => [x]
  | y :: ys => if before x y then x :: y :: ys else y :: insertBy before x ys

end Sys2Proof.Machine
end

