-- ==== Sys2Proof/Machine/Crypto.lean ====
section
/-! DEFINITION. The functions that SEC, MSC and the image loader take from outside standards: SHA-384 and SHA-256 (FIPS 180-4), HMAC
(FIPS 198-1), AES-256 (FIPS 197), GCM (SP 800-38D), the key wrap of RFC 3394, ECDSA over P-384 (FIPS 186-5), and the frames of IEEE
802.1AE (R42, R441, R444, R448, R451–R453). Strings are bytes, numbers in them most significant byte first. -/

namespace Sys2Proof.Machine

/-! ### SHA-2 -/

/-- The 80 round words of SHA-512: the first 64 bits of the fractional parts of the cube roots of the first 80 primes; those of
SHA-256 are the first 32 bits of the first 64 (FIPS 180-4). -/
def roundWords : List Nat :=
  [0x428a2f98d728ae22, 0x7137449123ef65cd, 0xb5c0fbcfec4d3b2f, 0xe9b5dba58189dbbc] ++
  [0x3956c25bf348b538, 0x59f111f1b605d019, 0x923f82a4af194f9b, 0xab1c5ed5da6d8118] ++
  [0xd807aa98a3030242, 0x12835b0145706fbe, 0x243185be4ee4b28c, 0x550c7dc3d5ffb4e2] ++
  [0x72be5d74f27b896f, 0x80deb1fe3b1696b1, 0x9bdc06a725c71235, 0xc19bf174cf692694] ++
  [0xe49b69c19ef14ad2, 0xefbe4786384f25e3, 0x0fc19dc68b8cd5b5, 0x240ca1cc77ac9c65] ++
  [0x2de92c6f592b0275, 0x4a7484aa6ea6e483, 0x5cb0a9dcbd41fbd4, 0x76f988da831153b5] ++
  [0x983e5152ee66dfab, 0xa831c66d2db43210, 0xb00327c898fb213f, 0xbf597fc7beef0ee4] ++
  [0xc6e00bf33da88fc2, 0xd5a79147930aa725, 0x06ca6351e003826f, 0x142929670a0e6e70] ++
  [0x27b70a8546d22ffc, 0x2e1b21385c26c926, 0x4d2c6dfc5ac42aed, 0x53380d139d95b3df] ++
  [0x650a73548baf63de, 0x766a0abb3c77b2a8, 0x81c2c92e47edaee6, 0x92722c851482353b] ++
  [0xa2bfe8a14cf10364, 0xa81a664bbc423001, 0xc24b8b70d0f89791, 0xc76c51a30654be30] ++
  [0xd192e819d6ef5218, 0xd69906245565a910, 0xf40e35855771202a, 0x106aa07032bbd1b8] ++
  [0x19a4c116b8d2d0c8, 0x1e376c085141ab53, 0x2748774cdf8eeb99, 0x34b0bcb5e19b48a8] ++
  [0x391c0cb3c5c95a63, 0x4ed8aa4ae3418acb, 0x5b9cca4f7763e373, 0x682e6ff3d6b2b8a3] ++
  [0x748f82ee5defb2fc, 0x78a5636f43172f60, 0x84c87814a1f0ab72, 0x8cc702081a6439ec] ++
  [0x90befffa23631e28, 0xa4506cebde82bde9, 0xbef9a3f7b2c67915, 0xc67178f2e372532b] ++
  [0xca273eceea26619c, 0xd186b8c721c0c207, 0xeada7dd6cde0eb1e, 0xf57d4f7fee6ed178] ++
  [0x06f067aa72176fba, 0x0a637dc5a2c898a6, 0x113f9804bef90dae, 0x1b710b35131c471b] ++
  [0x28db77f523047d84, 0x32caab7b40c72493, 0x3c9ebe0a15c9bebc, 0x431d67c49c100d4c] ++
  [0x4cc5d4becb3e42b6, 0x597f299cfc657e2a, 0x5fcb6fab3ad6faec, 0x6c44198c4a475817]

/-- The starting value of SHA-384 (FIPS 180-4). -/
def sha384Start : List Nat :=
  [0xcbbb9d5dc1059ed8, 0x629a292a367cd507, 0x9159015a3070dd17, 0x152fecd8f70e5939] ++
  [0x67332667ffc00b31, 0x8eb44a8768581511, 0xdb0c2e0d64f98fa7, 0x47b5481dbefa4fa4]

/-- The starting value of SHA-256 (FIPS 180-4). -/
def sha256Start : List Nat :=
  [0x6a09e667, 0xbb67ae85, 0x3c6ef372, 0xa54ff53a] ++
  [0x510e527f, 0x9b05688c, 0x1f83d9ab, 0x5be0cd19]

/-- What the two sizes of SHA-2 differ in: the word's width, the rounds, the rotations of Σ0 and Σ1, and those of σ0 and σ1 with their
shift last. -/
structure Sha where
  width : Nat
  rounds : Nat
  big0 : Nat × Nat × Nat
  big1 : Nat × Nat × Nat
  small0 : Nat × Nat × Nat
  small1 : Nat × Nat × Nat

abbrev sha512 : Sha := ⟨64, 80, (28, 34, 39), (14, 18, 41), (1, 8, 7), (19, 61, 6)⟩
abbrev sha256Kind : Sha := ⟨32, 64, (2, 13, 22), (6, 11, 25), (7, 18, 3), (17, 19, 10)⟩

/-- A word rotated right. -/
def Sha.rotr (h : Sha) (n x : Nat) : Nat := x / 2 ^ n ||| x * 2 ^ (h.width - n) % 2 ^ h.width

/-- Σ0 or Σ1. -/
def Sha.big (h : Sha) (r : Nat × Nat × Nat) (x : Nat) : Nat := h.rotr r.1 x ^^^ h.rotr r.2.1 x ^^^ h.rotr r.2.2 x

/-- σ0 or σ1. -/
def Sha.small (h : Sha) (r : Nat × Nat × Nat) (x : Nat) : Nat := h.rotr r.1 x ^^^ h.rotr r.2.1 x ^^^ x / 2 ^ r.2.2

/-- `n` more words of the message schedule, newest first. -/
def Sha.extend (h : Sha) : Nat → List Nat → List Nat
  | 0, l => l
  | n + 1, l =>
    h.extend n ((h.small h.small1 (nthD l 1 0) + nthD l 6 0 + h.small h.small0 (nthD l 14 0) + nthD l 15 0) % 2 ^ h.width :: l)

/-- A round with the sum of its schedule word and its constant. -/
def Sha.step (h : Sha) (s : List Nat) (kw : Nat) : List Nat :=
  match s with
  | [a, b, c, d, e, f, g, x] =>
    let t1 := x + h.big h.big1 e + ((e &&& f) ^^^ ((2 ^ h.width - 1 - e) &&& g)) + kw
    let t2 := h.big h.big0 a + ((a &&& b) ^^^ (a &&& c) ^^^ (b &&& c))
    [(t1 + t2) % 2 ^ h.width, a, b, c, (d + t1) % 2 ^ h.width, e, f, g]
  | _ => s

/-- A block taken into the hash value. -/
def Sha.block (h : Sha) (s : List Nat) (bs : List Byte) : List Nat :=
  let n := h.width / 8
  let words := (List.range 16).map (fun i => beNat (slice bs (n * i) n))
  let w := (h.extend (h.rounds - 16) words.reverse).reverse
  let k := (roundWords.take h.rounds).map (fun x => x / 2 ^ (64 - h.width))
  let t := (List.zipWith (· + ·) w k).foldl h.step s
  List.zipWith (fun a b => (a + b) % 2 ^ h.width) s t

/-- The message padded to whole blocks. -/
def Sha.pad (h : Sha) (m : List Byte) : List Byte :=
  let size := 2 * h.width
  let tail := h.width / 4
  m ++ [0x80] ++ List.replicate ((size - (m.length + 1 + tail) % size) % size) 0 ++ beBytes tail (8 * m.length)

/-- The blocks of a padded message taken in; the first argument is their number. -/
def Sha.blocks (h : Sha) : Nat → List Byte → List Nat → List Nat
  | 0, _, s => s
  | n + 1, bs, s => h.blocks n (bs.drop (2 * h.width)) (h.block s (bs.take (2 * h.width)))

/-- The bytes of the hash value of a message. -/
def Sha.hash (h : Sha) (start : List Nat) (m : List Byte) : List Byte :=
  let p := h.pad m
  (h.blocks (p.length / (2 * h.width)) p start).flatMap (beBytes (h.width / 8))

/-- SHA-384. -/
def sha384 (m : List Byte) : List Byte := (sha512.hash sha384Start m).take 48

/-- SHA-256. -/
def sha256 (m : List Byte) : List Byte := sha256Kind.hash sha256Start m

/-- HMAC-SHA-256 of a message under a key of at most 64 bytes. -/
def hmacSha256 (key m : List Byte) : List Byte :=
  let k := key ++ List.replicate (64 - key.length) 0
  sha256 (k.map (· ^^^ 0x5C) ++ sha256 (k.map (· ^^^ 0x36) ++ m))

/-! ### AES-256 -/

/-- The S-box of AES (FIPS 197). -/
def sBox : List Nat :=
  [0x63, 0x7c, 0x77, 0x7b, 0xf2, 0x6b, 0x6f, 0xc5, 0x30, 0x01, 0x67, 0x2b, 0xfe, 0xd7, 0xab, 0x76] ++
  [0xca, 0x82, 0xc9, 0x7d, 0xfa, 0x59, 0x47, 0xf0, 0xad, 0xd4, 0xa2, 0xaf, 0x9c, 0xa4, 0x72, 0xc0] ++
  [0xb7, 0xfd, 0x93, 0x26, 0x36, 0x3f, 0xf7, 0xcc, 0x34, 0xa5, 0xe5, 0xf1, 0x71, 0xd8, 0x31, 0x15] ++
  [0x04, 0xc7, 0x23, 0xc3, 0x18, 0x96, 0x05, 0x9a, 0x07, 0x12, 0x80, 0xe2, 0xeb, 0x27, 0xb2, 0x75] ++
  [0x09, 0x83, 0x2c, 0x1a, 0x1b, 0x6e, 0x5a, 0xa0, 0x52, 0x3b, 0xd6, 0xb3, 0x29, 0xe3, 0x2f, 0x84] ++
  [0x53, 0xd1, 0x00, 0xed, 0x20, 0xfc, 0xb1, 0x5b, 0x6a, 0xcb, 0xbe, 0x39, 0x4a, 0x4c, 0x58, 0xcf] ++
  [0xd0, 0xef, 0xaa, 0xfb, 0x43, 0x4d, 0x33, 0x85, 0x45, 0xf9, 0x02, 0x7f, 0x50, 0x3c, 0x9f, 0xa8] ++
  [0x51, 0xa3, 0x40, 0x8f, 0x92, 0x9d, 0x38, 0xf5, 0xbc, 0xb6, 0xda, 0x21, 0x10, 0xff, 0xf3, 0xd2] ++
  [0xcd, 0x0c, 0x13, 0xec, 0x5f, 0x97, 0x44, 0x17, 0xc4, 0xa7, 0x7e, 0x3d, 0x64, 0x5d, 0x19, 0x73] ++
  [0x60, 0x81, 0x4f, 0xdc, 0x22, 0x2a, 0x90, 0x88, 0x46, 0xee, 0xb8, 0x14, 0xde, 0x5e, 0x0b, 0xdb] ++
  [0xe0, 0x32, 0x3a, 0x0a, 0x49, 0x06, 0x24, 0x5c, 0xc2, 0xd3, 0xac, 0x62, 0x91, 0x95, 0xe4, 0x79] ++
  [0xe7, 0xc8, 0x37, 0x6d, 0x8d, 0xd5, 0x4e, 0xa9, 0x6c, 0x56, 0xf4, 0xea, 0x65, 0x7a, 0xae, 0x08] ++
  [0xba, 0x78, 0x25, 0x2e, 0x1c, 0xa6, 0xb4, 0xc6, 0xe8, 0xdd, 0x74, 0x1f, 0x4b, 0xbd, 0x8b, 0x8a] ++
  [0x70, 0x3e, 0xb5, 0x66, 0x48, 0x03, 0xf6, 0x0e, 0x61, 0x35, 0x57, 0xb9, 0x86, 0xc1, 0x1d, 0x9e] ++
  [0xe1, 0xf8, 0x98, 0x11, 0x69, 0xd9, 0x8e, 0x94, 0x9b, 0x1e, 0x87, 0xe9, 0xce, 0x55, 0x28, 0xdf] ++
  [0x8c, 0xa1, 0x89, 0x0d, 0xbf, 0xe6, 0x42, 0x68, 0x41, 0x99, 0x2d, 0x0f, 0xb0, 0x54, 0xbb, 0x16]

/-- Twice an element of the field of AES. -/
def aesDouble (x : Nat) : Nat := if x < 128 then 2 * x else (2 * x - 256) ^^^ 0x1B

/-- The product of two elements of the field of AES, the second below 16. -/
def aesTimes (x k : Nat) : Nat :=
  let pick := fun (i v : Nat) => if k.testBit i then v else 0
  pick 0 x ^^^ pick 1 (aesDouble x) ^^^ pick 2 (aesDouble (aesDouble x)) ^^^ pick 3 (aesDouble (aesDouble (aesDouble x)))

/-- A byte through the S-box, and back. -/
def subByte (x : Nat) : Nat := nthD sBox x 0
def unsubByte (x : Nat) : Nat := sBox.idxOf x

/-- `n` more words of the key schedule, newest first, from word `i` on; `rc` is the next round constant. -/
def keyExtend : Nat → Nat → Nat → List (List Nat) → List (List Nat)
  | 0, _, _, l => l
  | n + 1, i, rc, l =>
    let t := nthD l 0 []
    let t1 :=
      if i % 8 = 0 then
        match (t.drop 1 ++ t.take 1).map subByte with
        | x :: xs => (x ^^^ rc) :: xs
        | [] => []
      else if i % 8 = 4 then t.map subByte else t
    keyExtend n (i + 1) (if i % 8 = 0 then aesDouble rc else rc) (List.zipWith (· ^^^ ·) (nthD l 7 []) t1 :: l)

/-- The 15 round keys of a 32-byte key. -/
def roundKeys (key : List Byte) : List (List Nat) :=
  let k := key.map (·.toNat)
  let w := (keyExtend 52 8 1 (((List.range 8).map (fun i => (k.drop (4 * i)).take 4)).reverse)).reverse
  (List.range 15).map (fun i => ((w.drop (4 * i)).take 4).flatten)

/-- The rows of a state of 16 bytes turned: row r by r columns, or by 4 − r with `back`. -/
def shiftRows (back : Bool) (s : List Nat) : List Nat :=
  (List.range 16).map (fun j => nthD s (4 * ((j / 4 + (if back then 4 - j % 4 else j % 4)) % 4) + j % 4) 0)

/-- The columns multiplied by a circulant matrix, whose first row is given. -/
def mixColumns (m : List Nat) (s : List Nat) : List Nat :=
  (List.range 16).map (fun j => (List.range 4).foldl (fun a i =>
    a ^^^ aesTimes (nthD s (4 * (j / 4) + i) 0) (nthD m ((i + 4 - j % 4) % 4) 0)) 0)

/-- Two byte lists added. -/
def xorAll (a b : List Nat) : List Nat := List.zipWith (· ^^^ ·) a b

/-- AES-256 encryption of a 16-byte block under its round keys. -/
def aesEncrypt (keys : List (List Nat)) (blk : List Nat) : List Nat :=
  let mid := ((keys.drop 1).take 13).foldl (fun s k => xorAll (mixColumns [2, 3, 1, 1] (shiftRows false (s.map subByte))) k)
    (xorAll blk (nthD keys 0 []))
  xorAll (shiftRows false (mid.map subByte)) (nthD keys 14 [])

/-- AES-256 decryption of a 16-byte block. -/
def aesDecrypt (keys : List (List Nat)) (blk : List Nat) : List Nat :=
  let mid := (((keys.drop 1).take 13).reverse).foldl
    (fun s k => mixColumns [14, 11, 13, 9] (xorAll ((shiftRows true s).map unsubByte) k)) (xorAll blk (nthD keys 14 []))
  xorAll ((shiftRows true mid).map unsubByte) (nthD keys 0 [])

/-- Bytes as numbers, and back. -/
def toNats (bs : List Byte) : List Nat := bs.map (·.toNat)
def ofNats (l : List Nat) : List Byte := l.map (BitVec.ofNat 8)

/-! ### GCM -/

/-- `n` bits of the product of two blocks of GHASH, from bit `i` of the first on: `z` is the sum so far and `v` the second, shifted. -/
def ghashTimes (x : Nat) : Nat → Nat → Nat → Nat → Nat
  | 0, _, z, _ => z
  | n + 1, i, z, v =>
    ghashTimes x n (i + 1) (if x.testBit (127 - i) then z ^^^ v else z)
      (if v.testBit 0 then v / 2 ^^^ 0xE1 * 2 ^ 120 else v / 2)

/-- GHASH over whole blocks, given by their number. -/
def ghash (h : Nat) : Nat → List Byte → Nat → Nat
  | 0, _, y => y
  | n + 1, bs, y => ghash h n (bs.drop 16) (ghashTimes (y ^^^ beNat (bs.take 16)) 128 0 0 h)

/-- Bytes filled up with zeros to whole blocks. -/
def padBlock (bs : List Byte) : List Byte := bs ++ List.replicate ((16 - bs.length % 16) % 16) 0

/-- A string enciphered by counter blocks from number `c` of a 12-byte IV on; the first argument is the number of blocks. -/
def gctr (keys : List (List Nat)) (iv : List Byte) : Nat → Nat → List Byte → List Byte
  | 0, _, _ => []
  | n + 1, c, bs =>
    let pad := aesEncrypt keys (toNats (iv ++ beBytes 4 c))
    ofNats (xorAll (toNats (bs.take 16)) pad) ++ gctr keys iv n (c + 1) (bs.drop 16)

/-- A string under GCM-AES-256, either way. -/
def gcmCipher (key iv text : List Byte) : List Byte := gctr (roundKeys key) iv ((text.length + 15) / 16) 2 text

/-- The tag of GCM-AES-256 over what is authenticated alone and the ciphertext. -/
def gcmTag (key iv aad cipher : List Byte) : List Byte :=
  let keys := roundKeys key
  let h := beNat (ofNats (aesEncrypt keys (List.replicate 16 0)))
  let all := padBlock aad ++ padBlock cipher ++ beBytes 8 (8 * aad.length) ++ beBytes 8 (8 * cipher.length)
  let s := ghash h (all.length / 16) all 0
  ofNats (xorAll (toNats (beBytes 16 s)) (aesEncrypt keys (toNats (iv ++ beBytes 4 1))))

/-! ### Key wrap -/

/-- One step of the wrap: the register A and the block `i` of the key, of step `t`. -/
def wrapStep (keys : List (List Nat)) (s : List Byte × List (List Byte)) (t : Nat) : List Byte × List (List Byte) :=
  let i := t % 4
  let b := ofNats (aesEncrypt keys (toNats (s.1 ++ nthD s.2 i [])))
  (beBytes 8 (beNat (b.take 8) ^^^ (t + 1)), s.2.set i (b.drop 8))

/-- The step undone. -/
def unwrapStep (keys : List (List Nat)) (s : List Byte × List (List Byte)) (t : Nat) : List Byte × List (List Byte) :=
  let i := t % 4
  let b := ofNats (aesDecrypt keys (toNats (beBytes 8 (beNat s.1 ^^^ (t + 1)) ++ nthD s.2 i [])))
  (b.take 8, s.2.set i (b.drop 8))

/-- A string of 32 bytes in four. -/
def quarters (bs : List Byte) : List (List Byte) := (List.range 4).map (fun i => slice bs (8 * i) 8)

/-- The 40 bytes that carry a 32-byte key under another (RFC 3394). -/
def keyWrap (kek key : List Byte) : List Byte :=
  let r := (List.range 24).foldl (wrapStep (roundKeys kek)) (List.replicate 8 0xA6, quarters key)
  r.1 ++ r.2.flatten

/-- The key that 40 bytes carry, or none where the check fails. -/
def keyUnwrap (kek bs : List Byte) : Option (List Byte) :=
  let r := (List.range 24).reverse.foldl (unwrapStep (roundKeys kek)) (bs.take 8, quarters (bs.drop 8))
  if bs.length = 40 ∧ r.1 = List.replicate 8 0xA6 then some r.2.flatten else none

/-! ### ECDSA over P-384 -/

/-- The field of the curve, its order, its coefficient b and its base point. -/
abbrev p384 : Nat := 2 ^ 384 - 2 ^ 128 - 2 ^ 96 + 2 ^ 32 - 1
abbrev p384Order : Nat :=
  0xffffffffffffffffffffffffffffffffffffffffffffffffc7634d81f4372ddf581a0db248b0a77aecec196accc52973
abbrev p384B : Nat :=
  0xb3312fa7e23ee7e4988e056be3f82d19181d9c6efe8141120314088f5013875ac656398d8a2ed19d2a85c8edd3ec2aef
abbrev p384BaseX : Nat :=
  0xaa87ca22be8b05378eb1c71ef320ad746e1d3b628ba79b9859f741e082542a385502f25dbf55296c3a545e3872760ab7
abbrev p384BaseY : Nat :=
  0x3617de4a96262c6f5d9e98bf9292dc29f8f41dbd289a147ce9da3113b5f0b8c00a60b1ce1d7e819d7a431d7c90ea0e5f

/-- A power modulo `m`, over the low `n` bits of the exponent. -/
def powMod (m : Nat) : Nat → Nat → Nat → Nat
  | 0, _, _ => 1 % m
  | n + 1, b, e =>
    let r := powMod m n (b * b % m) (e / 2)
    if e % 2 = 1 then b * r % m else r

/-- The inverse modulo a prime of at most 384 bits. -/
def invMod (m a : Nat) : Nat := powMod m 384 (a % m) (m - 2)

/-- A point of the curve in Jacobian coordinates; Z is 0 at infinity. -/
structure Point where
  x : Nat
  y : Nat
  z : Nat
  deriving DecidableEq, Repr

/-- A difference in the field. -/
def subP (a b : Nat) : Nat := (a + p384 - b % p384) % p384

/-- A point doubled. -/
def Point.double (a : Point) : Point :=
  let delta := a.z * a.z % p384
  let gamma := a.y * a.y % p384
  let beta := a.x * gamma % p384
  let alpha := 3 * subP a.x delta * (a.x + delta) % p384
  let x := subP (alpha * alpha) (8 * beta)
  { x := x, y := subP (alpha * subP (4 * beta) x) (8 * (gamma * gamma % p384)), z := 2 * a.y * a.z % p384 }

/-- The sum of two points. -/
def Point.add (a b : Point) : Point :=
  if a.z = 0 then b
  else if b.z = 0 then a
  else
    let z1 := a.z * a.z % p384
    let z2 := b.z * b.z % p384
    let u1 := a.x * z2 % p384
    let u2 := b.x * z1 % p384
    let s1 := a.y * b.z % p384 * z2 % p384
    let s2 := b.y * a.z % p384 * z1 % p384
    if u1 = u2 then (if s1 = s2 then a.double else ⟨1, 1, 0⟩)
    else
      let h := subP u2 u1
      let r := subP s2 s1
      let hh := h * h % p384
      let hhh := h * hh % p384
      let v := u1 * hh % p384
      let x := subP (r * r) (hhh + 2 * v)
      { x := x, y := subP (r * subP v x) (s1 * hhh), z := h * a.z % p384 * b.z % p384 }

/-- A multiple of a point, over the low `n` bits of the factor. -/
def Point.times (a : Point) : Nat → Nat → Point
  | 0, _ => ⟨1, 1, 0⟩
  | n + 1, k =>
    let r := (a.times n (k / 2)).double
    if k % 2 = 1 then r.add a else r

/-- The x coordinate of a point that is not at infinity. -/
def Point.affineX (a : Point) : Nat := let i := invMod p384 a.z; a.x * (i * i % p384) % p384

/-- The base point. -/
abbrev p384Base : Point := ⟨p384BaseX, p384BaseY, 1⟩

/-- The point of a 97-byte public key, 0x04, x, y, or none where it lies off the curve. -/
def publicPoint (key : List Byte) : Option Point :=
  let x := beNat (slice key 1 48)
  let y := beNat (slice key 49 48)
  if key.length = 97 ∧ key.take 1 = [0x04] ∧ x < p384 ∧ y < p384 ∧
      y * y % p384 = (x * x % p384 * x + (p384 - 3) * x + p384B) % p384 then some ⟨x, y, 1⟩ else none

/-- Whether a 96-byte signature r, s over a digest verifies under a public key (R42, R444). -/
def ecdsaVerify (key digest sig : List Byte) : Bool :=
  let r := beNat (sig.take 48)
  let s := beNat (slice sig 48 48)
  match publicPoint key with
  | none => false
  | some q =>
    if sig.length ≠ 96 ∨ r = 0 ∨ s = 0 ∨ p384Order ≤ r ∨ p384Order ≤ s then false
    else
      let w := invMod p384Order s
      let a := (p384Base.times 384 (beNat digest * w % p384Order)).add (q.times 384 (r * w % p384Order))
      a.z != 0 && a.affineX % p384Order == r

/-- The 96-byte signature over a digest under a private key, with the secret number `k` of the signature in 1 to the order less 1
(R441). -/
def ecdsaSign (key : Nat) (digest : List Byte) (k : Nat) : List Byte :=
  let r := (p384Base.times 384 k).affineX % p384Order
  let s := invMod p384Order k * ((beNat digest + r * key) % p384Order) % p384Order
  beBytes 48 r ++ beBytes 48 s

/-! ### MACsec frames -/

/-- What a MACsec association gives the cipher (R451, R452): the 32-byte key, the packet number and the AN, the SCI, and for the
extended packet numbering the SSCI and the 12-byte salt; the confidentiality offset and whether the frame is encrypted. -/
structure SaUse where
  key : List Byte
  pn : Nat
  an : Nat
  sci : Nat
  ssci : Nat
  salt : List Byte
  xpn : Bool
  offset : Nat
  conf : Bool
  deriving DecidableEq, Repr

/-- The initialisation vector of a packet: SCI and PN, or for the extended numbering SSCI and PN added to the salt. -/
def SaUse.iv (u : SaUse) : List Byte :=
  if u.xpn then List.zipWith (· ^^^ ·) (beBytes 4 u.ssci ++ beBytes 8 u.pn) u.salt else beBytes 8 u.sci ++ beBytes 4 u.pn

/-- The parts of a MACsec frame without FCS: what stands before the user data, the user data as they are on the line, and the ICV. -/
def macsecParts (bs : List Byte) : List Byte × List Byte × List Byte :=
  let head := if (bs.getD 14 0).toNat / 32 % 2 = 1 then 28 else 20
  let short := (bs.getD 15 0).toNat % 64
  let n := if short = 0 then bs.length - head - 16 else short
  (bs.take head, slice bs head n, slice bs (head + n) 16)

/-- The user data of a MACsec frame in clear: those behind the confidentiality offset are deciphered where the E bit is set. -/
def SaUse.clear (u : SaUse) (tci : Nat) (user : List Byte) : List Byte :=
  if tci / 8 % 2 = 1 then user.take u.offset ++ gcmCipher u.key u.iv (user.drop u.offset) else user

/-- The unprotected frame without FCS that a MACsec frame without FCS carries, as far as it has arrived (R451). -/
def macsecOpen (u : SaUse) (bs : List Byte) : List Byte :=
  let (_, user, _) := macsecParts bs
  bs.take 12 ++ u.clear (bs.getD 14 0).toNat user

/-- The ICV of a packet, given what stands before the user data and the user data as they are on the line. -/
def SaUse.icv (u : SaUse) (encrypted : Bool) (head user : List Byte) : List Byte :=
  if encrypted then gcmTag u.key u.iv (head ++ user.take u.offset) (user.drop u.offset) else gcmTag u.key u.iv (head ++ user) []

/-- The ICV of a whole MACsec frame without FCS is right (R451). -/
def macsecValid (u : SaUse) (bs : List Byte) : Bool :=
  let (head, user, icv) := macsecParts bs
  u.icv ((bs.getD 14 0).toNat / 8 % 2 == 1) head user == icv

/-- The protected frame without FCS of an unprotected frame without FCS; the flag says whether the SCI is explicit (R451). -/
def macsecSeal (u : SaUse) (explicit : Bool) (bs : List Byte) : List Byte :=
  let data := bs.drop 12
  let tci := 32 * bit explicit + 12 * bit u.conf + u.an
  let head := bs.take 12 ++ [0x88, 0xE5, BitVec.ofNat 8 tci, BitVec.ofNat 8 (if data.length < 48 then data.length else 0)] ++
    beBytes 4 u.pn ++ (if explicit then beBytes 8 u.sci else [])
  let user := if u.conf then data.take u.offset ++ gcmCipher u.key u.iv (data.drop u.offset) else data
  head ++ user ++ u.icv u.conf head user

end Sys2Proof.Machine
end

