-- ==== Sys2Proof/Config.lean ====
section
/-! DEFINITION. What the spec leaves open, each as a constant without a body: nothing can compute or prove what it
is. A constant applied to the draw counter of the state is a fresh value at each draw; one applied to operands is
the function the part defines. -/

namespace Sys2Proof

/-- A port of a LANE_MAP section: its first lane, its lanes, the rate code of Table HSL-1, the FEC and speed codes of Table
MAC-1. -/
structure PortPlan where
  port : Nat
  lanes : Nat
  rate : Nat
  fec : Nat
  speed : Nat
  deriving DecidableEq, Repr

/-- A port of a PORT_CLASS section: the cut-through classes, the express classes, the default pool of each class (two bits
each) and the classes with spill-up. -/
structure ClassPlan where
  port : Nat
  cutThrough : Nat
  express : Nat
  pools : Nat
  spill : Nat
  deriving DecidableEq, Repr

/-- A CLUSTER section: the engines it names express, and whether adjacent stealing is enabled. -/
structure ClusterPlan where
  express : List Nat
  adjacent : Bool
  deriving DecidableEq, Repr, Inhabited

/-- A TIME_PLAN section: time_less, band_otp, the rope quads enabled. -/
structure TimePlan where
  timeLess : Bool
  bandOtp : Bool
  quads : Nat
  deriving DecidableEq, Repr, Inhabited

/-- A TABLE_PART section: base and size in units of each key type's exact-match partition and TCAM slice. -/
structure PartPlan where
  em : List (Nat × Nat)
  tcam : List (Nat × Nat)
  deriving DecidableEq, Repr, Inhabited

namespace Config

/-! ### Values the spec leaves to the timing -/

/-- Core cycles that a frame, a copy or a counted state lasts, for a counter in level mode (R474), by draw. -/
opaque cyclesHeld : Nat → Nat

/-- Which of the initial handles left in a rebuilt free stack the next pop returns, by pool and draw. -/
opaque stackPick : Nat → Nat → Nat

/-- Which handle of a group cache goes to the stack as the cache drains (R223), by pool and draw. -/
opaque cachePick : Nat → Nat → Nat

/-- How far a fuse operation that did not end came, by draw (R438). -/
opaque partFuse : Nat → Nat

/-- The gates an entry of a gate bank opens that met an uncorrectable error (R500), by port, bank and entry. -/
opaque spoiledGates : Nat → Nat → Nat → Nat

/-- What a byte of the packet memory holds before anything was written to it, by cell and place in the cell (R214, R230). -/
opaque packetByte : Nat → Nat → Byte

/-- The nominal a trim run forms from the 256 captures of one kind (R284). -/
opaque trimNominal : List Nat → Nat

/-- The rate and the width that the other end of the PCIe link has (R82), by draw; taken modulo 4 and 3. -/
opaque linkRate : Nat → Nat
opaque linkWidth : Nat → Nat

/-- Whether a random sampler selects a candidate (R485), by draw. -/
opaque randomSelect : Nat → Bool

/-- The grid phase of a PHX link as it is enabled (R307), by draw; taken modulo the grid's period. -/
opaque gridPhase : Nat → Nat

/-- The integrator of a DPLL's loop at a tick, in ppt, by draw: R352 gives the loop's type and no coefficients. -/
opaque loopIntegrator : Nat → Int

/-- The phase correction of a DPLL's loop at a tick, in ppt, by draw, before the clamp of R353. -/
opaque loopCorrection : Nat → Int

/-- The transmit gearbox phase of a lane as its port is enabled (R125), by draw; taken modulo 80. -/
opaque gearboxPhase : Nat → Nat

/-- Whether the device calls its time traceable in a hyperframe's word 4 (R148), by draw: no rule says when it is. -/
opaque traceable : Nat → Bool

/-! ### Image sections whose layout the spec does not give (Table IMG-3) -/

/-- What a LANE_MAP payload says. -/
opaque lanePlan : List Byte → List PortPlan

/-- What a PORT_CLASS payload says. -/
opaque classPlan : List Byte → List ClassPlan

/-- What a CLUSTER payload says. -/
opaque clusterPlan : List Byte → ClusterPlan

/-- What a TIME_PLAN payload says. -/
opaque timePlan : List Byte → TimePlan

/-- What a TABLE_PART payload says. -/
opaque partPlan : List Byte → PartPlan

/-- The buffers of pools 0–3 that a POOLS payload gives. -/
opaque poolPlan : List Byte → List Nat

/-- The update groups that a UG_MAP payload gives, by the number of the register group. -/
opaque groupPlan : List Byte → List (Nat × Nat)

/-- The power domains that a POWER payload enables, one bit each. -/
opaque domainPlan : List Byte → Nat

/-! ### Random numbers of the security unit -/

/-- The secret number of an ECDSA signature (R441), by draw. -/
opaque signNonce : Nat → Nat

/-- The random number of a debug challenge (R444), by draw. -/
opaque randomNumber : Nat → Nat

end Config
end Sys2Proof
end

