-- ==== Sys2Proof/Machine/Catalog.lean ====
section
/-! DEFINITION. The fault catalogue (R496–R501, R509): codes, classes, default reactions, the block and the
subsystem of an event. Classes: 0 info, 1 corrected, 2 contained, 3 fatal. -/

namespace Sys2Proof.Machine

/-- TOP_THERM_WARN (Table FLT-2). -/
abbrev E.TOP_THERM_WARN : Nat := 0x080
/-- TOP_THERM_CRIT (Table FLT-2). -/
abbrev E.TOP_THERM_CRIT : Nat := 0x081
/-- TOP_WDOG (Table FLT-2). -/
abbrev E.TOP_WDOG : Nat := 0x082
/-- IMG_ABSENT_WRITE (Table FLT-2). -/
abbrev E.IMG_ABSENT_WRITE : Nat := 0x088
/-- IMG_FAIL (Table FLT-2). -/
abbrev E.IMG_FAIL : Nat := 0x089
/-- IMG_PR_FAIL (Table FLT-2). -/
abbrev E.IMG_PR_FAIL : Nat := 0x08A
/-- HIF_ACC_REFUSED (Table FLT-2). -/
abbrev E.HIF_ACC_REFUSED : Nat := 0x090
/-- HIF_AER_CORR (Table FLT-2). -/
abbrev E.HIF_AER_CORR : Nat := 0x091
/-- HIF_AER_UNCORR (Table FLT-2). -/
abbrev E.HIF_AER_UNCORR : Nat := 0x092
/-- HIF_CPL_TIMEOUT (Table FLT-2). -/
abbrev E.HIF_CPL_TIMEOUT : Nat := 0x093
/-- HIF_LINK_DOWN (Table FLT-2). -/
abbrev E.HIF_LINK_DOWN : Nat := 0x094
/-- PWR_DOMAIN_FAIL (Table FLT-2). -/
abbrev E.PWR_DOMAIN_FAIL : Nat := 0x098
/-- SEC_TAMPER (Table FLT-2). -/
abbrev E.SEC_TAMPER : Nat := 0x0A0
/-- SEC_DEBUG_OPEN (Table FLT-2). -/
abbrev E.SEC_DEBUG_OPEN : Nat := 0x0A1
/-- SEC_OTP_FAIL (Table FLT-2). -/
abbrev E.SEC_OTP_FAIL : Nat := 0x0A2
/-- TBS_TXQ_OVF (Table FLT-2). -/
abbrev E.TBS_TXQ_OVF : Nat := 0x0B0
/-- TBS_STEP (Table FLT-2). -/
abbrev E.TBS_STEP : Nat := 0x0B1
/-- TBS_ADJ_REFUSED (Table FLT-2). -/
abbrev E.TBS_ADJ_REFUSED : Nat := 0x0B2
/-- TDC_CH_FAULT (Table FLT-2). -/
abbrev E.TDC_CH_FAULT : Nat := 0x0B8
/-- TDC_TRIM_FAIL (Table FLT-2). -/
abbrev E.TDC_TRIM_FAIL : Nat := 0x0B9
/-- DPL_T_HOLDOVER (Table FLT-2). -/
abbrev E.DPL_T_HOLDOVER : Nat := 0x0C0
/-- DPL_F_HOLDOVER (Table FLT-2). -/
abbrev E.DPL_F_HOLDOVER : Nat := 0x0C1
/-- DPL_T_LOCK_LOST (Table FLT-2). -/
abbrev E.DPL_T_LOCK_LOST : Nat := 0x0C2
/-- HO_HIST_INVALID (Table FLT-2). -/
abbrev E.HO_HIST_INVALID : Nat := 0x0C3
/-- DPL_LRN_EXTRAP (Table FLT-2). -/
abbrev E.DPL_LRN_EXTRAP : Nat := 0x0C4
/-- DPL_LRN_TEMP_STALE (Table FLT-2). -/
abbrev E.DPL_LRN_TEMP_STALE : Nat := 0x0C5
/-- REF_DISAGREE (Table FLT-2). -/
abbrev E.REF_DISAGREE : Nat := 0x0C8
/-- REF_VOTE (Table FLT-2). -/
abbrev E.REF_VOTE : Nat := 0x0C9
/-- REF_DISQUALIFIED (Table FLT-2). -/
abbrev E.REF_DISQUALIFIED : Nat := 0x0CA
/-- SYN_ROOT_LOCK_LOST (Table FLT-2). -/
abbrev E.SYN_ROOT_LOCK_LOST : Nat := 0x0D0
/-- SYN_ROOT_LOCK_FAIL (Table FLT-2). -/
abbrev E.SYN_ROOT_LOCK_FAIL : Nat := 0x0D1
/-- OUT_DLL_UNLOCK (Table FLT-2). -/
abbrev E.OUT_DLL_UNLOCK : Nat := 0x0D8
/-- OUT_ALIGN_LOST (Table FLT-2). -/
abbrev E.OUT_ALIGN_LOST : Nat := 0x0D9
/-- PHX_LOST (Table FLT-2). -/
abbrev E.PHX_LOST : Nat := 0x0E0
/-- PHX_JUMP (Table FLT-2). -/
abbrev E.PHX_JUMP : Nat := 0x0E1
/-- PHX_LOOP (Table FLT-2). -/
abbrev E.PHX_LOOP : Nat := 0x0E2
/-- PHX_AMBIGUITY (Table FLT-2). -/
abbrev E.PHX_AMBIGUITY : Nat := 0x0E3
/-- PHX_ASYM_MISMATCH (Table FLT-2). -/
abbrev E.PHX_ASYM_MISMATCH : Nat := 0x0E4
/-- RLK_LINK_DOWN (Table FLT-2). -/
abbrev E.RLK_LINK_DOWN : Nat := 0x0E8
/-- RLK_UNFREEZE (Table FLT-2). -/
abbrev E.RLK_UNFREEZE : Nat := 0x0E9
/-- RLK_PHASE_JUMP (Table FLT-2). -/
abbrev E.RLK_PHASE_JUMP : Nat := 0x0EA
/-- RLK_CW_ERR (Table FLT-2). -/
abbrev E.RLK_CW_ERR : Nat := 0x0EB
/-- HSL_CDR_LOSS (Table FLT-2). -/
abbrev E.HSL_CDR_LOSS : Nat := 0x0F0
/-- HSL_REALIGN (Table FLT-2). -/
abbrev E.HSL_REALIGN : Nat := 0x0F1
/-- MAC_LINK_DOWN (Table FLT-2). -/
abbrev E.MAC_LINK_DOWN : Nat := 0x0F8
/-- MAC_AN_FAIL (Table FLT-2). -/
abbrev E.MAC_AN_FAIL : Nat := 0x0F9
/-- FWD_EM_DUP (Table FLT-2). -/
abbrev E.FWD_EM_DUP : Nat := 0x100
/-- FWD_HDR_OVERRUN (Table FLT-2). -/
abbrev E.FWD_HDR_OVERRUN : Nat := 0x101
/-- FWD_ACT_INVALID (Table FLT-2). -/
abbrev E.FWD_ACT_INVALID : Nat := 0x102
/-- FWD_ENGINE_HANG (Table FLT-2). -/
abbrev E.FWD_ENGINE_HANG : Nat := 0x103
/-- BPM_DOUBLE_FREE (Table FLT-2). -/
abbrev E.BPM_DOUBLE_FREE : Nat := 0x108
/-- BPM_FOREIGN_FREE (Table FLT-2). -/
abbrev E.BPM_FOREIGN_FREE : Nat := 0x109
/-- BPM_POOL_EMPTY (Table FLT-2). -/
abbrev E.BPM_POOL_EMPTY : Nat := 0x10A
/-- QSC_LATE (Table FLT-2). -/
abbrev E.QSC_LATE : Nat := 0x110
/-- QSC_STOMP (Table FLT-2). -/
abbrev E.QSC_STOMP : Nat := 0x111
/-- QSC_GCL_ERR (Table FLT-2). -/
abbrev E.QSC_GCL_ERR : Nat := 0x112
/-- QSC_SK_EXHAUSTED (Table FLT-2). -/
abbrev E.QSC_SK_EXHAUSTED : Nat := 0x113
/-- QSC_SK_TEMPLATE_ERR (Table FLT-2). -/
abbrev E.QSC_SK_TEMPLATE_ERR : Nat := 0x114
/-- CNT_DMA_ERR (Table FLT-2). -/
abbrev E.CNT_DMA_ERR : Nat := 0x118
/-- CNT_SKIP (Table FLT-2). -/
abbrev E.CNT_SKIP : Nat := 0x119
/-- RDN_MATE_LOST (Table FLT-2). -/
abbrev E.RDN_MATE_LOST : Nat := 0x128
/-- RDN_DUAL_ACTIVE (Table FLT-2). -/
abbrev E.RDN_DUAL_ACTIVE : Nat := 0x129
/-- RDN_BOTH_FAULTED (Table FLT-2). -/
abbrev E.RDN_BOTH_FAULTED : Nat := 0x12A
/-- RDN_DIVERGE (Table FLT-2). -/
abbrev E.RDN_DIVERGE : Nat := 0x12B
/-- RDN_DPLL_MISMATCH (Table FLT-2). -/
abbrev E.RDN_DPLL_MISMATCH : Nat := 0x12C
/-- RDN_MIRROR_OVF (Table FLT-2). -/
abbrev E.RDN_MIRROR_OVF : Nat := 0x12D
/-- RDN_IMG_MISMATCH (Table FLT-2). -/
abbrev E.RDN_IMG_MISMATCH : Nat := 0x12E
/-- TST_MEM_FAIL (Table FLT-2). -/
abbrev E.TST_MEM_FAIL : Nat := 0x130
/-- TST_LOGIC_FAIL (Table FLT-2). -/
abbrev E.TST_LOGIC_FAIL : Nat := 0x131
/-- MSC_PN_EXHAUSTED (Table FLT-2). -/
abbrev E.MSC_PN_EXHAUSTED : Nat := 0x138
/-- MSC_NO_SA (Table FLT-2). -/
abbrev E.MSC_NO_SA : Nat := 0x139
/-- MSC_REPLAY (Table FLT-2). -/
abbrev E.MSC_REPLAY : Nat := 0x13A

/-- CFG_PARITY of the block of page `pg` (R498). -/
abbrev E.CFG_PARITY (pg : Nat) : Nat := pg
/-- MEM_CORR of memory `m` of Table FLT-1 (R499). -/
abbrev E.MEM_CORR (m : Nat) : Nat := 0x020 + 2 * m
/-- MEM_UNCORR of memory `m` of Table FLT-1 (R499). -/
abbrev E.MEM_UNCORR (m : Nat) : Nat := 0x021 + 2 * m

/-- The named events of Table FLT-2 as code, class and default reaction. -/
def namedEvents : List (Nat × Nat × Nat) :=
  [(0x080, 0, 0), (0x081, 3, 5), (0x082, 3, 0), (0x088, 0, 0), (0x089, 2, 0), (0x08A, 2, 0), (0x090, 0, 0), (0x091, 1, 0), (0x092, 2, 0), (0x093, 2, 0), (0x094, 2, 0), (0x098, 2, 0), (0x0A0, 3, 4), (0x0A1, 0, 0), (0x0A2, 2, 0), (0x0B0, 0, 0), (0x0B1, 0, 0), (0x0B2, 0, 0), (0x0B8, 2, 0), (0x0B9, 2, 0)] ++
  [(0x0C0, 0, 0), (0x0C1, 0, 0), (0x0C2, 0, 0), (0x0C3, 0, 0), (0x0C4, 0, 0), (0x0C5, 0, 0), (0x0C8, 0, 0), (0x0C9, 0, 0), (0x0CA, 0, 0), (0x0D0, 2, 0), (0x0D1, 3, 2), (0x0D8, 2, 0), (0x0D9, 0, 0), (0x0E0, 0, 0), (0x0E1, 0, 0), (0x0E2, 2, 0), (0x0E3, 0, 0), (0x0E4, 0, 0), (0x0E8, 0, 0), (0x0E9, 0, 0)] ++
  [(0x0EA, 0, 0), (0x0EB, 0, 0), (0x0F0, 0, 0), (0x0F1, 0, 0), (0x0F8, 0, 0), (0x0F9, 0, 0), (0x100, 0, 0), (0x101, 0, 0), (0x102, 0, 0), (0x103, 2, 0), (0x108, 2, 0), (0x109, 2, 0), (0x10A, 0, 0), (0x110, 0, 0), (0x111, 0, 0), (0x112, 2, 0), (0x113, 0, 0), (0x114, 2, 0), (0x118, 2, 0), (0x119, 0, 0)] ++
  [(0x128, 0, 0), (0x129, 2, 0), (0x12A, 3, 0), (0x12B, 0, 0), (0x12C, 0, 0), (0x12D, 0, 0), (0x12E, 2, 0), (0x130, 2, 0), (0x131, 2, 0), (0x138, 2, 0), (0x139, 0, 0), (0x13A, 0, 0)]

/-- The block page of each protected memory, by its number in Table FLT-1 (R499). -/
def memoryBlock : List Nat :=
  [17, 16, 16, 16, 16, 16, 16, 16, 18, 18, 18, 6, 19, 20, 23, 23, 4, 1, 1, 8, 8, 13]

/-- Class and default reaction of the event with this code; none where the code is reserved (R498–R501). -/
def eventInfo (code : Nat) : Option (Nat × Nat) :=
  if code < 24 then some (2, 0)
  else if 0x020 ≤ code ∧ code < 0x020 + 44 then some (if code % 2 = 0 then 1 else 2, 0)
  else (namedEvents.find? (fun e => e.1 == code)).map (fun e => e.2)

/-- The block page an event belongs to (R498, R499, R501). -/
def eventPage (code : Nat) : Nat :=
  if code < 24 then code
  else if code < 0x080 then nthD memoryBlock ((code - 0x020) / 2) 0
  else (code - 0x080) / 8

/-- The subsystem of a block page (Table FLT-4): 0 ROOT, 1 TIME, 2 ROPE, 3 LANES, 4 FRAME, 5 SECURE, 6 BELAY,
7 CONTROL. -/
def pageSubsystem (pg : Nat) : Nat :=
  nthD [7, 7, 7, 7, 5, 7, 1, 1, 1, 1, 0, 1, 1, 2, 3, 3, 4, 4, 4, 7, 7, 6, 7, 5] pg 7

/-- The subsystems a subsystem depends on, directly and through others (Table FLT-4, R511). -/
def dependsOn : Nat → List Nat
  | 1 => [0]
  | 2 => [0]
  | 3 => [0]
  | 6 => [2, 4, 0]
  | _ => []

/-- The word of FLT_REACT_e before an image writes it: the default reaction, the class and the present bit
(R501, R513). -/
def reactWord (code : Nat) : Nat :=
  match eventInfo code with
  | some (cls, r) => r + 16 * cls + 128
  | none => 0

end Sys2Proof.Machine
end

