-- ==== Sys2Proof/Machine/RegTypes.lean ====
section
/-! DEFINITION. The shape of a register table row: the Type, Reset, Upd and Keep codes of R9, R12, R13 and
R15, and the reference to a field of a register by address, lowest bit and width. -/

namespace Sys2Proof.Machine

/-- The Type codes of Table TOP-4 of About this manual (R9). -/
inductive FType where
  | rw | ro | rc | w1c | w1s | wo | wl
  deriving DecidableEq, Repr

/-- The Upd codes of Table TOP-5 (R9, R12): immediate, buffered, buffered and armable. -/
inductive Upd where
  | i | s | t
  deriving DecidableEq, Repr

/-- The Keep codes of Table TOP-6 (R13): the deepest reset a field survives is cold (`a`), warm (`w`),
host (`h`) or none (`n`). -/
inductive Keep where
  | a | w | h | n
  deriving DecidableEq, Repr

/-- The Reset column (R15): a number, one number per instance, or a value taken from the structure image,
the fuses or the MRAM. -/
inductive Rst where
  | num (v : Nat)
  | nums (vs : List Nat)
  | img
  | otp
  | mram
  deriving DecidableEq, Repr

/-- The blocks of Table TOP-3 of About this manual, in the order of their pages (R7). -/
inductive Block where
  | TOP | IMG | HIF | PWR | SEC | FLT | TBS | TDC | DPL | REF | SYN | OUT | PHX | RLK | HSL | MAC | FWD | BPM | QSC
  | CNT | CRG | RDN | TST | MSC
  deriving DecidableEq, Repr

/-- What the first index of a register counts, as far as R33 places instances by it. -/
inductive IndexKind where
  | none | port | lane | cluster | link
  deriving DecidableEq, Repr

/-- One named field of a register table. Bits no row names are reserved. -/
structure FieldRow where
  lsb : Nat
  width : Nat
  ty : FType
  rst : Rst
  upd : Upd
  keep : Keep
  deriving DecidableEq, Repr

/-- One register of a block page: its offset, the count and stride of its one or two indices, what the first
index counts, and its fields. -/
structure RegRow where
  off : Nat
  count1 : Nat
  stride1 : Nat
  count2 : Nat
  stride2 : Nat
  kind : IndexKind
  fields : List FieldRow
  deriving DecidableEq, Repr

/-- A field of a register: the register's CSR address, the field's lowest bit and its width. -/
structure Fld where
  addr : Nat
  lsb : Nat
  width : Nat
  deriving DecidableEq, Repr

end Sys2Proof.Machine
end

