-- ==== Sys2Proof/Machine/RegMap.lean ====
section
/-! DEFINITION. The register map: the CSR address of every register (`R.<REGISTER>`, the instance
letter of its name turned into an argument) and the place of every field (`F.<REGISTER>_<field>`), from the
register tables of the chapters (R4, R60, R81, R115, R141, R142, R173, R212, R239, R266, R304, R305, R328,
R356, R357, R379, R403, R404, R434, R456, R457, R472, R493, R494, R495, R513). -/

namespace Sys2Proof.Machine

/-- TOP_ID (R4). -/
abbrev R.TOP_ID : Nat := 0x00000000
/-- IMG_CTRL (R60). -/
abbrev R.IMG_CTRL : Nat := 0x00010000
/-- IMG_STATUS (R60). -/
abbrev R.IMG_STATUS : Nat := 0x00010004
/-- IMG_EVENT (R60). -/
abbrev R.IMG_EVENT : Nat := 0x00010008
/-- IMG_LEN (R60). -/
abbrev R.IMG_LEN : Nat := 0x0001000C
/-- IMG_VERSION (R60). -/
abbrev R.IMG_VERSION : Nat := 0x00010010
/-- IMG_SEC_VERSION (R60). -/
abbrev R.IMG_SEC_VERSION : Nat := 0x00010014
/-- IMG_PRESENT (R60). -/
abbrev R.IMG_PRESENT : Nat := 0x00010018
/-- IMG_REGIONS (R60). -/
abbrev R.IMG_REGIONS : Nat := 0x0001001C
/-- IMG_PR_DRAIN (R60). -/
abbrev R.IMG_PR_DRAIN : Nat := 0x00010020
/-- IMG_ABSENT_ADDR (R60). -/
abbrev R.IMG_ABSENT_ADDR : Nat := 0x00010024
/-- IMG_ABSENT_CNT (R60). -/
abbrev R.IMG_ABSENT_CNT : Nat := 0x00010028
/-- IMG_HASH (R60). -/
abbrev R.IMG_HASH (i : Nat) : Nat := 0x00010040 + 4 * i
/-- IMG_GROUP_VER (R60). -/
abbrev R.IMG_GROUP_VER (i : Nat) : Nat := 0x00010080 + 4 * i
/-- TOP_READY (R81). -/
abbrev R.TOP_READY : Nat := 0x00000004
/-- TOP_READY_PORT_0 (R81). -/
abbrev R.TOP_READY_PORT_0 : Nat := 0x00000008
/-- TOP_READY_PORT_1 (R81). -/
abbrev R.TOP_READY_PORT_1 : Nat := 0x0000000C
/-- TOP_READY_VPORT (R81). -/
abbrev R.TOP_READY_VPORT : Nat := 0x00000010
/-- TOP_RST_CTRL (R81). -/
abbrev R.TOP_RST_CTRL : Nat := 0x00000020
/-- TOP_BLK_RST (R81). -/
abbrev R.TOP_BLK_RST : Nat := 0x00000024
/-- TOP_PORT_RST_0 (R81). -/
abbrev R.TOP_PORT_RST_0 : Nat := 0x00000028
/-- TOP_PORT_RST_1 (R81). -/
abbrev R.TOP_PORT_RST_1 : Nat := 0x0000002C
/-- TOP_RST_CAUSE (R81). -/
abbrev R.TOP_RST_CAUSE : Nat := 0x00000030
/-- TOP_WDOG_CTRL (R81). -/
abbrev R.TOP_WDOG_CTRL : Nat := 0x00000040
/-- TOP_WDOG_KICK (R81). -/
abbrev R.TOP_WDOG_KICK : Nat := 0x00000044
/-- TOP_WDOG_COUNT (R81). -/
abbrev R.TOP_WDOG_COUNT : Nat := 0x00000048
/-- TOP_EVENT (R81). -/
abbrev R.TOP_EVENT : Nat := 0x00000050
/-- TOP_EVENT_EN (R81). -/
abbrev R.TOP_EVENT_EN : Nat := 0x00000054
/-- HIF_CTRL (R115). -/
abbrev R.HIF_CTRL : Nat := 0x00020000
/-- HIF_ACC_ERR (R115). -/
abbrev R.HIF_ACC_ERR : Nat := 0x00020004
/-- HIF_ACC_ADDR (R115). -/
abbrev R.HIF_ACC_ADDR : Nat := 0x00020008
/-- HIF_ACC_CNT (R115). -/
abbrev R.HIF_ACC_CNT : Nat := 0x0002000C
/-- HIF_UG_STROBE (R115). -/
abbrev R.HIF_UG_STROBE : Nat := 0x00020010
/-- HIF_UG_PEND (R115). -/
abbrev R.HIF_UG_PEND : Nat := 0x00020014
/-- HIF_SUBSYS (R115). -/
abbrev R.HIF_SUBSYS : Nat := 0x00020018
/-- HIF_ARM_CTRL_k (R115). -/
abbrev R.HIF_ARM_CTRL (i : Nat) : Nat := 0x00020020 + 16 * i
/-- HIF_ARM_SEC_LO_k (R115). -/
abbrev R.HIF_ARM_SEC_LO (i : Nat) : Nat := 0x00020024 + 16 * i
/-- HIF_ARM_SEC_HI_k (R115). -/
abbrev R.HIF_ARM_SEC_HI (i : Nat) : Nat := 0x00020028 + 16 * i
/-- HIF_ARM_NS_k (R115). -/
abbrev R.HIF_ARM_NS (i : Nat) : Nat := 0x0002002C + 16 * i
/-- HIF_PAR_ADDR (R115). -/
abbrev R.HIF_PAR_ADDR : Nat := 0x00020060
/-- HIF_PAR_CNT (R115). -/
abbrev R.HIF_PAR_CNT : Nat := 0x00020064
/-- HIF_SCRUB_PASS (R115). -/
abbrev R.HIF_SCRUB_PASS : Nat := 0x00020068
/-- HIF_EVENT (R115). -/
abbrev R.HIF_EVENT : Nat := 0x00020070
/-- HIF_EVENT_EN (R115). -/
abbrev R.HIF_EVENT_EN : Nat := 0x00020074
/-- HIF_VEC_MAP_s (R115). -/
abbrev R.HIF_VEC_MAP (i : Nat) : Nat := 0x00020100 + 4 * i
/-- HIF_VEC_EOI_0 (R115). -/
abbrev R.HIF_VEC_EOI_0 : Nat := 0x00020200
/-- HIF_VEC_EOI_1 (R115). -/
abbrev R.HIF_VEC_EOI_1 : Nat := 0x00020204
/-- HIF_SRC_LEVEL_0 (R115). -/
abbrev R.HIF_SRC_LEVEL_0 : Nat := 0x00020210
/-- HIF_SRC_LEVEL_1 (R115). -/
abbrev R.HIF_SRC_LEVEL_1 : Nat := 0x00020214
/-- HIF_INTN_EN_0 (R115). -/
abbrev R.HIF_INTN_EN_0 : Nat := 0x00020220
/-- HIF_INTN_EN_1 (R115). -/
abbrev R.HIF_INTN_EN_1 : Nat := 0x00020224
/-- HIF_TXR_n_BASE_LO (R115). -/
abbrev R.HIF_TXR_BASE_LO (i : Nat) : Nat := 0x00020400 + 32 * i
/-- HIF_TXR_n_BASE_HI (R115). -/
abbrev R.HIF_TXR_BASE_HI (i : Nat) : Nat := 0x00020404 + 32 * i
/-- HIF_TXR_n_SIZE (R115). -/
abbrev R.HIF_TXR_SIZE (i : Nat) : Nat := 0x00020408 + 32 * i
/-- HIF_TXR_n_HEAD (R115). -/
abbrev R.HIF_TXR_HEAD (i : Nat) : Nat := 0x0002040C + 32 * i
/-- HIF_TXR_n_TAIL (R115). -/
abbrev R.HIF_TXR_TAIL (i : Nat) : Nat := 0x00020410 + 32 * i
/-- HSL_CFG_l (R141). -/
abbrev R.HSL_CFG (i : Nat) : Nat := 0x000E0000 + 256 * i
/-- HSL_CTRL_l (R141). -/
abbrev R.HSL_CTRL (i : Nat) : Nat := 0x000E0004 + 256 * i
/-- HSL_STATUS_l (R141). -/
abbrev R.HSL_STATUS (i : Nat) : Nat := 0x000E0008 + 256 * i
/-- HSL_RX_ALIGN_l (R141). -/
abbrev R.HSL_RX_ALIGN (i : Nat) : Nat := 0x000E000C + 256 * i
/-- HSL_TX_ALIGN_l (R141). -/
abbrev R.HSL_TX_ALIGN (i : Nat) : Nat := 0x000E0010 + 256 * i
/-- HSL_PRBS_CTRL_l (R141). -/
abbrev R.HSL_PRBS_CTRL (i : Nat) : Nat := 0x000E0020 + 256 * i
/-- HSL_PRBS_ERR_LO_l (R141). -/
abbrev R.HSL_PRBS_ERR_LO (i : Nat) : Nat := 0x000E0024 + 256 * i
/-- HSL_PRBS_ERR_HI_l (R141). -/
abbrev R.HSL_PRBS_ERR_HI (i : Nat) : Nat := 0x000E0028 + 256 * i
/-- HSL_EVENT_l (R141). -/
abbrev R.HSL_EVENT (i : Nat) : Nat := 0x000E0030 + 256 * i
/-- HSL_EVENT_EN_l (R141). -/
abbrev R.HSL_EVENT_EN (i : Nat) : Nat := 0x000E0034 + 256 * i
/-- MAC_CFG_p (R142). -/
abbrev R.MAC_CFG (i : Nat) : Nat := 0x000F0000 + 256 * i
/-- MAC_MAXFRAME_p (R142). -/
abbrev R.MAC_MAXFRAME (i : Nat) : Nat := 0x000F0004 + 256 * i
/-- MAC_STATUS_p (R142). -/
abbrev R.MAC_STATUS (i : Nat) : Nat := 0x000F0008 + 256 * i
/-- MAC_AN_ADV_p (R142). -/
abbrev R.MAC_AN_ADV (i : Nat) : Nat := 0x000F000C + 256 * i
/-- MAC_AN_LP_p (R142). -/
abbrev R.MAC_AN_LP (i : Nat) : Nat := 0x000F0010 + 256 * i
/-- MAC_RX_RESID_p (R142). -/
abbrev R.MAC_RX_RESID (i : Nat) : Nat := 0x000F0014 + 256 * i
/-- MAC_TX_RESID_p (R142). -/
abbrev R.MAC_TX_RESID (i : Nat) : Nat := 0x000F0018 + 256 * i
/-- MAC_EVENT_p (R142). -/
abbrev R.MAC_EVENT (i : Nat) : Nat := 0x000F0020 + 256 * i
/-- MAC_EVENT_EN_p (R142). -/
abbrev R.MAC_EVENT_EN (i : Nat) : Nat := 0x000F0024 + 256 * i
/-- RLK_CFG_n (R173). -/
abbrev R.RLK_CFG (i : Nat) : Nat := 0x000D0000 + 256 * i
/-- RLK_CTRL_n (R173). -/
abbrev R.RLK_CTRL (i : Nat) : Nat := 0x000D0004 + 256 * i
/-- RLK_STATUS_n (R173). -/
abbrev R.RLK_STATUS (i : Nat) : Nat := 0x000D0008 + 256 * i
/-- RLK_OFFSET_n (R173). -/
abbrev R.RLK_OFFSET (i : Nat) : Nat := 0x000D000C + 256 * i
/-- RLK_RX_FILL_n (R173). -/
abbrev R.RLK_RX_FILL (i : Nat) : Nat := 0x000D0010 + 256 * i
/-- RLK_PARTNER_CAP_n (R173). -/
abbrev R.RLK_PARTNER_CAP (i : Nat) : Nat := 0x000D0014 + 256 * i
/-- RLK_PARTNER_ID_HI_n (R173). -/
abbrev R.RLK_PARTNER_ID_HI (i : Nat) : Nat := 0x000D0018 + 256 * i
/-- RLK_PARTNER_ID_LO_n (R173). -/
abbrev R.RLK_PARTNER_ID_LO (i : Nat) : Nat := 0x000D001C + 256 * i
/-- RLK_EVENT_n (R173). -/
abbrev R.RLK_EVENT (i : Nat) : Nat := 0x000D0020 + 256 * i
/-- RLK_EVENT_EN_n (R173). -/
abbrev R.RLK_EVENT_EN (i : Nat) : Nat := 0x000D0024 + 256 * i
/-- RLK_CW_ERR_n (R173). -/
abbrev R.RLK_CW_ERR (i : Nat) : Nat := 0x000D0028 + 256 * i
/-- RLK_CODE_ERR_n (R173). -/
abbrev R.RLK_CODE_ERR (i : Nat) : Nat := 0x000D002C + 256 * i
/-- RLK_FILL_EVT_n (R173). -/
abbrev R.RLK_FILL_EVT (i : Nat) : Nat := 0x000D0030 + 256 * i
/-- RLK_MGT_TX_n (R173). -/
abbrev R.RLK_MGT_TX (i : Nat) : Nat := 0x000D0034 + 256 * i
/-- RLK_MGT_RX_n (R173). -/
abbrev R.RLK_MGT_RX (i : Nat) : Nat := 0x000D0038 + 256 * i
/-- RLK_MGT_DROP_n (R173). -/
abbrev R.RLK_MGT_DROP (i : Nat) : Nat := 0x000D003C + 256 * i
/-- RLK_TUN_MAX_n (R173). -/
abbrev R.RLK_TUN_MAX (i : Nat) : Nat := 0x000D0040 + 256 * i
/-- RLK_PARTNER_TS_n (R173). -/
abbrev R.RLK_PARTNER_TS (i : Nat) : Nat := 0x000D0044 + 256 * i
/-- RLK_SRC_ID_HI (R173). -/
abbrev R.RLK_SRC_ID_HI : Nat := 0x000D1000
/-- RLK_SRC_ID_LO (R173). -/
abbrev R.RLK_SRC_ID_LO : Nat := 0x000D1004
/-- RLK_JUMP_TH (R173). -/
abbrev R.RLK_JUMP_TH : Nat := 0x000D1008
/-- RLK_UTC (R173). -/
abbrev R.RLK_UTC : Nat := 0x000D100C
/-- FWD_HASH_SEED (R212). -/
abbrev R.FWD_HASH_SEED : Nat := 0x00100000
/-- FWD_PART_EM_t (R212). -/
abbrev R.FWD_PART_EM (i : Nat) : Nat := 0x00100010 + 4 * i
/-- FWD_PART_TC_t (R212). -/
abbrev R.FWD_PART_TC (i : Nat) : Nat := 0x00100020 + 4 * i
/-- FWD_ECPRI_UDP (R212). -/
abbrev R.FWD_ECPRI_UDP : Nat := 0x00100030
/-- FWD_EVENT (R212). -/
abbrev R.FWD_EVENT : Nat := 0x00100040
/-- FWD_EVENT_EN (R212). -/
abbrev R.FWD_EVENT_EN : Nat := 0x00100044
/-- FWD_DUP_IDX (R212). -/
abbrev R.FWD_DUP_IDX : Nat := 0x00100048
/-- FWD_PORT_CFG_p (R212). -/
abbrev R.FWD_PORT_CFG (i : Nat) : Nat := 0x00101000 + 64 * i
/-- FWD_PORT_MISS_p (R212). -/
abbrev R.FWD_PORT_MISS (i : Nat) : Nat := 0x00101004 + 64 * i
/-- FWD_PORT_HDR_DROP_p (R212). -/
abbrev R.FWD_PORT_HDR_DROP (i : Nat) : Nat := 0x00101008 + 64 * i
/-- FWD_PORT_HDR_DEPTH_p (R212). -/
abbrev R.FWD_PORT_HDR_DEPTH (i : Nat) : Nat := 0x0010100C + 64 * i
/-- FWD_CL_CFG_k (R212). -/
abbrev R.FWD_CL_CFG (i : Nat) : Nat := 0x00103000 + 256 * i
/-- FWD_STEAL_CFG_k (R212). -/
abbrev R.FWD_STEAL_CFG (i : Nat) : Nat := 0x00103004 + 256 * i
/-- FWD_ENG_CTRL_k (R212). -/
abbrev R.FWD_ENG_CTRL (i : Nat) : Nat := 0x00103008 + 256 * i
/-- FWD_ENG_STATUS_k (R212). -/
abbrev R.FWD_ENG_STATUS (i : Nat) : Nat := 0x0010300C + 256 * i
/-- FWD_ENG_DEPTH_k_j (R212). -/
abbrev R.FWD_ENG_DEPTH (i : Nat) (j : Nat) : Nat := 0x00103010 + 256 * i + 4 * j
/-- FWD_CL_STEALS_k (R212). -/
abbrev R.FWD_CL_STEALS (i : Nat) : Nat := 0x00103020 + 256 * i
/-- FWD_CL_BORROW_k (R212). -/
abbrev R.FWD_CL_BORROW (i : Nat) : Nat := 0x00103024 + 256 * i
/-- BPM_POOL_BASE_k (R239). -/
abbrev R.BPM_POOL_BASE (i : Nat) : Nat := 0x00110000 + 16 * i
/-- BPM_POOL_CFG_k (R239). -/
abbrev R.BPM_POOL_CFG (i : Nat) : Nat := 0x00110004 + 16 * i
/-- BPM_POOL_FREE_k (R239). -/
abbrev R.BPM_POOL_FREE (i : Nat) : Nat := 0x00110008 + 16 * i
/-- BPM_POOL_LOW_k (R239). -/
abbrev R.BPM_POOL_LOW (i : Nat) : Nat := 0x0011000C + 16 * i
/-- BPM_POOL_MIN_k (R239). -/
abbrev R.BPM_POOL_MIN (i : Nat) : Nat := 0x00110040 + 4 * i
/-- BPM_EVENT (R239). -/
abbrev R.BPM_EVENT : Nat := 0x00110050
/-- BPM_EVENT_EN (R239). -/
abbrev R.BPM_EVENT_EN : Nat := 0x00110054
/-- BPM_BAD_FREE (R239). -/
abbrev R.BPM_BAD_FREE : Nat := 0x00110058
/-- BPM_BAD_FREE_CNT (R239). -/
abbrev R.BPM_BAD_FREE_CNT : Nat := 0x0011005C
/-- BPM_HOST_FREE (R239). -/
abbrev R.BPM_HOST_FREE : Nat := 0x00110060
/-- BPM_MEM_CORR_CNT (R239). -/
abbrev R.BPM_MEM_CORR_CNT : Nat := 0x00110064
/-- BPM_MEM_UNCORR_CELL (R239). -/
abbrev R.BPM_MEM_UNCORR_CELL : Nat := 0x00110068
/-- BPM_QLIM_p_c (R239). -/
abbrev R.BPM_QLIM (i : Nat) (j : Nat) : Nat := 0x00111000 + 64 * i + 4 * j
/-- BPM_QMARK_p_c (R239). -/
abbrev R.BPM_QMARK (i : Nat) (j : Nat) : Nat := 0x00111020 + 64 * i + 4 * j
/-- BPM_PCLASS_p (R239). -/
abbrev R.BPM_PCLASS (i : Nat) : Nat := 0x00112800 + 4 * i
/-- BPM_QCELLS_p_c (R239). -/
abbrev R.BPM_QCELLS (i : Nat) (j : Nat) : Nat := 0x00113000 + 32 * i + 4 * j
/-- QSC_SK_CTRL (R266). -/
abbrev R.QSC_SK_CTRL : Nat := 0x00120000
/-- QSC_SK_EVENT (R266). -/
abbrev R.QSC_SK_EVENT : Nat := 0x00120004
/-- QSC_SK_EVENT_EN (R266). -/
abbrev R.QSC_SK_EVENT_EN : Nat := 0x00120008
/-- QSC_SK_LAST (R266). -/
abbrev R.QSC_SK_LAST : Nat := 0x0012000C
/-- QSC_SK_FILLING (R266). -/
abbrev R.QSC_SK_FILLING : Nat := 0x00120010
/-- QSC_SCHED_p (R266). -/
abbrev R.QSC_SCHED (i : Nat) : Nat := 0x00121000 + 256 * i
/-- QSC_DWRR_p_q (R266). -/
abbrev R.QSC_DWRR (i : Nat) (j : Nat) : Nat := 0x00121004 + 256 * i + 4 * j
/-- QSC_FWD_MODE_p (R266). -/
abbrev R.QSC_FWD_MODE (i : Nat) : Nat := 0x00121024 + 256 * i
/-- QSC_PREEMPT_p (R266). -/
abbrev R.QSC_PREEMPT (i : Nat) : Nat := 0x00121028 + 256 * i
/-- QSC_GCL_CTRL_p (R266). -/
abbrev R.QSC_GCL_CTRL (i : Nat) : Nat := 0x00121030 + 256 * i
/-- QSC_GCL_BASE_SEC_LO_p (R266). -/
abbrev R.QSC_GCL_BASE_SEC_LO (i : Nat) : Nat := 0x00121034 + 256 * i
/-- QSC_GCL_BASE_SEC_HI_p (R266). -/
abbrev R.QSC_GCL_BASE_SEC_HI (i : Nat) : Nat := 0x00121038 + 256 * i
/-- QSC_GCL_BASE_NS_p (R266). -/
abbrev R.QSC_GCL_BASE_NS (i : Nat) : Nat := 0x0012103C + 256 * i
/-- QSC_GCL_CYCLE_p (R266). -/
abbrev R.QSC_GCL_CYCLE (i : Nat) : Nat := 0x00121040 + 256 * i
/-- QSC_GCL_STATUS_p (R266). -/
abbrev R.QSC_GCL_STATUS (i : Nat) : Nat := 0x00121044 + 256 * i
/-- QSC_LAUNCH_p (R266). -/
abbrev R.QSC_LAUNCH (i : Nat) : Nat := 0x00121048 + 256 * i
/-- QSC_FLUSH_p (R266). -/
abbrev R.QSC_FLUSH (i : Nat) : Nat := 0x0012104C + 256 * i
/-- QSC_EVENT_p (R266). -/
abbrev R.QSC_EVENT (i : Nat) : Nat := 0x00121050 + 256 * i
/-- QSC_EVENT_EN_p (R266). -/
abbrev R.QSC_EVENT_EN (i : Nat) : Nat := 0x00121054 + 256 * i
/-- QSC_STOMP_p (R266). -/
abbrev R.QSC_STOMP (i : Nat) : Nat := 0x00121058 + 256 * i
/-- QSC_QFRAMES_p_q (R266). -/
abbrev R.QSC_QFRAMES (i : Nat) (j : Nat) : Nat := 0x00121060 + 256 * i + 4 * j
/-- TBS_CTRL (R304). -/
abbrev R.TBS_CTRL : Nat := 0x00060000
/-- TBS_STATUS (R304). -/
abbrev R.TBS_STATUS : Nat := 0x00060004
/-- TBS_SNAP (R304). -/
abbrev R.TBS_SNAP : Nat := 0x00060008
/-- TBS_SNAP_FRAC (R304). -/
abbrev R.TBS_SNAP_FRAC : Nat := 0x0006000C
/-- TBS_SNAP_NS (R304). -/
abbrev R.TBS_SNAP_NS : Nat := 0x00060010
/-- TBS_SNAP_SEC_LO (R304). -/
abbrev R.TBS_SNAP_SEC_LO : Nat := 0x00060014
/-- TBS_SNAP_SEC_HI (R304). -/
abbrev R.TBS_SNAP_SEC_HI : Nat := 0x00060018
/-- TBS_ADJ_CTRL (R304). -/
abbrev R.TBS_ADJ_CTRL : Nat := 0x00060020
/-- TBS_ADJ_FRAC (R304). -/
abbrev R.TBS_ADJ_FRAC : Nat := 0x00060024
/-- TBS_ADJ_NS (R304). -/
abbrev R.TBS_ADJ_NS : Nat := 0x00060028
/-- TBS_ADJ_SEC_LO (R304). -/
abbrev R.TBS_ADJ_SEC_LO : Nat := 0x0006002C
/-- TBS_ADJ_SEC_HI (R304). -/
abbrev R.TBS_ADJ_SEC_HI : Nat := 0x00060030
/-- TBS_SLEW_RATE (R304). -/
abbrev R.TBS_SLEW_RATE : Nat := 0x00060034
/-- TBS_SLEW_LEFT (R304). -/
abbrev R.TBS_SLEW_LEFT : Nat := 0x00060038
/-- TBS_AGE_RATE (R304). -/
abbrev R.TBS_AGE_RATE : Nat := 0x0006003C
/-- TBS_FF (R304). -/
abbrev R.TBS_FF : Nat := 0x00060040
/-- TBS_AGE_ACC (R304). -/
abbrev R.TBS_AGE_ACC : Nat := 0x00060044
/-- TBS_EVENT (R304). -/
abbrev R.TBS_EVENT : Nat := 0x00060050
/-- TBS_EVENT_EN (R304). -/
abbrev R.TBS_EVENT_EN : Nat := 0x00060054
/-- TBS_TXQ_E0 (R304). -/
abbrev R.TBS_TXQ_E0 : Nat := 0x00060060
/-- TBS_TXQ_E1 (R304). -/
abbrev R.TBS_TXQ_E1 : Nat := 0x00060064
/-- TBS_TXQ_E2 (R304). -/
abbrev R.TBS_TXQ_E2 : Nat := 0x00060068
/-- TBS_TXQ_E3 (R304). -/
abbrev R.TBS_TXQ_E3 : Nat := 0x0006006C
/-- TBS_TXQ_POP (R304). -/
abbrev R.TBS_TXQ_POP : Nat := 0x00060070
/-- TBS_TXQ_COUNT (R304). -/
abbrev R.TBS_TXQ_COUNT : Nat := 0x00060074
/-- TBS_PTP_CFG_p (R304). -/
abbrev R.TBS_PTP_CFG (i : Nat) : Nat := 0x00061000 + 64 * i
/-- TBS_RX_ADJ_p (R304). -/
abbrev R.TBS_RX_ADJ (i : Nat) : Nat := 0x00061004 + 64 * i
/-- TBS_TX_ADJ_p (R304). -/
abbrev R.TBS_TX_ADJ (i : Nat) : Nat := 0x00061008 + 64 * i
/-- TBS_P2P_DELAY_p (R304). -/
abbrev R.TBS_P2P_DELAY (i : Nat) : Nat := 0x0006100C + 64 * i
/-- TBS_RX_FIXED_p (R304). -/
abbrev R.TBS_RX_FIXED (i : Nat) : Nat := 0x00061010 + 64 * i
/-- TBS_TX_FIXED_p (R304). -/
abbrev R.TBS_TX_FIXED (i : Nat) : Nat := 0x00061014 + 64 * i
/-- TBS_TXQ_QUOTA_p (R304). -/
abbrev R.TBS_TXQ_QUOTA (i : Nat) : Nat := 0x00061018 + 64 * i
/-- TBS_TXQ_DROP_p (R304). -/
abbrev R.TBS_TXQ_DROP (i : Nat) : Nat := 0x0006101C + 64 * i
/-- TBS_TXQ_DROP_CNT_p (R304). -/
abbrev R.TBS_TXQ_DROP_CNT (i : Nat) : Nat := 0x00061020 + 64 * i
/-- TDC_CFG_c (R305). -/
abbrev R.TDC_CFG (i : Nat) : Nat := 0x00070000 + 64 * i
/-- TDC_STATUS_c (R305). -/
abbrev R.TDC_STATUS (i : Nat) : Nat := 0x00070004 + 64 * i
/-- TDC_RES_LO_c (R305). -/
abbrev R.TDC_RES_LO (i : Nat) : Nat := 0x00070008 + 64 * i
/-- TDC_RES_HI_c (R305). -/
abbrev R.TDC_RES_HI (i : Nat) : Nat := 0x0007000C + 64 * i
/-- TDC_RES_CNT_c (R305). -/
abbrev R.TDC_RES_CNT (i : Nat) : Nat := 0x00070010 + 64 * i
/-- TDC_SKIP_CNT_c (R305). -/
abbrev R.TDC_SKIP_CNT (i : Nat) : Nat := 0x00070014 + 64 * i
/-- TDC_RETRY_CNT_c (R305). -/
abbrev R.TDC_RETRY_CNT (i : Nat) : Nat := 0x00070018 + 64 * i
/-- TDC_CAL_c (R305). -/
abbrev R.TDC_CAL (i : Nat) : Nat := 0x0007001C + 64 * i
/-- TDC_TRIM_c (R305). -/
abbrev R.TDC_TRIM (i : Nat) : Nat := 0x00070020 + 64 * i
/-- TDC_TRIM_CM_LO_c (R305). -/
abbrev R.TDC_TRIM_CM_LO (i : Nat) : Nat := 0x00070024 + 64 * i
/-- TDC_TRIM_CM_HI_c (R305). -/
abbrev R.TDC_TRIM_CM_HI (i : Nat) : Nat := 0x00070028 + 64 * i
/-- TDC_TRIM_VM_c (R305). -/
abbrev R.TDC_TRIM_VM (i : Nat) : Nat := 0x0007002C + 64 * i
/-- TDC_TRIM_REQ_i (R305). -/
abbrev R.TDC_TRIM_REQ (i : Nat) : Nat := 0x00072000 + 4 * i
/-- TDC_FAULT_i (R305). -/
abbrev R.TDC_FAULT (i : Nat) : Nat := 0x00072010 + 4 * i
/-- TDC_EVENT (R305). -/
abbrev R.TDC_EVENT : Nat := 0x00072020
/-- TDC_EVENT_EN (R305). -/
abbrev R.TDC_EVENT_EN : Nat := 0x00072024
/-- TDC_LAST_CH (R305). -/
abbrev R.TDC_LAST_CH : Nat := 0x00072028
/-- PHX_CTRL (R328). -/
abbrev R.PHX_CTRL : Nat := 0x000C0000
/-- PHX_SA_HI (R328). -/
abbrev R.PHX_SA_HI : Nat := 0x000C0004
/-- PHX_SA_LO (R328). -/
abbrev R.PHX_SA_LO : Nat := 0x000C0008
/-- PHX_CAL_CTRL (R328). -/
abbrev R.PHX_CAL_CTRL : Nat := 0x000C0010
/-- PHX_CAL_LEN (R328). -/
abbrev R.PHX_CAL_LEN : Nat := 0x000C0014
/-- PHX_CAL_CABLE (R328). -/
abbrev R.PHX_CAL_CABLE : Nat := 0x000C0018
/-- PHX_CAL_STATUS (R328). -/
abbrev R.PHX_CAL_STATUS : Nat := 0x000C001C
/-- PHX_CAL_ERR_LO (R328). -/
abbrev R.PHX_CAL_ERR_LO : Nat := 0x000C0020
/-- PHX_CAL_ERR_HI (R328). -/
abbrev R.PHX_CAL_ERR_HI : Nat := 0x000C0024
/-- PHX_CAL_RESULT (R328). -/
abbrev R.PHX_CAL_RESULT : Nat := 0x000C0028
/-- PHX_EVENT (R328). -/
abbrev R.PHX_EVENT : Nat := 0x000C0030
/-- PHX_EVENT_EN (R328). -/
abbrev R.PHX_EVENT_EN : Nat := 0x000C0034
/-- PHX_CFG_k (R328). -/
abbrev R.PHX_CFG (i : Nat) : Nat := 0x000C1000 + 128 * i
/-- PHX_ASYM_k (R328). -/
abbrev R.PHX_ASYM (i : Nat) : Nat := 0x000C1004 + 128 * i
/-- PHX_ASYM_FIX_k (R328). -/
abbrev R.PHX_ASYM_FIX (i : Nat) : Nat := 0x000C1008 + 128 * i
/-- PHX_STATUS_k (R328). -/
abbrev R.PHX_STATUS (i : Nat) : Nat := 0x000C100C + 128 * i
/-- PHX_RTT_LO_k (R328). -/
abbrev R.PHX_RTT_LO (i : Nat) : Nat := 0x000C1010 + 128 * i
/-- PHX_RTT_HI_k (R328). -/
abbrev R.PHX_RTT_HI (i : Nat) : Nat := 0x000C1014 + 128 * i
/-- PHX_DELAY_LO_k (R328). -/
abbrev R.PHX_DELAY_LO (i : Nat) : Nat := 0x000C1018 + 128 * i
/-- PHX_DELAY_HI_k (R328). -/
abbrev R.PHX_DELAY_HI (i : Nat) : Nat := 0x000C101C + 128 * i
/-- PHX_OFFSET_LO_k (R328). -/
abbrev R.PHX_OFFSET_LO (i : Nat) : Nat := 0x000C1020 + 128 * i
/-- PHX_OFFSET_HI_k (R328). -/
abbrev R.PHX_OFFSET_HI (i : Nat) : Nat := 0x000C1024 + 128 * i
/-- PHX_FREQ_k (R328). -/
abbrev R.PHX_FREQ (i : Nat) : Nat := 0x000C1028 + 128 * i
/-- PHX_GRID_k (R328). -/
abbrev R.PHX_GRID (i : Nat) : Nat := 0x000C102C + 128 * i
/-- PHX_PARTNER_GRID_k (R328). -/
abbrev R.PHX_PARTNER_GRID (i : Nat) : Nat := 0x000C1030 + 128 * i
/-- PHX_PARTNER_ID_HI_k (R328). -/
abbrev R.PHX_PARTNER_ID_HI (i : Nat) : Nat := 0x000C1034 + 128 * i
/-- PHX_PARTNER_ID_LO_k (R328). -/
abbrev R.PHX_PARTNER_ID_LO (i : Nat) : Nat := 0x000C1038 + 128 * i
/-- PHX_PARTNER_ASYM_k (R328). -/
abbrev R.PHX_PARTNER_ASYM (i : Nat) : Nat := 0x000C103C + 128 * i
/-- PHX_RPT_CNT_k (R328). -/
abbrev R.PHX_RPT_CNT (i : Nat) : Nat := 0x000C1040 + 128 * i
/-- PHX_RPT_ERR_k (R328). -/
abbrev R.PHX_RPT_ERR (i : Nat) : Nat := 0x000C1044 + 128 * i
/-- PHX_AMBIG_k (R328). -/
abbrev R.PHX_AMBIG (i : Nat) : Nat := 0x000C1048 + 128 * i
/-- PHX_JUMP_CNT_k (R328). -/
abbrev R.PHX_JUMP_CNT (i : Nat) : Nat := 0x000C104C + 128 * i
/-- PHX_EVENT_k (R328). -/
abbrev R.PHX_EVENT_k (i : Nat) : Nat := 0x000C1050 + 128 * i
/-- PHX_EVENT_EN_k (R328). -/
abbrev R.PHX_EVENT_EN_k (i : Nat) : Nat := 0x000C1054 + 128 * i
/-- REF_CTRL (R356). -/
abbrev R.REF_CTRL : Nat := 0x00090000
/-- REF_AUTO_TIME (R356). -/
abbrev R.REF_AUTO_TIME : Nat := 0x00090004
/-- REF_DIS_LIMIT (R356). -/
abbrev R.REF_DIS_LIMIT : Nat := 0x00090008
/-- REF_FORCE (R356). -/
abbrev R.REF_FORCE : Nat := 0x0009000C
/-- REF_EVENT (R356). -/
abbrev R.REF_EVENT : Nat := 0x00090010
/-- REF_EVENT_EN (R356). -/
abbrev R.REF_EVENT_EN : Nat := 0x00090014
/-- REF_LAST_SLOT (R356). -/
abbrev R.REF_LAST_SLOT : Nat := 0x00090018
/-- REF_QUAL (R356). -/
abbrev R.REF_QUAL : Nat := 0x0009001C
/-- REF_DISAGREE (R356). -/
abbrev R.REF_DISAGREE : Nat := 0x00090020
/-- REF_PTP_OFS_LO (R356). -/
abbrev R.REF_PTP_OFS_LO : Nat := 0x00090040
/-- REF_PTP_OFS_HI (R356). -/
abbrev R.REF_PTP_OFS_HI : Nat := 0x00090044
/-- REF_PTP_AT_NS (R356). -/
abbrev R.REF_PTP_AT_NS : Nat := 0x00090048
/-- REF_PTP_AT_SEC_LO (R356). -/
abbrev R.REF_PTP_AT_SEC_LO : Nat := 0x0009004C
/-- REF_PTP_AT_SEC_HI (R356). -/
abbrev R.REF_PTP_AT_SEC_HI : Nat := 0x00090050
/-- REF_PTP_CTRL (R356). -/
abbrev R.REF_PTP_CTRL : Nat := 0x00090054
/-- REF_PTP_CFG (R356). -/
abbrev R.REF_PTP_CFG : Nat := 0x00090058
/-- REF_PTP_CNT (R356). -/
abbrev R.REF_PTP_CNT : Nat := 0x0009005C
/-- REF_IN_CFG_i (R356). -/
abbrev R.REF_IN_CFG (i : Nat) : Nat := 0x00090100 + 32 * i
/-- REF_IN_NOM_i (R356). -/
abbrev R.REF_IN_NOM (i : Nat) : Nat := 0x00090104 + 32 * i
/-- REF_IN_PERIOD_i (R356). -/
abbrev R.REF_IN_PERIOD (i : Nat) : Nat := 0x00090108 + 32 * i
/-- REF_IN_DELAY_i (R356). -/
abbrev R.REF_IN_DELAY (i : Nat) : Nat := 0x0009010C + 32 * i
/-- REF_IN_WINDOW_i (R356). -/
abbrev R.REF_IN_WINDOW (i : Nat) : Nat := 0x00090110 + 32 * i
/-- REF_SLOT_CFG_s (R356). -/
abbrev R.REF_SLOT_CFG (i : Nat) : Nat := 0x00091000 + 32 * i
/-- REF_SLOT_ACC_s (R356). -/
abbrev R.REF_SLOT_ACC (i : Nat) : Nat := 0x00091004 + 32 * i
/-- REF_SLOT_REJ_s (R356). -/
abbrev R.REF_SLOT_REJ (i : Nat) : Nat := 0x00091008 + 32 * i
/-- REF_SLOT_TIME_s (R356). -/
abbrev R.REF_SLOT_TIME (i : Nat) : Nat := 0x0009100C + 32 * i
/-- REF_SLOT_WTR_s (R356). -/
abbrev R.REF_SLOT_WTR (i : Nat) : Nat := 0x00091010 + 32 * i
/-- REF_SLOT_STAT_s (R356). -/
abbrev R.REF_SLOT_STAT (i : Nat) : Nat := 0x00091014 + 32 * i
/-- REF_SLOT_FREQ_s (R356). -/
abbrev R.REF_SLOT_FREQ (i : Nat) : Nat := 0x00091018 + 32 * i
/-- REF_SLOT_TIMER_s (R356). -/
abbrev R.REF_SLOT_TIMER (i : Nat) : Nat := 0x0009101C + 32 * i
/-- DPL_d_CFG (R357). -/
abbrev R.DPL_CFG (i : Nat) : Nat := 0x00080000 + 64 * i
/-- DPL_d_BW (R357). -/
abbrev R.DPL_BW (i : Nat) : Nat := 0x00080004 + 64 * i
/-- DPL_d_SLOPE (R357). -/
abbrev R.DPL_SLOPE (i : Nat) : Nat := 0x00080008 + 64 * i
/-- DPL_d_LOCK (R357). -/
abbrev R.DPL_LOCK (i : Nat) : Nat := 0x0008000C + 64 * i
/-- DPL_d_STATUS (R357). -/
abbrev R.DPL_STATUS (i : Nat) : Nat := 0x00080010 + 64 * i
/-- DPL_d_PHASE_ERR (R357). -/
abbrev R.DPL_PHASE_ERR (i : Nat) : Nat := 0x00080014 + 64 * i
/-- DPL_d_STEER (R357). -/
abbrev R.DPL_STEER (i : Nat) : Nat := 0x00080018 + 64 * i
/-- DPL_d_EVENT (R357). -/
abbrev R.DPL_EVENT (i : Nat) : Nat := 0x0008001C + 64 * i
/-- DPL_d_EVENT_EN (R357). -/
abbrev R.DPL_EVENT_EN (i : Nat) : Nat := 0x00080020 + 64 * i
/-- DPL_d_HO_CFG (R379). -/
abbrev R.DPL_HO_CFG (i : Nat) : Nat := 0x00080100 + 64 * i
/-- DPL_d_HO_RET (R379). -/
abbrev R.DPL_HO_RET (i : Nat) : Nat := 0x00080104 + 64 * i
/-- DPL_d_HO_STEP_TH (R379). -/
abbrev R.DPL_HO_STEP_TH (i : Nat) : Nat := 0x00080108 + 64 * i
/-- DPL_d_HO_VALUE (R379). -/
abbrev R.DPL_HO_VALUE (i : Nat) : Nat := 0x0008010C + 64 * i
/-- DPL_d_HO_BASIC (R379). -/
abbrev R.DPL_HO_BASIC (i : Nat) : Nat := 0x00080110 + 64 * i
/-- DPL_d_HO_TEMP (R379). -/
abbrev R.DPL_HO_TEMP (i : Nat) : Nat := 0x00080114 + 64 * i
/-- DPL_d_HO_STATUS (R379). -/
abbrev R.DPL_HO_STATUS (i : Nat) : Nat := 0x00080118 + 64 * i
/-- DPL_d_HO_ELAPSED (R379). -/
abbrev R.DPL_HO_ELAPSED (i : Nat) : Nat := 0x0008011C + 64 * i
/-- DPL_d_HO_RET_LEFT (R379). -/
abbrev R.DPL_HO_RET_LEFT (i : Nat) : Nat := 0x00080120 + 64 * i
/-- DPL_d_HO_ANCHOR (R379). -/
abbrev R.DPL_HO_ANCHOR (i : Nat) : Nat := 0x00080124 + 64 * i
/-- DPL_LRN_CTRL (R379). -/
abbrev R.DPL_LRN_CTRL : Nat := 0x00080180
/-- DPL_LRN_STATUS (R379). -/
abbrev R.DPL_LRN_STATUS : Nat := 0x00080184
/-- DPL_LRN_TEMP (R379). -/
abbrev R.DPL_LRN_TEMP : Nat := 0x00080188
/-- DPL_LRN_TEMP_IN (R379). -/
abbrev R.DPL_LRN_TEMP_IN : Nat := 0x0008018C
/-- DPL_LRN_TREF (R379). -/
abbrev R.DPL_LRN_TREF : Nat := 0x00080190
/-- DPL_LRN_K1 (R379). -/
abbrev R.DPL_LRN_K1 : Nat := 0x00080194
/-- DPL_LRN_K2 (R379). -/
abbrev R.DPL_LRN_K2 : Nat := 0x00080198
/-- DPL_LRN_SLOPE (R379). -/
abbrev R.DPL_LRN_SLOPE : Nat := 0x0008019C
/-- DPL_LRN_RESID (R379). -/
abbrev R.DPL_LRN_RESID : Nat := 0x000801A0
/-- DPL_LRN_RD_IDX (R379). -/
abbrev R.DPL_LRN_RD_IDX : Nat := 0x000801A4
/-- DPL_LRN_RD_DATA (R379). -/
abbrev R.DPL_LRN_RD_DATA : Nat := 0x000801A8
/-- DPL_LRN_EVENT (R379). -/
abbrev R.DPL_LRN_EVENT : Nat := 0x000801AC
/-- DPL_LRN_EVENT_EN (R379). -/
abbrev R.DPL_LRN_EVENT_EN : Nat := 0x000801B0
/-- SYN_CTRL (R403). -/
abbrev R.SYN_CTRL : Nat := 0x000A0000
/-- SYN_CFG (R403). -/
abbrev R.SYN_CFG : Nat := 0x000A0004
/-- SYN_STATUS (R403). -/
abbrev R.SYN_STATUS : Nat := 0x000A0008
/-- SYN_PLAN (R403). -/
abbrev R.SYN_PLAN : Nat := 0x000A000C
/-- SYN_SSC_AUX (R403). -/
abbrev R.SYN_SSC_AUX : Nat := 0x000A0010
/-- SYN_SSC_CORE (R403). -/
abbrev R.SYN_SSC_CORE : Nat := 0x000A0014
/-- SYN_EVENT (R403). -/
abbrev R.SYN_EVENT : Nat := 0x000A0020
/-- SYN_EVENT_EN (R403). -/
abbrev R.SYN_EVENT_EN : Nat := 0x000A0024
/-- SYN_FAIL (R403). -/
abbrev R.SYN_FAIL : Nat := 0x000A0028
/-- SYN_LANE_q (R403). -/
abbrev R.SYN_LANE (i : Nat) : Nat := 0x000A0040 + 4 * i
/-- SYN_BAND_LO_i (R403). -/
abbrev R.SYN_BAND_LO (i : Nat) : Nat := 0x000A1000 + 8 * i
/-- SYN_BAND_HI_i (R403). -/
abbrev R.SYN_BAND_HI (i : Nat) : Nat := 0x000A1004 + 8 * i
/-- SYN_OTP_BAND_LO_i (R403). -/
abbrev R.SYN_OTP_BAND_LO (i : Nat) : Nat := 0x000A1400 + 8 * i
/-- SYN_OTP_BAND_HI_i (R403). -/
abbrev R.SYN_OTP_BAND_HI (i : Nat) : Nat := 0x000A1404 + 8 * i
/-- OUT_CTRL (R404). -/
abbrev R.OUT_CTRL : Nat := 0x000B0000
/-- OUT_STATUS (R404). -/
abbrev R.OUT_STATUS : Nat := 0x000B0004
/-- OUT_EVENT (R404). -/
abbrev R.OUT_EVENT : Nat := 0x000B0008
/-- OUT_EVENT_EN (R404). -/
abbrev R.OUT_EVENT_EN : Nat := 0x000B000C
/-- OUT_LAST (R404). -/
abbrev R.OUT_LAST : Nat := 0x000B0010
/-- OUT_CLK_i_CFG (R404). -/
abbrev R.OUT_CLK_CFG (i : Nat) : Nat := 0x000B0100 + 32 * i
/-- OUT_CLK_i_FRAC (R404). -/
abbrev R.OUT_CLK_FRAC (i : Nat) : Nat := 0x000B0104 + 32 * i
/-- OUT_CLK_i_DEN (R404). -/
abbrev R.OUT_CLK_DEN (i : Nat) : Nat := 0x000B0108 + 32 * i
/-- OUT_CLK_i_DLY (R404). -/
abbrev R.OUT_CLK_DLY (i : Nat) : Nat := 0x000B010C + 32 * i
/-- OUT_CLK_i_STATUS (R404). -/
abbrev R.OUT_CLK_STATUS (i : Nat) : Nat := 0x000B0110 + 32 * i
/-- OUT_PPS_k_CFG (R404). -/
abbrev R.OUT_PPS_CFG (i : Nat) : Nat := 0x000B0400 + 32 * i
/-- OUT_PPS_k_PERIOD (R404). -/
abbrev R.OUT_PPS_PERIOD (i : Nat) : Nat := 0x000B0404 + 32 * i
/-- OUT_PPS_k_OFS_NS (R404). -/
abbrev R.OUT_PPS_OFS_NS (i : Nat) : Nat := 0x000B0408 + 32 * i
/-- OUT_PPS_k_OFS_FRAC (R404). -/
abbrev R.OUT_PPS_OFS_FRAC (i : Nat) : Nat := 0x000B040C + 32 * i
/-- OUT_PPS_k_WIDTH (R404). -/
abbrev R.OUT_PPS_WIDTH (i : Nat) : Nat := 0x000B0410 + 32 * i
/-- OUT_PPS_k_STATUS (R404). -/
abbrev R.OUT_PPS_STATUS (i : Nat) : Nat := 0x000B0414 + 32 * i
/-- RDN_CTRL (R434). -/
abbrev R.RDN_CTRL : Nat := 0x00150000
/-- RDN_CFG (R434). -/
abbrev R.RDN_CFG : Nat := 0x00150004
/-- RDN_TIMING (R434). -/
abbrev R.RDN_TIMING : Nat := 0x00150008
/-- RDN_STATUS (R434). -/
abbrev R.RDN_STATUS : Nat := 0x0015000C
/-- RDN_EVENT (R434). -/
abbrev R.RDN_EVENT : Nat := 0x00150010
/-- RDN_EVENT_EN (R434). -/
abbrev R.RDN_EVENT_EN : Nat := 0x00150014
/-- RDN_MATE_ID_HI (R434). -/
abbrev R.RDN_MATE_ID_HI : Nat := 0x00150018
/-- RDN_MATE_ID_LO (R434). -/
abbrev R.RDN_MATE_ID_LO : Nat := 0x0015001C
/-- RDN_ANN_DA_HI (R434). -/
abbrev R.RDN_ANN_DA_HI : Nat := 0x00150020
/-- RDN_ANN_DA_LO (R434). -/
abbrev R.RDN_ANN_DA_LO : Nat := 0x00150024
/-- RDN_PORTS_0 (R434). -/
abbrev R.RDN_PORTS_0 : Nat := 0x00150028
/-- RDN_PORTS_1 (R434). -/
abbrev R.RDN_PORTS_1 : Nat := 0x0015002C
/-- RDN_PORTS_2 (R434). -/
abbrev R.RDN_PORTS_2 : Nat := 0x00150030
/-- RDN_DIV_TH (R434). -/
abbrev R.RDN_DIV_TH : Nat := 0x00150034
/-- RDN_DIV_LAST (R434). -/
abbrev R.RDN_DIV_LAST : Nat := 0x00150038
/-- RDN_MIR_Q (R434). -/
abbrev R.RDN_MIR_Q : Nat := 0x0015003C
/-- RDN_MIR_SENT (R434). -/
abbrev R.RDN_MIR_SENT : Nat := 0x00150040
/-- RDN_MIR_RCVD (R434). -/
abbrev R.RDN_MIR_RCVD : Nat := 0x00150044
/-- RDN_MSG_ERR (R434). -/
abbrev R.RDN_MSG_ERR : Nat := 0x00150048
/-- RDN_HB_MISS (R434). -/
abbrev R.RDN_HB_MISS : Nat := 0x0015004C
/-- SEC_CTRL (R456). -/
abbrev R.SEC_CTRL : Nat := 0x00040000
/-- SEC_STATUS (R456). -/
abbrev R.SEC_STATUS : Nat := 0x00040004
/-- SEC_EVENT (R456). -/
abbrev R.SEC_EVENT : Nat := 0x00040008
/-- SEC_EVENT_EN (R456). -/
abbrev R.SEC_EVENT_EN : Nat := 0x0004000C
/-- SEC_OTP_PROG (R456). -/
abbrev R.SEC_OTP_PROG : Nat := 0x00040010
/-- SEC_OTP_STATUS (R456). -/
abbrev R.SEC_OTP_STATUS : Nat := 0x00040014
/-- SEC_SERIAL_LO (R456). -/
abbrev R.SEC_SERIAL_LO : Nat := 0x00040018
/-- SEC_SERIAL_HI (R456). -/
abbrev R.SEC_SERIAL_HI : Nat := 0x0004001C
/-- SEC_OTP_STAGE (R456). -/
abbrev R.SEC_OTP_STAGE (i : Nat) : Nat := 0x00040040 + 4 * i
/-- SEC_ATT_NONCE (R456). -/
abbrev R.SEC_ATT_NONCE (i : Nat) : Nat := 0x00040080 + 4 * i
/-- SEC_DEV_PUB (R456). -/
abbrev R.SEC_DEV_PUB (i : Nat) : Nat := 0x000400C0 + 4 * i
/-- SEC_DEV_CERT (R456). -/
abbrev R.SEC_DEV_CERT (i : Nat) : Nat := 0x00040120 + 4 * i
/-- SEC_OWNER_DIG_s (R456). -/
abbrev R.SEC_OWNER_DIG (i : Nat) (j : Nat) : Nat := 0x00040180 + 48 * i + 4 * j
/-- SEC_TAMPER_CNT (R456). -/
abbrev R.SEC_TAMPER_CNT : Nat := 0x00040240
/-- SEC_TAMPER_LAST (R456). -/
abbrev R.SEC_TAMPER_LAST : Nat := 0x00040244
/-- SEC_PAIR_KEY (R456). -/
abbrev R.SEC_PAIR_KEY (i : Nat) : Nat := 0x00040260 + 4 * i
/-- SEC_PTP_POLICY_p (R456). -/
abbrev R.SEC_PTP_POLICY (i : Nat) : Nat := 0x00041000 + 4 * i
/-- MSC_PN_TH_LO (R457). -/
abbrev R.MSC_PN_TH_LO : Nat := 0x00170000
/-- MSC_PN_TH_HI (R457). -/
abbrev R.MSC_PN_TH_HI : Nat := 0x00170004
/-- MSC_EVENT (R457). -/
abbrev R.MSC_EVENT : Nat := 0x00170010
/-- MSC_EVENT_EN (R457). -/
abbrev R.MSC_EVENT_EN : Nat := 0x00170014
/-- MSC_LAST_SA (R457). -/
abbrev R.MSC_LAST_SA : Nat := 0x00170018
/-- MSC_PORT_CFG_p (R457). -/
abbrev R.MSC_PORT_CFG (i : Nat) : Nat := 0x00171000 + 64 * i
/-- MSC_PORT_AN_p (R457). -/
abbrev R.MSC_PORT_AN (i : Nat) : Nat := 0x00171004 + 64 * i
/-- PWR_CTRL (R472). -/
abbrev R.PWR_CTRL : Nat := 0x00030000
/-- PWR_STATE (R472). -/
abbrev R.PWR_STATE : Nat := 0x00030004
/-- PWR_DOM_STATUS (R472). -/
abbrev R.PWR_DOM_STATUS : Nat := 0x00030008
/-- PWR_DOM_OFF_REQ (R472). -/
abbrev R.PWR_DOM_OFF_REQ : Nat := 0x0003000C
/-- PWR_DOM_HOLD (R472). -/
abbrev R.PWR_DOM_HOLD : Nat := 0x00030010
/-- PWR_ALLOW_TABLE_LOSS (R472). -/
abbrev R.PWR_ALLOW_TABLE_LOSS : Nat := 0x00030014
/-- PWR_EVENT (R472). -/
abbrev R.PWR_EVENT : Nat := 0x00030018
/-- PWR_EVENT_EN (R472). -/
abbrev R.PWR_EVENT_EN : Nat := 0x0003001C
/-- PWR_REFUSE (R472). -/
abbrev R.PWR_REFUSE : Nat := 0x00030020
/-- PWR_CL_GATED (R472). -/
abbrev R.PWR_CL_GATED : Nat := 0x00030024
/-- PWR_ENG_GATED_k (R472). -/
abbrev R.PWR_ENG_GATED (i : Nat) : Nat := 0x00030040 + 4 * i
/-- PWR_LAT_TOL_PORT_p (R472). -/
abbrev R.PWR_LAT_TOL_PORT (i : Nat) : Nat := 0x00031000 + 4 * i
/-- PWR_LAT_TOL_GRP_g (R472). -/
abbrev R.PWR_LAT_TOL_GRP (i : Nat) : Nat := 0x00031200 + 4 * i
/-- PWR_LAT_TOL_CL_k (R472). -/
abbrev R.PWR_LAT_TOL_CL (i : Nat) : Nat := 0x00031220 + 4 * i
/-- PWR_LAT_TOL_ROPE_r (R472). -/
abbrev R.PWR_LAT_TOL_ROPE (i : Nat) : Nat := 0x00031240 + 4 * i
/-- CNT_CTRL (R493). -/
abbrev R.CNT_CTRL : Nat := 0x00130000
/-- CNT_HARV_PERIOD (R493). -/
abbrev R.CNT_HARV_PERIOD : Nat := 0x00130004
/-- CNT_HARV_RING_LO (R493). -/
abbrev R.CNT_HARV_RING_LO : Nat := 0x00130008
/-- CNT_HARV_RING_HI (R493). -/
abbrev R.CNT_HARV_RING_HI : Nat := 0x0013000C
/-- CNT_HARV_SLOTS (R493). -/
abbrev R.CNT_HARV_SLOTS : Nat := 0x00130010
/-- CNT_HARV_SLOT_BYTES (R493). -/
abbrev R.CNT_HARV_SLOT_BYTES : Nat := 0x00130014
/-- CNT_HARV_HEAD (R493). -/
abbrev R.CNT_HARV_HEAD : Nat := 0x00130018
/-- CNT_HARV_TAIL (R493). -/
abbrev R.CNT_HARV_TAIL : Nat := 0x0013001C
/-- CNT_HARV_REC_LEN (R493). -/
abbrev R.CNT_HARV_REC_LEN : Nat := 0x00130020
/-- CNT_HARV_SEQ (R493). -/
abbrev R.CNT_HARV_SEQ : Nat := 0x00130024
/-- CNT_HARV_SKIP (R493). -/
abbrev R.CNT_HARV_SKIP : Nat := 0x00130028
/-- CNT_HARV_STATUS (R493). -/
abbrev R.CNT_HARV_STATUS : Nat := 0x0013002C
/-- CNT_EVENT (R493). -/
abbrev R.CNT_EVENT : Nat := 0x00130030
/-- CNT_EVENT_EN (R493). -/
abbrev R.CNT_EVENT_EN : Nat := 0x00130034
/-- CNT_OVF_LAST (R493). -/
abbrev R.CNT_OVF_LAST : Nat := 0x00130038
/-- CRG_CTRL (R494). -/
abbrev R.CRG_CTRL : Nat := 0x00140000
/-- CRG_STATUS (R494). -/
abbrev R.CRG_STATUS : Nat := 0x00140004
/-- CRG_HEAD (R494). -/
abbrev R.CRG_HEAD : Nat := 0x00140008
/-- CRG_TRIG_IDX (R494). -/
abbrev R.CRG_TRIG_IDX : Nat := 0x0014000C
/-- CRG_TRIG (R494). -/
abbrev R.CRG_TRIG : Nat := 0x00140010
/-- CRG_TRIG_TIME_NS (R494). -/
abbrev R.CRG_TRIG_TIME_NS : Nat := 0x00140014
/-- CRG_TRIG_TIME_SEC (R494). -/
abbrev R.CRG_TRIG_TIME_SEC : Nat := 0x00140018
/-- CRG_HRING_LO (R494). -/
abbrev R.CRG_HRING_LO : Nat := 0x00140020
/-- CRG_HRING_HI (R494). -/
abbrev R.CRG_HRING_HI : Nat := 0x00140024
/-- CRG_HRING_SIZE (R494). -/
abbrev R.CRG_HRING_SIZE : Nat := 0x00140028
/-- CRG_HRING_TAIL (R494). -/
abbrev R.CRG_HRING_TAIL : Nat := 0x0014002C
/-- CRG_LOST (R494). -/
abbrev R.CRG_LOST : Nat := 0x00140030
/-- CRG_EVENT (R494). -/
abbrev R.CRG_EVENT : Nat := 0x00140034
/-- CRG_EVENT_EN (R494). -/
abbrev R.CRG_EVENT_EN : Nat := 0x00140038
/-- CRG_RULE_j_A (R494). -/
abbrev R.CRG_RULE_A (i : Nat) : Nat := 0x00140040 + 8 * i
/-- CRG_RULE_j_B (R494). -/
abbrev R.CRG_RULE_B (i : Nat) : Nat := 0x00140044 + 8 * i
/-- TST_CTRL (R495). -/
abbrev R.TST_CTRL : Nat := 0x00160000
/-- TST_TARGET (R495). -/
abbrev R.TST_TARGET : Nat := 0x00160004
/-- TST_RANGE (R495). -/
abbrev R.TST_RANGE : Nat := 0x00160008
/-- TST_COUNT (R495). -/
abbrev R.TST_COUNT : Nat := 0x0016000C
/-- TST_STATUS (R495). -/
abbrev R.TST_STATUS : Nat := 0x00160010
/-- TST_RES (R495). -/
abbrev R.TST_RES (i : Nat) : Nat := 0x00160014 + 4 * i
/-- TST_EVENT (R495). -/
abbrev R.TST_EVENT : Nat := 0x00160030
/-- TST_EVENT_EN (R495). -/
abbrev R.TST_EVENT_EN : Nat := 0x00160034
/-- TST_QUAR_n (R495). -/
abbrev R.TST_QUAR (i : Nat) : Nat := 0x00160040 + 4 * i
/-- TST_QUAR_CNT (R495). -/
abbrev R.TST_QUAR_CNT : Nat := 0x00160080
/-- FLT_CTRL (R513). -/
abbrev R.FLT_CTRL : Nat := 0x00050000
/-- FLT_STATUS (R513). -/
abbrev R.FLT_STATUS : Nat := 0x00050004
/-- FLT_PEND (R513). -/
abbrev R.FLT_PEND : Nat := 0x00050008
/-- FLT_EVENT (R513). -/
abbrev R.FLT_EVENT : Nat := 0x0005000C
/-- FLT_EVENT_EN (R513). -/
abbrev R.FLT_EVENT_EN : Nat := 0x00050010
/-- FLT_CNT_c (R513). -/
abbrev R.FLT_CNT (i : Nat) : Nat := 0x00050020 + 4 * i
/-- FLT_LOG_COUNT (R513). -/
abbrev R.FLT_LOG_COUNT : Nat := 0x00050030
/-- FLT_LOG_0 (R513). -/
abbrev R.FLT_LOG_0 : Nat := 0x00050040
/-- FLT_LOG_1 (R513). -/
abbrev R.FLT_LOG_1 : Nat := 0x00050044
/-- FLT_LOG_2 (R513). -/
abbrev R.FLT_LOG_2 : Nat := 0x00050048
/-- FLT_LOG_3 (R513). -/
abbrev R.FLT_LOG_3 : Nat := 0x0005004C
/-- FLT_LOG_POP (R513). -/
abbrev R.FLT_LOG_POP : Nat := 0x00050050
/-- FLT_WIN_s (R513). -/
abbrev R.FLT_WIN (i : Nat) : Nat := 0x00050060 + 4 * i
/-- FLT_LAST_FATAL (R513). -/
abbrev R.FLT_LAST_FATAL : Nat := 0x00050080
/-- FLT_LAST_FATAL_SEC (R513). -/
abbrev R.FLT_LAST_FATAL_SEC : Nat := 0x00050084
/-- FLT_REACT_e (R513). -/
abbrev R.FLT_REACT (i : Nat) : Nat := 0x00051000 + 4 * i
/-- HIF_RXR_n_BASE_LO (R115). -/
abbrev R.HIF_RXR_BASE_LO (i : Nat) : Nat := 0x00020500 + 32 * i
/-- HIF_RXR_n_BASE_HI (R115). -/
abbrev R.HIF_RXR_BASE_HI (i : Nat) : Nat := 0x00020504 + 32 * i
/-- HIF_RXR_n_SIZE (R115). -/
abbrev R.HIF_RXR_SIZE (i : Nat) : Nat := 0x00020508 + 32 * i
/-- HIF_RXR_n_HEAD (R115). -/
abbrev R.HIF_RXR_HEAD (i : Nat) : Nat := 0x0002050C + 32 * i
/-- HIF_RXR_n_TAIL (R115). -/
abbrev R.HIF_RXR_TAIL (i : Nat) : Nat := 0x00020510 + 32 * i

abbrev F.TOP_ID_step_letter : Fld := ⟨R.TOP_ID, 28, 4⟩
abbrev F.TOP_ID_step_digit : Fld := ⟨R.TOP_ID, 24, 4⟩
abbrev F.TOP_ID_part : Fld := ⟨R.TOP_ID, 8, 16⟩
abbrev F.TOP_ID_variant : Fld := ⟨R.TOP_ID, 4, 4⟩
abbrev F.IMG_CTRL_allow_ref_loss : Fld := ⟨R.IMG_CTRL, 7, 1⟩
abbrev F.IMG_CTRL_pr_flush : Fld := ⟨R.IMG_CTRL, 6, 1⟩
abbrev F.IMG_CTRL_pr_start : Fld := ⟨R.IMG_CTRL, 5, 1⟩
abbrev F.IMG_CTRL_pr_group : Fld := ⟨R.IMG_CTRL, 2, 3⟩
abbrev F.IMG_CTRL_lock : Fld := ⟨R.IMG_CTRL, 1, 1⟩
abbrev F.IMG_CTRL_start_full : Fld := ⟨R.IMG_CTRL, 0, 1⟩
abbrev F.IMG_STATUS_key_slot : Fld := ⟨R.IMG_STATUS, 24, 2⟩
abbrev F.IMG_STATUS_unowned : Fld := ⟨R.IMG_STATUS, 21, 1⟩
abbrev F.IMG_STATUS_locked : Fld := ⟨R.IMG_STATUS, 20, 1⟩
abbrev F.IMG_STATUS_source : Fld := ⟨R.IMG_STATUS, 16, 2⟩
abbrev F.IMG_STATUS_reason : Fld := ⟨R.IMG_STATUS, 8, 8⟩
abbrev F.IMG_STATUS_state : Fld := ⟨R.IMG_STATUS, 0, 4⟩
abbrev F.IMG_EVENT_absent_write : Fld := ⟨R.IMG_EVENT, 4, 1⟩
abbrev F.IMG_EVENT_pr_fail : Fld := ⟨R.IMG_EVENT, 3, 1⟩
abbrev F.IMG_EVENT_pr_done : Fld := ⟨R.IMG_EVENT, 2, 1⟩
abbrev F.IMG_EVENT_fail : Fld := ⟨R.IMG_EVENT, 1, 1⟩
abbrev F.IMG_EVENT_done : Fld := ⟨R.IMG_EVENT, 0, 1⟩
abbrev F.IMG_LEN : Fld := ⟨R.IMG_LEN, 0, 32⟩
abbrev F.IMG_VERSION : Fld := ⟨R.IMG_VERSION, 0, 32⟩
abbrev F.IMG_SEC_VERSION : Fld := ⟨R.IMG_SEC_VERSION, 0, 16⟩
abbrev F.IMG_PRESENT : Fld := ⟨R.IMG_PRESENT, 0, 24⟩
abbrev F.IMG_REGIONS : Fld := ⟨R.IMG_REGIONS, 0, 10⟩
abbrev F.IMG_PR_DRAIN : Fld := ⟨R.IMG_PR_DRAIN, 0, 16⟩
abbrev F.IMG_ABSENT_ADDR : Fld := ⟨R.IMG_ABSENT_ADDR, 0, 32⟩
abbrev F.IMG_ABSENT_CNT : Fld := ⟨R.IMG_ABSENT_CNT, 0, 32⟩
abbrev F.IMG_HASH (i : Nat) : Fld := ⟨R.IMG_HASH i, 0, 32⟩
abbrev F.IMG_GROUP_VER (i : Nat) : Fld := ⟨R.IMG_GROUP_VER i, 0, 32⟩
abbrev F.TOP_READY_rope_quad : Fld := ⟨R.TOP_READY, 24, 2⟩
abbrev F.TOP_READY_group : Fld := ⟨R.TOP_READY, 16, 8⟩
abbrev F.TOP_READY_hold : Fld := ⟨R.TOP_READY, 11, 1⟩
abbrev F.TOP_READY_time : Fld := ⟨R.TOP_READY, 10, 1⟩
abbrev F.TOP_READY_tdc : Fld := ⟨R.TOP_READY, 9, 1⟩
abbrev F.TOP_READY_root : Fld := ⟨R.TOP_READY, 8, 1⟩
abbrev F.TOP_READY_cnt : Fld := ⟨R.TOP_READY, 7, 1⟩
abbrev F.TOP_READY_msc : Fld := ⟨R.TOP_READY, 6, 1⟩
abbrev F.TOP_READY_qsc : Fld := ⟨R.TOP_READY, 5, 1⟩
abbrev F.TOP_READY_bpm : Fld := ⟨R.TOP_READY, 4, 1⟩
abbrev F.TOP_READY_fwd : Fld := ⟨R.TOP_READY, 3, 1⟩
abbrev F.TOP_READY_sec : Fld := ⟨R.TOP_READY, 2, 1⟩
abbrev F.TOP_READY_img : Fld := ⟨R.TOP_READY, 1, 1⟩
abbrev F.TOP_READY_hif : Fld := ⟨R.TOP_READY, 0, 1⟩
abbrev F.TOP_READY_PORT_0 : Fld := ⟨R.TOP_READY_PORT_0, 0, 32⟩
abbrev F.TOP_READY_PORT_1 : Fld := ⟨R.TOP_READY_PORT_1, 0, 32⟩
abbrev F.TOP_READY_VPORT : Fld := ⟨R.TOP_READY_VPORT, 0, 17⟩
abbrev F.TOP_RST_CTRL_busy : Fld := ⟨R.TOP_RST_CTRL, 31, 1⟩
abbrev F.TOP_RST_CTRL_refused : Fld := ⟨R.TOP_RST_CTRL, 1, 1⟩
abbrev F.TOP_RST_CTRL_warm : Fld := ⟨R.TOP_RST_CTRL, 0, 1⟩
abbrev F.TOP_BLK_RST : Fld := ⟨R.TOP_BLK_RST, 0, 24⟩
abbrev F.TOP_PORT_RST_0 : Fld := ⟨R.TOP_PORT_RST_0, 0, 32⟩
abbrev F.TOP_PORT_RST_1 : Fld := ⟨R.TOP_PORT_RST_1, 0, 32⟩
abbrev F.TOP_RST_CAUSE : Fld := ⟨R.TOP_RST_CAUSE, 0, 9⟩
abbrev F.TOP_WDOG_CTRL_period : Fld := ⟨R.TOP_WDOG_CTRL, 16, 16⟩
abbrev F.TOP_WDOG_CTRL_enable : Fld := ⟨R.TOP_WDOG_CTRL, 0, 1⟩
abbrev F.TOP_WDOG_KICK_kick : Fld := ⟨R.TOP_WDOG_KICK, 0, 1⟩
abbrev F.TOP_WDOG_COUNT : Fld := ⟨R.TOP_WDOG_COUNT, 0, 16⟩
abbrev F.TOP_EVENT : Fld := ⟨R.TOP_EVENT, 0, 3⟩
abbrev F.TOP_EVENT_EN : Fld := ⟨R.TOP_EVENT_EN, 0, 3⟩
abbrev F.HIF_CTRL_view_shadow : Fld := ⟨R.HIF_CTRL, 0, 1⟩
abbrev F.HIF_ACC_ERR_busy : Fld := ⟨R.HIF_ACC_ERR, 7, 1⟩
abbrev F.HIF_ACC_ERR_rsvd : Fld := ⟨R.HIF_ACC_ERR, 6, 1⟩
abbrev F.HIF_ACC_ERR_off : Fld := ⟨R.HIF_ACC_ERR, 5, 1⟩
abbrev F.HIF_ACC_ERR_wo : Fld := ⟨R.HIF_ACC_ERR, 4, 1⟩
abbrev F.HIF_ACC_ERR_locked : Fld := ⟨R.HIF_ACC_ERR, 3, 1⟩
abbrev F.HIF_ACC_ERR_undef : Fld := ⟨R.HIF_ACC_ERR, 2, 1⟩
abbrev F.HIF_ACC_ERR_narrow : Fld := ⟨R.HIF_ACC_ERR, 1, 1⟩
abbrev F.HIF_ACC_ERR_absent : Fld := ⟨R.HIF_ACC_ERR, 0, 1⟩
abbrev F.HIF_ACC_ADDR : Fld := ⟨R.HIF_ACC_ADDR, 0, 32⟩
abbrev F.HIF_ACC_CNT : Fld := ⟨R.HIF_ACC_CNT, 0, 32⟩
abbrev F.HIF_UG_STROBE : Fld := ⟨R.HIF_UG_STROBE, 0, 8⟩
abbrev F.HIF_UG_PEND : Fld := ⟨R.HIF_UG_PEND, 0, 8⟩
abbrev F.HIF_SUBSYS : Fld := ⟨R.HIF_SUBSYS, 0, 32⟩
abbrev F.HIF_ARM_CTRL_mask (i : Nat) : Fld := ⟨R.HIF_ARM_CTRL i, 0, 8⟩
abbrev F.HIF_ARM_CTRL_enable (i : Nat) : Fld := ⟨R.HIF_ARM_CTRL i, 16, 1⟩
abbrev F.HIF_ARM_CTRL_late (i : Nat) : Fld := ⟨R.HIF_ARM_CTRL i, 17, 1⟩
abbrev F.HIF_ARM_CTRL_refused (i : Nat) : Fld := ⟨R.HIF_ARM_CTRL i, 18, 1⟩
abbrev F.HIF_ARM_CTRL_fired (i : Nat) : Fld := ⟨R.HIF_ARM_CTRL i, 19, 1⟩
abbrev F.HIF_ARM_SEC_LO (i : Nat) : Fld := ⟨R.HIF_ARM_SEC_LO i, 0, 32⟩
abbrev F.HIF_ARM_SEC_HI (i : Nat) : Fld := ⟨R.HIF_ARM_SEC_HI i, 0, 16⟩
abbrev F.HIF_ARM_NS (i : Nat) : Fld := ⟨R.HIF_ARM_NS i, 0, 30⟩
abbrev F.HIF_PAR_ADDR : Fld := ⟨R.HIF_PAR_ADDR, 0, 32⟩
abbrev F.HIF_PAR_CNT : Fld := ⟨R.HIF_PAR_CNT, 0, 32⟩
abbrev F.HIF_SCRUB_PASS : Fld := ⟨R.HIF_SCRUB_PASS, 0, 32⟩
abbrev F.HIF_EVENT : Fld := ⟨R.HIF_EVENT, 0, 5⟩
abbrev F.HIF_EVENT_EN : Fld := ⟨R.HIF_EVENT_EN, 0, 5⟩
abbrev F.HIF_VEC_MAP_vector (i : Nat) : Fld := ⟨R.HIF_VEC_MAP i, 0, 6⟩
abbrev F.HIF_VEC_MAP_enable (i : Nat) : Fld := ⟨R.HIF_VEC_MAP i, 7, 1⟩
abbrev F.HIF_VEC_EOI_0 : Fld := ⟨R.HIF_VEC_EOI_0, 0, 32⟩
abbrev F.HIF_VEC_EOI_1 : Fld := ⟨R.HIF_VEC_EOI_1, 0, 32⟩
abbrev F.HIF_SRC_LEVEL_0 : Fld := ⟨R.HIF_SRC_LEVEL_0, 0, 32⟩
abbrev F.HIF_SRC_LEVEL_1 : Fld := ⟨R.HIF_SRC_LEVEL_1, 0, 32⟩
abbrev F.HIF_INTN_EN_0 : Fld := ⟨R.HIF_INTN_EN_0, 0, 32⟩
abbrev F.HIF_INTN_EN_1 : Fld := ⟨R.HIF_INTN_EN_1, 0, 32⟩
abbrev F.HIF_TXR_BASE_LO (i : Nat) : Fld := ⟨R.HIF_TXR_BASE_LO i, 0, 32⟩
abbrev F.HIF_TXR_BASE_HI (i : Nat) : Fld := ⟨R.HIF_TXR_BASE_HI i, 0, 32⟩
abbrev F.HIF_TXR_SIZE_log2 (i : Nat) : Fld := ⟨R.HIF_TXR_SIZE i, 0, 5⟩
abbrev F.HIF_TXR_SIZE_enable (i : Nat) : Fld := ⟨R.HIF_TXR_SIZE i, 8, 1⟩
abbrev F.HIF_TXR_HEAD (i : Nat) : Fld := ⟨R.HIF_TXR_HEAD i, 0, 16⟩
abbrev F.HIF_TXR_TAIL (i : Nat) : Fld := ⟨R.HIF_TXR_TAIL i, 0, 16⟩
abbrev F.HSL_CFG_rate (i : Nat) : Fld := ⟨R.HSL_CFG i, 0, 2⟩
abbrev F.HSL_CFG_used (i : Nat) : Fld := ⟨R.HSL_CFG i, 2, 1⟩
abbrev F.HSL_CFG_port (i : Nat) : Fld := ⟨R.HSL_CFG i, 8, 6⟩
abbrev F.HSL_CTRL_tx_invert (i : Nat) : Fld := ⟨R.HSL_CTRL i, 0, 1⟩
abbrev F.HSL_CTRL_rx_invert (i : Nat) : Fld := ⟨R.HSL_CTRL i, 1, 1⟩
abbrev F.HSL_CTRL_loopback (i : Nat) : Fld := ⟨R.HSL_CTRL i, 2, 2⟩
abbrev F.HSL_STATUS_signal (i : Nat) : Fld := ⟨R.HSL_STATUS i, 0, 1⟩
abbrev F.HSL_STATUS_cdr_lock (i : Nat) : Fld := ⟨R.HSL_STATUS i, 1, 1⟩
abbrev F.HSL_STATUS_align_lock (i : Nat) : Fld := ⟨R.HSL_STATUS i, 2, 1⟩
abbrev F.HSL_STATUS_phase_valid (i : Nat) : Fld := ⟨R.HSL_STATUS i, 3, 1⟩
abbrev F.HSL_STATUS_pwr_state (i : Nat) : Fld := ⟨R.HSL_STATUS i, 4, 2⟩
abbrev F.HSL_STATUS_prbs_lock (i : Nat) : Fld := ⟨R.HSL_STATUS i, 6, 1⟩
abbrev F.HSL_STATUS_align_epoch (i : Nat) : Fld := ⟨R.HSL_STATUS i, 16, 8⟩
abbrev F.HSL_RX_ALIGN_rx_slip (i : Nat) : Fld := ⟨R.HSL_RX_ALIGN i, 0, 7⟩
abbrev F.HSL_RX_ALIGN_rx_deskew (i : Nat) : Fld := ⟨R.HSL_RX_ALIGN i, 7, 12⟩
abbrev F.HSL_RX_ALIGN_rx_fec_pos (i : Nat) : Fld := ⟨R.HSL_RX_ALIGN i, 19, 13⟩
abbrev F.HSL_TX_ALIGN_tx_gb_phase (i : Nat) : Fld := ⟨R.HSL_TX_ALIGN i, 0, 7⟩
abbrev F.HSL_PRBS_CTRL_tx_pattern (i : Nat) : Fld := ⟨R.HSL_PRBS_CTRL i, 0, 3⟩
abbrev F.HSL_PRBS_CTRL_tx_en (i : Nat) : Fld := ⟨R.HSL_PRBS_CTRL i, 3, 1⟩
abbrev F.HSL_PRBS_CTRL_rx_pattern (i : Nat) : Fld := ⟨R.HSL_PRBS_CTRL i, 4, 3⟩
abbrev F.HSL_PRBS_CTRL_rx_en (i : Nat) : Fld := ⟨R.HSL_PRBS_CTRL i, 7, 1⟩
abbrev F.HSL_PRBS_CTRL_inject (i : Nat) : Fld := ⟨R.HSL_PRBS_CTRL i, 8, 1⟩
abbrev F.HSL_PRBS_CTRL_inject_period (i : Nat) : Fld := ⟨R.HSL_PRBS_CTRL i, 12, 4⟩
abbrev F.HSL_PRBS_ERR_LO (i : Nat) : Fld := ⟨R.HSL_PRBS_ERR_LO i, 0, 32⟩
abbrev F.HSL_PRBS_ERR_HI (i : Nat) : Fld := ⟨R.HSL_PRBS_ERR_HI i, 0, 32⟩
abbrev F.HSL_EVENT (i : Nat) : Fld := ⟨R.HSL_EVENT i, 0, 4⟩
abbrev F.HSL_EVENT_EN (i : Nat) : Fld := ⟨R.HSL_EVENT_EN i, 0, 4⟩
abbrev F.MAC_CFG_enable (i : Nat) : Fld := ⟨R.MAC_CFG i, 0, 1⟩
abbrev F.MAC_CFG_speed (i : Nat) : Fld := ⟨R.MAC_CFG i, 4, 3⟩
abbrev F.MAC_CFG_lanes (i : Nat) : Fld := ⟨R.MAC_CFG i, 8, 4⟩
abbrev F.MAC_CFG_fec (i : Nat) : Fld := ⟨R.MAC_CFG i, 12, 2⟩
abbrev F.MAC_CFG_an_en (i : Nat) : Fld := ⟨R.MAC_CFG i, 16, 1⟩
abbrev F.MAC_CFG_pcs_loop (i : Nat) : Fld := ⟨R.MAC_CFG i, 17, 1⟩
abbrev F.MAC_MAXFRAME_bytes (i : Nat) : Fld := ⟨R.MAC_MAXFRAME i, 0, 14⟩
abbrev F.MAC_STATUS_link (i : Nat) : Fld := ⟨R.MAC_STATUS i, 0, 1⟩
abbrev F.MAC_STATUS_an_state (i : Nat) : Fld := ⟨R.MAC_STATUS i, 1, 3⟩
abbrev F.MAC_STATUS_local_fault (i : Nat) : Fld := ⟨R.MAC_STATUS i, 4, 1⟩
abbrev F.MAC_STATUS_remote_fault (i : Nat) : Fld := ⟨R.MAC_STATUS i, 5, 1⟩
abbrev F.MAC_AN_ADV_medium (i : Nat) : Fld := ⟨R.MAC_AN_ADV i, 0, 1⟩
abbrev F.MAC_AN_LP_ability (i : Nat) : Fld := ⟨R.MAC_AN_LP i, 0, 1⟩
abbrev F.MAC_AN_LP_fec_req (i : Nat) : Fld := ⟨R.MAC_AN_LP i, 1, 2⟩
abbrev F.MAC_RX_RESID (i : Nat) : Fld := ⟨R.MAC_RX_RESID i, 0, 20⟩
abbrev F.MAC_TX_RESID (i : Nat) : Fld := ⟨R.MAC_TX_RESID i, 0, 20⟩
abbrev F.MAC_EVENT (i : Nat) : Fld := ⟨R.MAC_EVENT i, 0, 5⟩
abbrev F.MAC_EVENT_EN (i : Nat) : Fld := ⟨R.MAC_EVENT_EN i, 0, 5⟩
abbrev F.RLK_CFG_enable (i : Nat) : Fld := ⟨R.RLK_CFG i, 0, 1⟩
abbrev F.RLK_CFG_max_rate (i : Nat) : Fld := ⟨R.RLK_CFG i, 1, 2⟩
abbrev F.RLK_CFG_tunnel_en (i : Nat) : Fld := ⟨R.RLK_CFG i, 3, 1⟩
abbrev F.RLK_CFG_mgt_en (i : Nat) : Fld := ⟨R.RLK_CFG i, 4, 1⟩
abbrev F.RLK_CFG_tx_invert (i : Nat) : Fld := ⟨R.RLK_CFG i, 5, 1⟩
abbrev F.RLK_CFG_rx_invert (i : Nat) : Fld := ⟨R.RLK_CFG i, 6, 1⟩
abbrev F.RLK_CTRL_restart (i : Nat) : Fld := ⟨R.RLK_CTRL i, 0, 1⟩
abbrev F.RLK_STATUS_state (i : Nat) : Fld := ⟨R.RLK_STATUS i, 0, 4⟩
abbrev F.RLK_STATUS_rate (i : Nat) : Fld := ⟨R.RLK_STATUS i, 4, 2⟩
abbrev F.RLK_STATUS_frame_lock (i : Nat) : Fld := ⟨R.RLK_STATUS i, 6, 1⟩
abbrev F.RLK_STATUS_hf_lock (i : Nat) : Fld := ⟨R.RLK_STATUS i, 7, 1⟩
abbrev F.RLK_STATUS_freq_lock (i : Nat) : Fld := ⟨R.RLK_STATUS i, 8, 1⟩
abbrev F.RLK_STATUS_frozen (i : Nat) : Fld := ⟨R.RLK_STATUS i, 9, 1⟩
abbrev F.RLK_STATUS_tunnel_up (i : Nat) : Fld := ⟨R.RLK_STATUS i, 10, 1⟩
abbrev F.RLK_STATUS_epoch (i : Nat) : Fld := ⟨R.RLK_STATUS i, 16, 8⟩
abbrev F.RLK_OFFSET (i : Nat) : Fld := ⟨R.RLK_OFFSET i, 0, 32⟩
abbrev F.RLK_RX_FILL_fill (i : Nat) : Fld := ⟨R.RLK_RX_FILL i, 0, 6⟩
abbrev F.RLK_RX_FILL_rx_slip (i : Nat) : Fld := ⟨R.RLK_RX_FILL i, 8, 4⟩
abbrev F.RLK_RX_FILL_valid (i : Nat) : Fld := ⟨R.RLK_RX_FILL i, 31, 1⟩
abbrev F.RLK_PARTNER_CAP (i : Nat) : Fld := ⟨R.RLK_PARTNER_CAP i, 0, 32⟩
abbrev F.RLK_PARTNER_ID_HI (i : Nat) : Fld := ⟨R.RLK_PARTNER_ID_HI i, 0, 32⟩
abbrev F.RLK_PARTNER_ID_LO (i : Nat) : Fld := ⟨R.RLK_PARTNER_ID_LO i, 0, 32⟩
abbrev F.RLK_EVENT (i : Nat) : Fld := ⟨R.RLK_EVENT i, 0, 11⟩
abbrev F.RLK_EVENT_EN (i : Nat) : Fld := ⟨R.RLK_EVENT_EN i, 0, 11⟩
abbrev F.RLK_CW_ERR (i : Nat) : Fld := ⟨R.RLK_CW_ERR i, 0, 32⟩
abbrev F.RLK_CODE_ERR (i : Nat) : Fld := ⟨R.RLK_CODE_ERR i, 0, 32⟩
abbrev F.RLK_FILL_EVT_repeated (i : Nat) : Fld := ⟨R.RLK_FILL_EVT i, 0, 16⟩
abbrev F.RLK_FILL_EVT_deleted (i : Nat) : Fld := ⟨R.RLK_FILL_EVT i, 16, 16⟩
abbrev F.RLK_MGT_TX_length (i : Nat) : Fld := ⟨R.RLK_MGT_TX i, 0, 10⟩
abbrev F.RLK_MGT_TX_first (i : Nat) : Fld := ⟨R.RLK_MGT_TX i, 14, 1⟩
abbrev F.RLK_MGT_TX_last (i : Nat) : Fld := ⟨R.RLK_MGT_TX i, 15, 1⟩
abbrev F.RLK_MGT_TX_send (i : Nat) : Fld := ⟨R.RLK_MGT_TX i, 16, 1⟩
abbrev F.RLK_MGT_RX_count (i : Nat) : Fld := ⟨R.RLK_MGT_RX i, 0, 3⟩
abbrev F.RLK_MGT_RX_head (i : Nat) : Fld := ⟨R.RLK_MGT_RX i, 4, 2⟩
abbrev F.RLK_MGT_RX_pop (i : Nat) : Fld := ⟨R.RLK_MGT_RX i, 8, 1⟩
abbrev F.RLK_MGT_DROP (i : Nat) : Fld := ⟨R.RLK_MGT_DROP i, 0, 32⟩
abbrev F.RLK_TUN_MAX_bytes (i : Nat) : Fld := ⟨R.RLK_TUN_MAX i, 0, 14⟩
abbrev F.RLK_PARTNER_TS (i : Nat) : Fld := ⟨R.RLK_PARTNER_TS i, 0, 32⟩
abbrev F.RLK_SRC_ID_HI : Fld := ⟨R.RLK_SRC_ID_HI, 0, 32⟩
abbrev F.RLK_SRC_ID_LO : Fld := ⟨R.RLK_SRC_ID_LO, 0, 32⟩
abbrev F.RLK_JUMP_TH_thresh : Fld := ⟨R.RLK_JUMP_TH, 0, 16⟩
abbrev F.RLK_UTC_offset : Fld := ⟨R.RLK_UTC, 0, 16⟩
abbrev F.RLK_UTC_leap61 : Fld := ⟨R.RLK_UTC, 16, 1⟩
abbrev F.RLK_UTC_leap59 : Fld := ⟨R.RLK_UTC, 17, 1⟩
abbrev F.FWD_HASH_SEED : Fld := ⟨R.FWD_HASH_SEED, 0, 32⟩
abbrev F.FWD_PART_EM_base (i : Nat) : Fld := ⟨R.FWD_PART_EM i, 0, 6⟩
abbrev F.FWD_PART_EM_size (i : Nat) : Fld := ⟨R.FWD_PART_EM i, 8, 6⟩
abbrev F.FWD_PART_TC_base (i : Nat) : Fld := ⟨R.FWD_PART_TC i, 0, 6⟩
abbrev F.FWD_PART_TC_size (i : Nat) : Fld := ⟨R.FWD_PART_TC i, 8, 6⟩
abbrev F.FWD_ECPRI_UDP_port : Fld := ⟨R.FWD_ECPRI_UDP, 0, 16⟩
abbrev F.FWD_ECPRI_UDP_enable : Fld := ⟨R.FWD_ECPRI_UDP, 16, 1⟩
abbrev F.FWD_EVENT : Fld := ⟨R.FWD_EVENT, 0, 5⟩
abbrev F.FWD_EVENT_EN : Fld := ⟨R.FWD_EVENT_EN, 0, 5⟩
abbrev F.FWD_DUP_IDX : Fld := ⟨R.FWD_DUP_IDX, 0, 17⟩
abbrev F.FWD_PORT_CFG_key_mode (i : Nat) : Fld := ⟨R.FWD_PORT_CFG i, 0, 2⟩
abbrev F.FWD_PORT_CFG_default_pcp (i : Nat) : Fld := ⟨R.FWD_PORT_CFG i, 4, 3⟩
abbrev F.FWD_PORT_CFG_pvid (i : Nat) : Fld := ⟨R.FWD_PORT_CFG i, 16, 12⟩
abbrev F.FWD_PORT_MISS_action (i : Nat) : Fld := ⟨R.FWD_PORT_MISS i, 0, 17⟩
abbrev F.FWD_PORT_HDR_DROP (i : Nat) : Fld := ⟨R.FWD_PORT_HDR_DROP i, 0, 32⟩
abbrev F.FWD_PORT_HDR_DEPTH (i : Nat) : Fld := ⟨R.FWD_PORT_HDR_DEPTH i, 0, 5⟩
abbrev F.FWD_CL_CFG_express (i : Nat) : Fld := ⟨R.FWD_CL_CFG i, 0, 4⟩
abbrev F.FWD_CL_CFG_adj_allowed (i : Nat) : Fld := ⟨R.FWD_CL_CFG i, 4, 1⟩
abbrev F.FWD_STEAL_CFG_enable (i : Nat) : Fld := ⟨R.FWD_STEAL_CFG i, 0, 1⟩
abbrev F.FWD_STEAL_CFG_adj (i : Nat) : Fld := ⟨R.FWD_STEAL_CFG i, 1, 1⟩
abbrev F.FWD_STEAL_CFG_idle_cycles (i : Nat) : Fld := ⟨R.FWD_STEAL_CFG i, 8, 8⟩
abbrev F.FWD_STEAL_CFG_min_depth (i : Nat) : Fld := ⟨R.FWD_STEAL_CFG i, 16, 5⟩
abbrev F.FWD_STEAL_CFG_recall (i : Nat) : Fld := ⟨R.FWD_STEAL_CFG i, 28, 1⟩
abbrev F.FWD_ENG_CTRL_retire (i : Nat) : Fld := ⟨R.FWD_ENG_CTRL i, 0, 12⟩
abbrev F.FWD_ENG_STATUS_retired (i : Nat) : Fld := ⟨R.FWD_ENG_STATUS i, 0, 12⟩
abbrev F.FWD_ENG_STATUS_idle (i : Nat) : Fld := ⟨R.FWD_ENG_STATUS i, 16, 12⟩
abbrev F.FWD_ENG_DEPTH (i : Nat) (j : Nat) (m : Nat) : Fld := ⟨R.FWD_ENG_DEPTH i j, 8 * m, 5⟩
abbrev F.FWD_CL_STEALS (i : Nat) : Fld := ⟨R.FWD_CL_STEALS i, 0, 32⟩
abbrev F.FWD_CL_BORROW_lent (i : Nat) : Fld := ⟨R.FWD_CL_BORROW i, 0, 13⟩
abbrev F.FWD_CL_BORROW_held (i : Nat) : Fld := ⟨R.FWD_CL_BORROW i, 16, 13⟩
abbrev F.BPM_POOL_BASE_cell (i : Nat) : Fld := ⟨R.BPM_POOL_BASE i, 0, 19⟩
abbrev F.BPM_POOL_CFG_buffers (i : Nat) : Fld := ⟨R.BPM_POOL_CFG i, 0, 19⟩
abbrev F.BPM_POOL_CFG_cells (i : Nat) : Fld := ⟨R.BPM_POOL_CFG i, 24, 6⟩
abbrev F.BPM_POOL_FREE_free (i : Nat) : Fld := ⟨R.BPM_POOL_FREE i, 0, 19⟩
abbrev F.BPM_POOL_FREE_low (i : Nat) : Fld := ⟨R.BPM_POOL_FREE i, 31, 1⟩
abbrev F.BPM_POOL_LOW_thresh (i : Nat) : Fld := ⟨R.BPM_POOL_LOW i, 0, 16⟩
abbrev F.BPM_POOL_MIN (i : Nat) : Fld := ⟨R.BPM_POOL_MIN i, 0, 19⟩
abbrev F.BPM_EVENT : Fld := ⟨R.BPM_EVENT, 0, 7⟩
abbrev F.BPM_EVENT_EN : Fld := ⟨R.BPM_EVENT_EN, 0, 7⟩
abbrev F.BPM_BAD_FREE_handle : Fld := ⟨R.BPM_BAD_FREE, 0, 21⟩
abbrev F.BPM_BAD_FREE_kind : Fld := ⟨R.BPM_BAD_FREE, 21, 1⟩
abbrev F.BPM_BAD_FREE_host : Fld := ⟨R.BPM_BAD_FREE, 22, 1⟩
abbrev F.BPM_BAD_FREE_tag : Fld := ⟨R.BPM_BAD_FREE, 24, 8⟩
abbrev F.BPM_BAD_FREE_CNT : Fld := ⟨R.BPM_BAD_FREE_CNT, 0, 32⟩
abbrev F.BPM_HOST_FREE_handle : Fld := ⟨R.BPM_HOST_FREE, 0, 21⟩
abbrev F.BPM_HOST_FREE_tag : Fld := ⟨R.BPM_HOST_FREE, 21, 8⟩
abbrev F.BPM_HOST_FREE_go : Fld := ⟨R.BPM_HOST_FREE, 31, 1⟩
abbrev F.BPM_MEM_CORR_CNT : Fld := ⟨R.BPM_MEM_CORR_CNT, 0, 32⟩
abbrev F.BPM_MEM_UNCORR_CELL : Fld := ⟨R.BPM_MEM_UNCORR_CELL, 0, 19⟩
abbrev F.BPM_QLIM_limit (i : Nat) (j : Nat) : Fld := ⟨R.BPM_QLIM i j, 0, 19⟩
abbrev F.BPM_QMARK_thresh (i : Nat) (j : Nat) : Fld := ⟨R.BPM_QMARK i j, 0, 19⟩
abbrev F.BPM_QMARK_dei_en (i : Nat) (j : Nat) : Fld := ⟨R.BPM_QMARK i j, 29, 1⟩
abbrev F.BPM_QMARK_ecn_en (i : Nat) (j : Nat) : Fld := ⟨R.BPM_QMARK i j, 30, 1⟩
abbrev F.BPM_PCLASS_default_pool (i : Nat) : Fld := ⟨R.BPM_PCLASS i, 0, 16⟩
abbrev F.BPM_PCLASS_spill (i : Nat) : Fld := ⟨R.BPM_PCLASS i, 16, 8⟩
abbrev F.BPM_QCELLS (i : Nat) (j : Nat) : Fld := ⟨R.BPM_QCELLS i j, 0, 19⟩
abbrev F.QSC_SK_CTRL_enable : Fld := ⟨R.QSC_SK_CTRL, 0, 1⟩
abbrev F.QSC_SK_EVENT : Fld := ⟨R.QSC_SK_EVENT, 0, 4⟩
abbrev F.QSC_SK_EVENT_EN : Fld := ⟨R.QSC_SK_EVENT_EN, 0, 4⟩
abbrev F.QSC_SK_LAST : Fld := ⟨R.QSC_SK_LAST, 0, 12⟩
abbrev F.QSC_SK_FILLING : Fld := ⟨R.QSC_SK_FILLING, 0, 13⟩
abbrev F.QSC_SCHED_strict (i : Nat) : Fld := ⟨R.QSC_SCHED i, 0, 8⟩
abbrev F.QSC_DWRR_quantum (i : Nat) (j : Nat) : Fld := ⟨R.QSC_DWRR i j, 0, 16⟩
abbrev F.QSC_FWD_MODE_ct (i : Nat) : Fld := ⟨R.QSC_FWD_MODE i, 0, 8⟩
abbrev F.QSC_FWD_MODE_express (i : Nat) : Fld := ⟨R.QSC_FWD_MODE i, 8, 8⟩
abbrev F.QSC_PREEMPT_enable (i : Nat) : Fld := ⟨R.QSC_PREEMPT i, 0, 1⟩
abbrev F.QSC_PREEMPT_verify_dis (i : Nat) : Fld := ⟨R.QSC_PREEMPT i, 1, 1⟩
abbrev F.QSC_PREEMPT_add_frag (i : Nat) : Fld := ⟨R.QSC_PREEMPT i, 2, 2⟩
abbrev F.QSC_PREEMPT_preemptable (i : Nat) : Fld := ⟨R.QSC_PREEMPT i, 8, 8⟩
abbrev F.QSC_PREEMPT_verify_state (i : Nat) : Fld := ⟨R.QSC_PREEMPT i, 16, 3⟩
abbrev F.QSC_PREEMPT_active (i : Nat) : Fld := ⟨R.QSC_PREEMPT i, 19, 1⟩
abbrev F.QSC_PREEMPT_verify_time (i : Nat) : Fld := ⟨R.QSC_PREEMPT i, 20, 7⟩
abbrev F.QSC_GCL_CTRL_enable (i : Nat) : Fld := ⟨R.QSC_GCL_CTRL i, 0, 1⟩
abbrev F.QSC_GCL_CTRL_admin_bank (i : Nat) : Fld := ⟨R.QSC_GCL_CTRL i, 1, 1⟩
abbrev F.QSC_GCL_CTRL_len (i : Nat) : Fld := ⟨R.QSC_GCL_CTRL i, 16, 9⟩
abbrev F.QSC_GCL_BASE_SEC_LO (i : Nat) : Fld := ⟨R.QSC_GCL_BASE_SEC_LO i, 0, 32⟩
abbrev F.QSC_GCL_BASE_SEC_HI (i : Nat) : Fld := ⟨R.QSC_GCL_BASE_SEC_HI i, 0, 16⟩
abbrev F.QSC_GCL_BASE_NS (i : Nat) : Fld := ⟨R.QSC_GCL_BASE_NS i, 0, 30⟩
abbrev F.QSC_GCL_CYCLE (i : Nat) : Fld := ⟨R.QSC_GCL_CYCLE i, 0, 30⟩
abbrev F.QSC_GCL_STATUS_oper_bank (i : Nat) : Fld := ⟨R.QSC_GCL_STATUS i, 0, 1⟩
abbrev F.QSC_GCL_STATUS_pending (i : Nat) : Fld := ⟨R.QSC_GCL_STATUS i, 1, 1⟩
abbrev F.QSC_GCL_STATUS_running (i : Nat) : Fld := ⟨R.QSC_GCL_STATUS i, 2, 1⟩
abbrev F.QSC_GCL_STATUS_entry (i : Nat) : Fld := ⟨R.QSC_GCL_STATUS i, 8, 8⟩
abbrev F.QSC_LAUNCH_late_send (i : Nat) : Fld := ⟨R.QSC_LAUNCH i, 0, 8⟩
abbrev F.QSC_LAUNCH_horizon (i : Nat) : Fld := ⟨R.QSC_LAUNCH i, 16, 16⟩
abbrev F.QSC_FLUSH (i : Nat) : Fld := ⟨R.QSC_FLUSH i, 0, 8⟩
abbrev F.QSC_EVENT (i : Nat) : Fld := ⟨R.QSC_EVENT i, 0, 7⟩
abbrev F.QSC_EVENT_EN (i : Nat) : Fld := ⟨R.QSC_EVENT_EN i, 0, 7⟩
abbrev F.QSC_STOMP_reason (i : Nat) : Fld := ⟨R.QSC_STOMP i, 0, 8⟩
abbrev F.QSC_QFRAMES (i : Nat) (j : Nat) : Fld := ⟨R.QSC_QFRAMES i j, 0, 16⟩
abbrev F.TBS_CTRL_rx_hdr : Fld := ⟨R.TBS_CTRL, 0, 1⟩
abbrev F.TBS_CTRL_allow_host_step : Fld := ⟨R.TBS_CTRL, 1, 1⟩
abbrev F.TBS_STATUS_counting : Fld := ⟨R.TBS_STATUS, 0, 1⟩
abbrev F.TBS_STATUS_ff_active : Fld := ⟨R.TBS_STATUS, 1, 1⟩
abbrev F.TBS_STATUS_slewing : Fld := ⟨R.TBS_STATUS, 2, 1⟩
abbrev F.TBS_STATUS_epoch : Fld := ⟨R.TBS_STATUS, 8, 8⟩
abbrev F.TBS_SNAP_snap : Fld := ⟨R.TBS_SNAP, 0, 1⟩
abbrev F.TBS_SNAP_FRAC : Fld := ⟨R.TBS_SNAP_FRAC, 0, 16⟩
abbrev F.TBS_SNAP_NS : Fld := ⟨R.TBS_SNAP_NS, 0, 30⟩
abbrev F.TBS_SNAP_SEC_LO : Fld := ⟨R.TBS_SNAP_SEC_LO, 0, 32⟩
abbrev F.TBS_SNAP_SEC_HI_sec : Fld := ⟨R.TBS_SNAP_SEC_HI, 0, 16⟩
abbrev F.TBS_SNAP_SEC_HI_epoch : Fld := ⟨R.TBS_SNAP_SEC_HI, 24, 8⟩
abbrev F.TBS_ADJ_CTRL_op : Fld := ⟨R.TBS_ADJ_CTRL, 0, 2⟩
abbrev F.TBS_ADJ_FRAC : Fld := ⟨R.TBS_ADJ_FRAC, 0, 16⟩
abbrev F.TBS_ADJ_NS_ns : Fld := ⟨R.TBS_ADJ_NS, 0, 30⟩
abbrev F.TBS_ADJ_NS_neg : Fld := ⟨R.TBS_ADJ_NS, 31, 1⟩
abbrev F.TBS_ADJ_SEC_LO : Fld := ⟨R.TBS_ADJ_SEC_LO, 0, 32⟩
abbrev F.TBS_ADJ_SEC_HI : Fld := ⟨R.TBS_ADJ_SEC_HI, 0, 16⟩
abbrev F.TBS_SLEW_RATE : Fld := ⟨R.TBS_SLEW_RATE, 0, 16⟩
abbrev F.TBS_SLEW_LEFT : Fld := ⟨R.TBS_SLEW_LEFT, 0, 32⟩
abbrev F.TBS_AGE_RATE : Fld := ⟨R.TBS_AGE_RATE, 0, 16⟩
abbrev F.TBS_FF : Fld := ⟨R.TBS_FF, 0, 32⟩
abbrev F.TBS_AGE_ACC : Fld := ⟨R.TBS_AGE_ACC, 0, 32⟩
abbrev F.TBS_EVENT : Fld := ⟨R.TBS_EVENT, 0, 7⟩
abbrev F.TBS_EVENT_EN : Fld := ⟨R.TBS_EVENT_EN, 0, 7⟩
abbrev F.TBS_TXQ_E0_ts_id : Fld := ⟨R.TBS_TXQ_E0, 0, 16⟩
abbrev F.TBS_TXQ_E0_frac : Fld := ⟨R.TBS_TXQ_E0, 16, 16⟩
abbrev F.TBS_TXQ_E1_ns : Fld := ⟨R.TBS_TXQ_E1, 0, 30⟩
abbrev F.TBS_TXQ_E1_sent : Fld := ⟨R.TBS_TXQ_E1, 30, 1⟩
abbrev F.TBS_TXQ_E1_time_valid : Fld := ⟨R.TBS_TXQ_E1, 31, 1⟩
abbrev F.TBS_TXQ_E2 : Fld := ⟨R.TBS_TXQ_E2, 0, 32⟩
abbrev F.TBS_TXQ_E3_sec : Fld := ⟨R.TBS_TXQ_E3, 0, 16⟩
abbrev F.TBS_TXQ_E3_port : Fld := ⟨R.TBS_TXQ_E3, 16, 7⟩
abbrev F.TBS_TXQ_E3_present : Fld := ⟨R.TBS_TXQ_E3, 23, 1⟩
abbrev F.TBS_TXQ_E3_epoch : Fld := ⟨R.TBS_TXQ_E3, 24, 8⟩
abbrev F.TBS_TXQ_POP_pop : Fld := ⟨R.TBS_TXQ_POP, 0, 1⟩
abbrev F.TBS_TXQ_COUNT : Fld := ⟨R.TBS_TXQ_COUNT, 0, 11⟩
abbrev F.TBS_PTP_CFG_tc_mode (i : Nat) : Fld := ⟨R.TBS_PTP_CFG i, 0, 2⟩
abbrev F.TBS_PTP_CFG_eth (i : Nat) : Fld := ⟨R.TBS_PTP_CFG i, 2, 1⟩
abbrev F.TBS_PTP_CFG_udp (i : Nat) : Fld := ⟨R.TBS_PTP_CFG i, 3, 1⟩
abbrev F.TBS_PTP_CFG_tc_auth (i : Nat) : Fld := ⟨R.TBS_PTP_CFG i, 4, 1⟩
abbrev F.TBS_RX_ADJ (i : Nat) : Fld := ⟨R.TBS_RX_ADJ i, 0, 32⟩
abbrev F.TBS_TX_ADJ (i : Nat) : Fld := ⟨R.TBS_TX_ADJ i, 0, 32⟩
abbrev F.TBS_P2P_DELAY (i : Nat) : Fld := ⟨R.TBS_P2P_DELAY i, 0, 32⟩
abbrev F.TBS_RX_FIXED (i : Nat) : Fld := ⟨R.TBS_RX_FIXED i, 0, 32⟩
abbrev F.TBS_TX_FIXED (i : Nat) : Fld := ⟨R.TBS_TX_FIXED i, 0, 32⟩
abbrev F.TBS_TXQ_QUOTA_quota (i : Nat) : Fld := ⟨R.TBS_TXQ_QUOTA i, 0, 11⟩
abbrev F.TBS_TXQ_QUOTA_used (i : Nat) : Fld := ⟨R.TBS_TXQ_QUOTA i, 16, 11⟩
abbrev F.TBS_TXQ_DROP_last_id (i : Nat) : Fld := ⟨R.TBS_TXQ_DROP i, 0, 16⟩
abbrev F.TBS_TXQ_DROP_ovf (i : Nat) : Fld := ⟨R.TBS_TXQ_DROP i, 31, 1⟩
abbrev F.TBS_TXQ_DROP_CNT (i : Nat) : Fld := ⟨R.TBS_TXQ_DROP_CNT i, 0, 32⟩
abbrev F.TDC_CFG_mode (i : Nat) : Fld := ⟨R.TDC_CFG i, 0, 2⟩
abbrev F.TDC_CFG_falling (i : Nat) : Fld := ⟨R.TDC_CFG i, 2, 1⟩
abbrev F.TDC_CFG_interval (i : Nat) : Fld := ⟨R.TDC_CFG i, 16, 16⟩
abbrev F.TDC_STATUS_trimmed (i : Nat) : Fld := ⟨R.TDC_STATUS i, 0, 1⟩
abbrev F.TDC_STATUS_fault (i : Nat) : Fld := ⟨R.TDC_STATUS i, 1, 1⟩
abbrev F.TDC_STATUS_trimming (i : Nat) : Fld := ⟨R.TDC_STATUS i, 2, 1⟩
abbrev F.TDC_STATUS_fails (i : Nat) : Fld := ⟨R.TDC_STATUS i, 4, 2⟩
abbrev F.TDC_STATUS_trim_epoch (i : Nat) : Fld := ⟨R.TDC_STATUS i, 8, 8⟩
abbrev F.TDC_RES_LO_frac (i : Nat) : Fld := ⟨R.TDC_RES_LO i, 0, 16⟩
abbrev F.TDC_RES_LO_sec (i : Nat) : Fld := ⟨R.TDC_RES_LO i, 16, 8⟩
abbrev F.TDC_RES_LO_epoch (i : Nat) : Fld := ⟨R.TDC_RES_LO i, 24, 8⟩
abbrev F.TDC_RES_HI_ns (i : Nat) : Fld := ⟨R.TDC_RES_HI i, 0, 30⟩
abbrev F.TDC_RES_HI_retried (i : Nat) : Fld := ⟨R.TDC_RES_HI i, 30, 1⟩
abbrev F.TDC_RES_HI_valid (i : Nat) : Fld := ⟨R.TDC_RES_HI i, 31, 1⟩
abbrev F.TDC_RES_CNT (i : Nat) : Fld := ⟨R.TDC_RES_CNT i, 0, 32⟩
abbrev F.TDC_SKIP_CNT (i : Nat) : Fld := ⟨R.TDC_SKIP_CNT i, 0, 32⟩
abbrev F.TDC_RETRY_CNT (i : Nat) : Fld := ⟨R.TDC_RETRY_CNT i, 0, 32⟩
abbrev F.TDC_CAL_c1 (i : Nat) : Fld := ⟨R.TDC_CAL i, 0, 12⟩
abbrev F.TDC_CAL_c2 (i : Nat) : Fld := ⟨R.TDC_CAL i, 16, 12⟩
abbrev F.TDC_TRIM_c1_nom (i : Nat) : Fld := ⟨R.TDC_TRIM i, 0, 12⟩
abbrev F.TDC_TRIM_c2_nom (i : Nat) : Fld := ⟨R.TDC_TRIM i, 16, 12⟩
abbrev F.TDC_TRIM_CM_LO (i : Nat) : Fld := ⟨R.TDC_TRIM_CM_LO i, 0, 32⟩
abbrev F.TDC_TRIM_CM_HI (i : Nat) : Fld := ⟨R.TDC_TRIM_CM_HI i, 0, 4⟩
abbrev F.TDC_TRIM_VM (i : Nat) : Fld := ⟨R.TDC_TRIM_VM i, 0, 30⟩
abbrev F.TDC_TRIM_REQ (i : Nat) : Fld := ⟨R.TDC_TRIM_REQ i, 0, 32⟩
abbrev F.TDC_FAULT (i : Nat) : Fld := ⟨R.TDC_FAULT i, 0, 32⟩
abbrev F.TDC_EVENT : Fld := ⟨R.TDC_EVENT, 0, 4⟩
abbrev F.TDC_EVENT_EN : Fld := ⟨R.TDC_EVENT_EN, 0, 4⟩
abbrev F.TDC_LAST_CH : Fld := ⟨R.TDC_LAST_CH, 0, 7⟩
abbrev F.PHX_CTRL_enable : Fld := ⟨R.PHX_CTRL, 0, 1⟩
abbrev F.PHX_CTRL_summit : Fld := ⟨R.PHX_CTRL, 1, 1⟩
abbrev F.PHX_CTRL_hops : Fld := ⟨R.PHX_CTRL, 8, 8⟩
abbrev F.PHX_SA_HI : Fld := ⟨R.PHX_SA_HI, 0, 32⟩
abbrev F.PHX_SA_LO : Fld := ⟨R.PHX_SA_LO, 0, 16⟩
abbrev F.PHX_CAL_CTRL_link : Fld := ⟨R.PHX_CAL_CTRL, 0, 7⟩
abbrev F.PHX_CAL_CTRL_target : Fld := ⟨R.PHX_CAL_CTRL, 8, 1⟩
abbrev F.PHX_CAL_CTRL_chan : Fld := ⟨R.PHX_CAL_CTRL, 16, 7⟩
abbrev F.PHX_CAL_CTRL_start : Fld := ⟨R.PHX_CAL_CTRL, 31, 1⟩
abbrev F.PHX_CAL_LEN : Fld := ⟨R.PHX_CAL_LEN, 0, 12⟩
abbrev F.PHX_CAL_CABLE : Fld := ⟨R.PHX_CAL_CABLE, 0, 32⟩
abbrev F.PHX_CAL_STATUS_state : Fld := ⟨R.PHX_CAL_STATUS, 0, 2⟩
abbrev F.PHX_CAL_STATUS_reason : Fld := ⟨R.PHX_CAL_STATUS, 4, 4⟩
abbrev F.PHX_CAL_STATUS_samples : Fld := ⟨R.PHX_CAL_STATUS, 16, 12⟩
abbrev F.PHX_CAL_ERR_LO : Fld := ⟨R.PHX_CAL_ERR_LO, 0, 32⟩
abbrev F.PHX_CAL_ERR_HI : Fld := ⟨R.PHX_CAL_ERR_HI, 0, 32⟩
abbrev F.PHX_CAL_RESULT : Fld := ⟨R.PHX_CAL_RESULT, 0, 32⟩
abbrev F.PHX_EVENT : Fld := ⟨R.PHX_EVENT, 0, 2⟩
abbrev F.PHX_EVENT_EN : Fld := ⟨R.PHX_EVENT_EN, 0, 2⟩
abbrev F.PHX_CFG_enable (i : Nat) : Fld := ⟨R.PHX_CFG i, 0, 1⟩
abbrev F.PHX_CFG_rpt_interval (i : Nat) : Fld := ⟨R.PHX_CFG i, 4, 4⟩
abbrev F.PHX_CFG_avg (i : Nat) : Fld := ⟨R.PHX_CFG i, 8, 4⟩
abbrev F.PHX_CFG_timeout (i : Nat) : Fld := ⟨R.PHX_CFG i, 12, 4⟩
abbrev F.PHX_CFG_jump_th (i : Nat) : Fld := ⟨R.PHX_CFG i, 16, 12⟩
abbrev F.PHX_ASYM (i : Nat) : Fld := ⟨R.PHX_ASYM i, 0, 32⟩
abbrev F.PHX_ASYM_FIX (i : Nat) : Fld := ⟨R.PHX_ASYM_FIX i, 0, 32⟩
abbrev F.PHX_STATUS_state (i : Nat) : Fld := ⟨R.PHX_STATUS i, 0, 3⟩
abbrev F.PHX_STATUS_freq_ok (i : Nat) : Fld := ⟨R.PHX_STATUS i, 3, 1⟩
abbrev F.PHX_STATUS_rtt_valid (i : Nat) : Fld := ⟨R.PHX_STATUS i, 4, 1⟩
abbrev F.PHX_STATUS_offset_valid (i : Nat) : Fld := ⟨R.PHX_STATUS i, 5, 1⟩
abbrev F.PHX_STATUS_downstream (i : Nat) : Fld := ⟨R.PHX_STATUS i, 6, 1⟩
abbrev F.PHX_STATUS_asym_mismatch (i : Nat) : Fld := ⟨R.PHX_STATUS i, 7, 1⟩
abbrev F.PHX_STATUS_partner_hops (i : Nat) : Fld := ⟨R.PHX_STATUS i, 8, 8⟩
abbrev F.PHX_STATUS_partner_epoch (i : Nat) : Fld := ⟨R.PHX_STATUS i, 16, 8⟩
abbrev F.PHX_STATUS_acq_epoch (i : Nat) : Fld := ⟨R.PHX_STATUS i, 24, 8⟩
abbrev F.PHX_RTT_LO (i : Nat) : Fld := ⟨R.PHX_RTT_LO i, 0, 32⟩
abbrev F.PHX_RTT_HI (i : Nat) : Fld := ⟨R.PHX_RTT_HI i, 0, 32⟩
abbrev F.PHX_DELAY_LO (i : Nat) : Fld := ⟨R.PHX_DELAY_LO i, 0, 32⟩
abbrev F.PHX_DELAY_HI (i : Nat) : Fld := ⟨R.PHX_DELAY_HI i, 0, 32⟩
abbrev F.PHX_OFFSET_LO (i : Nat) : Fld := ⟨R.PHX_OFFSET_LO i, 0, 32⟩
abbrev F.PHX_OFFSET_HI (i : Nat) : Fld := ⟨R.PHX_OFFSET_HI i, 0, 32⟩
abbrev F.PHX_FREQ (i : Nat) : Fld := ⟨R.PHX_FREQ i, 0, 32⟩
abbrev F.PHX_GRID (i : Nat) : Fld := ⟨R.PHX_GRID i, 0, 20⟩
abbrev F.PHX_PARTNER_GRID (i : Nat) : Fld := ⟨R.PHX_PARTNER_GRID i, 0, 20⟩
abbrev F.PHX_PARTNER_ID_HI (i : Nat) : Fld := ⟨R.PHX_PARTNER_ID_HI i, 0, 32⟩
abbrev F.PHX_PARTNER_ID_LO (i : Nat) : Fld := ⟨R.PHX_PARTNER_ID_LO i, 0, 32⟩
abbrev F.PHX_PARTNER_ASYM (i : Nat) : Fld := ⟨R.PHX_PARTNER_ASYM i, 0, 32⟩
abbrev F.PHX_RPT_CNT (i : Nat) : Fld := ⟨R.PHX_RPT_CNT i, 0, 32⟩
abbrev F.PHX_RPT_ERR (i : Nat) : Fld := ⟨R.PHX_RPT_ERR i, 0, 32⟩
abbrev F.PHX_AMBIG (i : Nat) : Fld := ⟨R.PHX_AMBIG i, 0, 32⟩
abbrev F.PHX_JUMP_CNT (i : Nat) : Fld := ⟨R.PHX_JUMP_CNT i, 0, 32⟩
abbrev F.PHX_EVENT_k (i : Nat) : Fld := ⟨R.PHX_EVENT_k i, 0, 8⟩
abbrev F.PHX_EVENT_EN_k (i : Nat) : Fld := ⟨R.PHX_EVENT_EN_k i, 0, 8⟩
abbrev F.REF_CTRL_phase : Fld := ⟨R.REF_CTRL, 0, 2⟩
abbrev F.REF_CTRL_auto_service : Fld := ⟨R.REF_CTRL, 4, 1⟩
abbrev F.REF_CTRL_trust_none : Fld := ⟨R.REF_CTRL, 8, 1⟩
abbrev F.REF_AUTO_TIME : Fld := ⟨R.REF_AUTO_TIME, 0, 16⟩
abbrev F.REF_DIS_LIMIT : Fld := ⟨R.REF_DIS_LIMIT, 0, 10⟩
abbrev F.REF_FORCE_t_slot : Fld := ⟨R.REF_FORCE, 0, 5⟩
abbrev F.REF_FORCE_t_en : Fld := ⟨R.REF_FORCE, 7, 1⟩
abbrev F.REF_FORCE_f_slot : Fld := ⟨R.REF_FORCE, 8, 5⟩
abbrev F.REF_FORCE_f_en : Fld := ⟨R.REF_FORCE, 15, 1⟩
abbrev F.REF_EVENT : Fld := ⟨R.REF_EVENT, 0, 8⟩
abbrev F.REF_EVENT_EN : Fld := ⟨R.REF_EVENT_EN, 0, 8⟩
abbrev F.REF_LAST_SLOT : Fld := ⟨R.REF_LAST_SLOT, 0, 5⟩
abbrev F.REF_QUAL : Fld := ⟨R.REF_QUAL, 0, 32⟩
abbrev F.REF_DISAGREE : Fld := ⟨R.REF_DISAGREE, 0, 32⟩
abbrev F.REF_PTP_OFS_LO : Fld := ⟨R.REF_PTP_OFS_LO, 0, 32⟩
abbrev F.REF_PTP_OFS_HI : Fld := ⟨R.REF_PTP_OFS_HI, 0, 32⟩
abbrev F.REF_PTP_AT_NS : Fld := ⟨R.REF_PTP_AT_NS, 0, 30⟩
abbrev F.REF_PTP_AT_SEC_LO : Fld := ⟨R.REF_PTP_AT_SEC_LO, 0, 32⟩
abbrev F.REF_PTP_AT_SEC_HI : Fld := ⟨R.REF_PTP_AT_SEC_HI, 0, 16⟩
abbrev F.REF_PTP_CTRL_post : Fld := ⟨R.REF_PTP_CTRL, 0, 1⟩
abbrev F.REF_PTP_CFG_timeout : Fld := ⟨R.REF_PTP_CFG, 0, 16⟩
abbrev F.REF_PTP_CFG_jump_th : Fld := ⟨R.REF_PTP_CFG, 16, 16⟩
abbrev F.REF_PTP_CNT_accepted : Fld := ⟨R.REF_PTP_CNT, 0, 16⟩
abbrev F.REF_PTP_CNT_rejected : Fld := ⟨R.REF_PTP_CNT, 16, 16⟩
abbrev F.REF_IN_CFG_enable (i : Nat) : Fld := ⟨R.REF_IN_CFG i, 0, 1⟩
abbrev F.REF_IN_CFG_type (i : Nat) : Fld := ⟨R.REF_IN_CFG i, 1, 2⟩
abbrev F.REF_IN_CFG_se (i : Nat) : Fld := ⟨R.REF_IN_CFG i, 3, 1⟩
abbrev F.REF_IN_CFG_div (i : Nat) : Fld := ⟨R.REF_IN_CFG i, 16, 16⟩
abbrev F.REF_IN_NOM (i : Nat) : Fld := ⟨R.REF_IN_NOM i, 0, 30⟩
abbrev F.REF_IN_PERIOD (i : Nat) : Fld := ⟨R.REF_IN_PERIOD i, 0, 30⟩
abbrev F.REF_IN_DELAY (i : Nat) : Fld := ⟨R.REF_IN_DELAY i, 0, 32⟩
abbrev F.REF_IN_WINDOW (i : Nat) : Fld := ⟨R.REF_IN_WINDOW i, 0, 16⟩
abbrev F.REF_SLOT_CFG_cand (i : Nat) : Fld := ⟨R.REF_SLOT_CFG i, 0, 7⟩
abbrev F.REF_SLOT_CFG_rank (i : Nat) : Fld := ⟨R.REF_SLOT_CFG i, 8, 4⟩
abbrev F.REF_SLOT_CFG_revertive (i : Nat) : Fld := ⟨R.REF_SLOT_CFG i, 12, 1⟩
abbrev F.REF_SLOT_CFG_dpll (i : Nat) : Fld := ⟨R.REF_SLOT_CFG i, 13, 1⟩
abbrev F.REF_SLOT_CFG_kind (i : Nat) : Fld := ⟨R.REF_SLOT_CFG i, 14, 1⟩
abbrev F.REF_SLOT_ACC (i : Nat) : Fld := ⟨R.REF_SLOT_ACC i, 0, 20⟩
abbrev F.REF_SLOT_REJ (i : Nat) : Fld := ⟨R.REF_SLOT_REJ i, 0, 20⟩
abbrev F.REF_SLOT_TIME_acc_time (i : Nat) : Fld := ⟨R.REF_SLOT_TIME i, 0, 16⟩
abbrev F.REF_SLOT_TIME_disq_time (i : Nat) : Fld := ⟨R.REF_SLOT_TIME i, 16, 16⟩
abbrev F.REF_SLOT_WTR (i : Nat) : Fld := ⟨R.REF_SLOT_WTR i, 0, 12⟩
abbrev F.REF_SLOT_STAT_state (i : Nat) : Fld := ⟨R.REF_SLOT_STAT i, 0, 3⟩
abbrev F.REF_SLOT_STAT_reason (i : Nat) : Fld := ⟨R.REF_SLOT_STAT i, 4, 4⟩
abbrev F.REF_SLOT_STAT_disagree (i : Nat) : Fld := ⟨R.REF_SLOT_STAT i, 8, 1⟩
abbrev F.REF_SLOT_STAT_followed (i : Nat) : Fld := ⟨R.REF_SLOT_STAT i, 9, 1⟩
abbrev F.REF_SLOT_STAT_kind_eff (i : Nat) : Fld := ⟨R.REF_SLOT_STAT i, 10, 1⟩
abbrev F.REF_SLOT_STAT_freq_valid (i : Nat) : Fld := ⟨R.REF_SLOT_STAT i, 11, 1⟩
abbrev F.REF_SLOT_STAT_disq_cnt (i : Nat) : Fld := ⟨R.REF_SLOT_STAT i, 16, 8⟩
abbrev F.REF_SLOT_FREQ (i : Nat) : Fld := ⟨R.REF_SLOT_FREQ i, 0, 32⟩
abbrev F.REF_SLOT_TIMER (i : Nat) : Fld := ⟨R.REF_SLOT_TIMER i, 0, 26⟩
abbrev F.DPL_CFG_step_first (i : Nat) : Fld := ⟨R.DPL_CFG i, 0, 1⟩
abbrev F.DPL_BW (i : Nat) : Fld := ⟨R.DPL_BW i, 0, 17⟩
abbrev F.DPL_SLOPE (i : Nat) : Fld := ⟨R.DPL_SLOPE i, 0, 17⟩
abbrev F.DPL_LOCK_window (i : Nat) : Fld := ⟨R.DPL_LOCK i, 0, 16⟩
abbrev F.DPL_LOCK_time (i : Nat) : Fld := ⟨R.DPL_LOCK i, 16, 16⟩
abbrev F.DPL_STATUS_state (i : Nat) : Fld := ⟨R.DPL_STATUS i, 0, 3⟩
abbrev F.DPL_STATUS_transfer (i : Nat) : Fld := ⟨R.DPL_STATUS i, 3, 1⟩
abbrev F.DPL_STATUS_slot (i : Nat) : Fld := ⟨R.DPL_STATUS i, 8, 5⟩
abbrev F.DPL_STATUS_slot_valid (i : Nat) : Fld := ⟨R.DPL_STATUS i, 15, 1⟩
abbrev F.DPL_STATUS_alarmed (i : Nat) : Fld := ⟨R.DPL_STATUS i, 16, 5⟩
abbrev F.DPL_STATUS_alarmed_valid (i : Nat) : Fld := ⟨R.DPL_STATUS i, 23, 1⟩
abbrev F.DPL_PHASE_ERR (i : Nat) : Fld := ⟨R.DPL_PHASE_ERR i, 0, 32⟩
abbrev F.DPL_STEER (i : Nat) : Fld := ⟨R.DPL_STEER i, 0, 32⟩
abbrev F.DPL_EVENT (i : Nat) : Fld := ⟨R.DPL_EVENT i, 0, 3⟩
abbrev F.DPL_EVENT_EN (i : Nat) : Fld := ⟨R.DPL_EVENT_EN i, 0, 3⟩
abbrev F.DPL_HO_CFG_window (i : Nat) : Fld := ⟨R.DPL_HO_CFG i, 0, 11⟩
abbrev F.DPL_HO_CFG_offset (i : Nat) : Fld := ⟨R.DPL_HO_CFG i, 16, 12⟩
abbrev F.DPL_HO_CFG_comp_en (i : Nat) : Fld := ⟨R.DPL_HO_CFG i, 28, 1⟩
abbrev F.DPL_HO_CFG_ret_step (i : Nat) : Fld := ⟨R.DPL_HO_CFG i, 29, 1⟩
abbrev F.DPL_HO_RET_slew (i : Nat) : Fld := ⟨R.DPL_HO_RET i, 0, 16⟩
abbrev F.DPL_HO_STEP_TH (i : Nat) : Fld := ⟨R.DPL_HO_STEP_TH i, 0, 32⟩
abbrev F.DPL_HO_VALUE (i : Nat) : Fld := ⟨R.DPL_HO_VALUE i, 0, 32⟩
abbrev F.DPL_HO_BASIC (i : Nat) : Fld := ⟨R.DPL_HO_BASIC i, 0, 32⟩
abbrev F.DPL_HO_TEMP (i : Nat) : Fld := ⟨R.DPL_HO_TEMP i, 0, 32⟩
abbrev F.DPL_HO_STATUS_source (i : Nat) : Fld := ⟨R.DPL_HO_STATUS i, 0, 2⟩
abbrev F.DPL_HO_STATUS_comp (i : Nat) : Fld := ⟨R.DPL_HO_STATUS i, 4, 1⟩
abbrev F.DPL_HO_STATUS_returning (i : Nat) : Fld := ⟨R.DPL_HO_STATUS i, 5, 1⟩
abbrev F.DPL_HO_STATUS_temp_stale (i : Nat) : Fld := ⟨R.DPL_HO_STATUS i, 6, 1⟩
abbrev F.DPL_HO_STATUS_valid (i : Nat) : Fld := ⟨R.DPL_HO_STATUS i, 16, 16⟩
abbrev F.DPL_HO_ELAPSED (i : Nat) : Fld := ⟨R.DPL_HO_ELAPSED i, 0, 32⟩
abbrev F.DPL_HO_RET_LEFT (i : Nat) : Fld := ⟨R.DPL_HO_RET_LEFT i, 0, 32⟩
abbrev F.DPL_HO_ANCHOR (i : Nat) : Fld := ⟨R.DPL_HO_ANCHOR i, 0, 16⟩
abbrev F.DPL_LRN_CTRL_enable : Fld := ⟨R.DPL_LRN_CTRL, 0, 1⟩
abbrev F.DPL_LRN_CTRL_temp_src : Fld := ⟨R.DPL_LRN_CTRL, 1, 1⟩
abbrev F.DPL_LRN_CTRL_clear : Fld := ⟨R.DPL_LRN_CTRL, 8, 1⟩
abbrev F.DPL_LRN_STATUS_model_valid : Fld := ⟨R.DPL_LRN_STATUS, 0, 1⟩
abbrev F.DPL_LRN_STATUS_order : Fld := ⟨R.DPL_LRN_STATUS, 1, 2⟩
abbrev F.DPL_LRN_STATUS_extrap : Fld := ⟨R.DPL_LRN_STATUS, 4, 1⟩
abbrev F.DPL_LRN_STATUS_load_err : Fld := ⟨R.DPL_LRN_STATUS, 5, 1⟩
abbrev F.DPL_LRN_STATUS_minutes : Fld := ⟨R.DPL_LRN_STATUS, 16, 16⟩
abbrev F.DPL_LRN_TEMP : Fld := ⟨R.DPL_LRN_TEMP, 0, 16⟩
abbrev F.DPL_LRN_TEMP_IN : Fld := ⟨R.DPL_LRN_TEMP_IN, 0, 16⟩
abbrev F.DPL_LRN_TREF : Fld := ⟨R.DPL_LRN_TREF, 0, 16⟩
abbrev F.DPL_LRN_K1 : Fld := ⟨R.DPL_LRN_K1, 0, 32⟩
abbrev F.DPL_LRN_K2 : Fld := ⟨R.DPL_LRN_K2, 0, 32⟩
abbrev F.DPL_LRN_SLOPE : Fld := ⟨R.DPL_LRN_SLOPE, 0, 32⟩
abbrev F.DPL_LRN_RESID : Fld := ⟨R.DPL_LRN_RESID, 0, 32⟩
abbrev F.DPL_LRN_RD_IDX : Fld := ⟨R.DPL_LRN_RD_IDX, 0, 16⟩
abbrev F.DPL_LRN_RD_DATA : Fld := ⟨R.DPL_LRN_RD_DATA, 0, 32⟩
abbrev F.DPL_LRN_EVENT : Fld := ⟨R.DPL_LRN_EVENT, 0, 4⟩
abbrev F.DPL_LRN_EVENT_EN : Fld := ⟨R.DPL_LRN_EVENT_EN, 0, 4⟩
abbrev F.SYN_CTRL_retarget : Fld := ⟨R.SYN_CTRL, 0, 1⟩
abbrev F.SYN_CTRL_relock : Fld := ⟨R.SYN_CTRL, 1, 1⟩
abbrev F.SYN_CFG_relock_tries : Fld := ⟨R.SYN_CFG, 0, 4⟩
abbrev F.SYN_CFG_relock_int : Fld := ⟨R.SYN_CFG, 8, 8⟩
abbrev F.SYN_STATUS_root_lock : Fld := ⟨R.SYN_STATUS, 0, 1⟩
abbrev F.SYN_STATUS_on_backup : Fld := ⟨R.SYN_STATUS, 1, 1⟩
abbrev F.SYN_STATUS_busy : Fld := ⟨R.SYN_STATUS, 2, 1⟩
abbrev F.SYN_STATUS_band : Fld := ⟨R.SYN_STATUS, 8, 6⟩
abbrev F.SYN_STATUS_entry : Fld := ⟨R.SYN_STATUS, 16, 6⟩
abbrev F.SYN_STATUS_tries_left : Fld := ⟨R.SYN_STATUS, 24, 4⟩
abbrev F.SYN_PLAN_time_less : Fld := ⟨R.SYN_PLAN, 0, 1⟩
abbrev F.SYN_PLAN_band_otp : Fld := ⟨R.SYN_PLAN, 1, 1⟩
abbrev F.SYN_SSC_AUX_mode : Fld := ⟨R.SYN_SSC_AUX, 0, 2⟩
abbrev F.SYN_SSC_AUX_depth : Fld := ⟨R.SYN_SSC_AUX, 8, 6⟩
abbrev F.SYN_SSC_CORE_mode : Fld := ⟨R.SYN_SSC_CORE, 0, 2⟩
abbrev F.SYN_SSC_CORE_depth : Fld := ⟨R.SYN_SSC_CORE, 8, 6⟩
abbrev F.SYN_EVENT : Fld := ⟨R.SYN_EVENT, 0, 6⟩
abbrev F.SYN_EVENT_EN : Fld := ⟨R.SYN_EVENT_EN, 0, 6⟩
abbrev F.SYN_FAIL_reason : Fld := ⟨R.SYN_FAIL, 0, 2⟩
abbrev F.SYN_FAIL_entry : Fld := ⟨R.SYN_FAIL, 8, 6⟩
abbrev F.SYN_LANE_int (i : Nat) : Fld := ⟨R.SYN_LANE i, 0, 8⟩
abbrev F.SYN_LANE_num (i : Nat) : Fld := ⟨R.SYN_LANE i, 8, 12⟩
abbrev F.SYN_BAND_LO_low_khz (i : Nat) : Fld := ⟨R.SYN_BAND_LO i, 0, 24⟩
abbrev F.SYN_BAND_LO_code (i : Nat) : Fld := ⟨R.SYN_BAND_LO i, 24, 6⟩
abbrev F.SYN_BAND_LO_valid (i : Nat) : Fld := ⟨R.SYN_BAND_LO i, 31, 1⟩
abbrev F.SYN_BAND_HI_high_khz (i : Nat) : Fld := ⟨R.SYN_BAND_HI i, 0, 24⟩
abbrev F.SYN_OTP_BAND_LO (i : Nat) : Fld := ⟨R.SYN_OTP_BAND_LO i, 0, 32⟩
abbrev F.SYN_OTP_BAND_HI (i : Nat) : Fld := ⟨R.SYN_OTP_BAND_HI i, 0, 32⟩
abbrev F.OUT_CTRL_park : Fld := ⟨R.OUT_CTRL, 0, 16⟩
abbrev F.OUT_STATUS_parked : Fld := ⟨R.OUT_STATUS, 0, 16⟩
abbrev F.OUT_EVENT : Fld := ⟨R.OUT_EVENT, 0, 4⟩
abbrev F.OUT_EVENT_EN : Fld := ⟨R.OUT_EVENT_EN, 0, 4⟩
abbrev F.OUT_LAST : Fld := ⟨R.OUT_LAST, 0, 4⟩
abbrev F.OUT_CLK_CFG_enable (i : Nat) : Fld := ⟨R.OUT_CLK_CFG i, 0, 1⟩
abbrev F.OUT_CLK_CFG_path (i : Nat) : Fld := ⟨R.OUT_CLK_CFG i, 1, 1⟩
abbrev F.OUT_CLK_CFG_fmt (i : Nat) : Fld := ⟨R.OUT_CLK_CFG i, 2, 2⟩
abbrev F.OUT_CLK_CFG_int (i : Nat) : Fld := ⟨R.OUT_CLK_CFG i, 8, 24⟩
abbrev F.OUT_CLK_FRAC (i : Nat) : Fld := ⟨R.OUT_CLK_FRAC i, 0, 24⟩
abbrev F.OUT_CLK_DEN (i : Nat) : Fld := ⟨R.OUT_CLK_DEN i, 0, 24⟩
abbrev F.OUT_CLK_DLY_fine (i : Nat) : Fld := ⟨R.OUT_CLK_DLY i, 0, 10⟩
abbrev F.OUT_CLK_DLY_coarse (i : Nat) : Fld := ⟨R.OUT_CLK_DLY i, 16, 4⟩
abbrev F.OUT_CLK_STATUS_dll_lock (i : Nat) : Fld := ⟨R.OUT_CLK_STATUS i, 0, 1⟩
abbrev F.OUT_CLK_STATUS_moving (i : Nat) : Fld := ⟨R.OUT_CLK_STATUS i, 1, 1⟩
abbrev F.OUT_PPS_CFG_enable (i : Nat) : Fld := ⟨R.OUT_PPS_CFG i, 0, 1⟩
abbrev F.OUT_PPS_CFG_src (i : Nat) : Fld := ⟨R.OUT_PPS_CFG i, 4, 4⟩
abbrev F.OUT_PPS_CFG_polarity (i : Nat) : Fld := ⟨R.OUT_PPS_CFG i, 8, 1⟩
abbrev F.OUT_PPS_PERIOD (i : Nat) : Fld := ⟨R.OUT_PPS_PERIOD i, 0, 30⟩
abbrev F.OUT_PPS_OFS_NS (i : Nat) : Fld := ⟨R.OUT_PPS_OFS_NS i, 0, 32⟩
abbrev F.OUT_PPS_OFS_FRAC (i : Nat) : Fld := ⟨R.OUT_PPS_OFS_FRAC i, 0, 9⟩
abbrev F.OUT_PPS_WIDTH (i : Nat) : Fld := ⟨R.OUT_PPS_WIDTH i, 0, 30⟩
abbrev F.OUT_PPS_STATUS_aligned (i : Nat) : Fld := ⟨R.OUT_PPS_STATUS i, 0, 1⟩
abbrev F.OUT_PPS_STATUS_holding (i : Nat) : Fld := ⟨R.OUT_PPS_STATUS i, 1, 1⟩
abbrev F.OUT_PPS_STATUS_dropped (i : Nat) : Fld := ⟨R.OUT_PPS_STATUS i, 16, 8⟩
abbrev F.RDN_CTRL_enable : Fld := ⟨R.RDN_CTRL, 0, 1⟩
abbrev F.RDN_CTRL_hold : Fld := ⟨R.RDN_CTRL, 1, 1⟩
abbrev F.RDN_CTRL_switchover : Fld := ⟨R.RDN_CTRL, 4, 1⟩
abbrev F.RDN_CTRL_resync : Fld := ⟨R.RDN_CTRL, 5, 1⟩
abbrev F.RDN_CTRL_clear_fault : Fld := ⟨R.RDN_CTRL, 6, 1⟩
abbrev F.RDN_CFG_rank : Fld := ⟨R.RDN_CFG, 0, 4⟩
abbrev F.RDN_CFG_ilk_en : Fld := ⟨R.RDN_CFG, 4, 1⟩
abbrev F.RDN_CFG_link_en : Fld := ⟨R.RDN_CFG, 5, 1⟩
abbrev F.RDN_TIMING_guard : Fld := ⟨R.RDN_TIMING, 0, 12⟩
abbrev F.RDN_TIMING_holdoff : Fld := ⟨R.RDN_TIMING, 16, 10⟩
abbrev F.RDN_STATUS_role : Fld := ⟨R.RDN_STATUS, 0, 2⟩
abbrev F.RDN_STATUS_mate_ok : Fld := ⟨R.RDN_STATUS, 2, 1⟩
abbrev F.RDN_STATUS_mate_role : Fld := ⟨R.RDN_STATUS, 4, 2⟩
abbrev F.RDN_STATUS_synced : Fld := ⟨R.RDN_STATUS, 6, 1⟩
abbrev F.RDN_STATUS_cmp_valid : Fld := ⟨R.RDN_STATUS, 7, 1⟩
abbrev F.RDN_STATUS_fault_lock : Fld := ⟨R.RDN_STATUS, 8, 1⟩
abbrev F.RDN_STATUS_ilk_level : Fld := ⟨R.RDN_STATUS, 9, 1⟩
abbrev F.RDN_STATUS_ilk_drive : Fld := ⟨R.RDN_STATUS, 10, 1⟩
abbrev F.RDN_STATUS_img_mismatch : Fld := ⟨R.RDN_STATUS, 11, 1⟩
abbrev F.RDN_STATUS_cfg_mismatch : Fld := ⟨R.RDN_STATUS, 12, 1⟩
abbrev F.RDN_STATUS_holdoff : Fld := ⟨R.RDN_STATUS, 13, 1⟩
abbrev F.RDN_STATUS_mate_rank : Fld := ⟨R.RDN_STATUS, 16, 4⟩
abbrev F.RDN_STATUS_last_yield : Fld := ⟨R.RDN_STATUS, 24, 2⟩
abbrev F.RDN_EVENT : Fld := ⟨R.RDN_EVENT, 0, 15⟩
abbrev F.RDN_EVENT_EN : Fld := ⟨R.RDN_EVENT_EN, 0, 15⟩
abbrev F.RDN_MATE_ID_HI : Fld := ⟨R.RDN_MATE_ID_HI, 0, 32⟩
abbrev F.RDN_MATE_ID_LO : Fld := ⟨R.RDN_MATE_ID_LO, 0, 32⟩
abbrev F.RDN_ANN_DA_HI : Fld := ⟨R.RDN_ANN_DA_HI, 0, 32⟩
abbrev F.RDN_ANN_DA_LO : Fld := ⟨R.RDN_ANN_DA_LO, 0, 16⟩
abbrev F.RDN_PORTS_0 : Fld := ⟨R.RDN_PORTS_0, 0, 32⟩
abbrev F.RDN_PORTS_1 : Fld := ⟨R.RDN_PORTS_1, 0, 32⟩
abbrev F.RDN_PORTS_2 : Fld := ⟨R.RDN_PORTS_2, 1, 14⟩
abbrev F.RDN_DIV_TH : Fld := ⟨R.RDN_DIV_TH, 0, 12⟩
abbrev F.RDN_DIV_LAST : Fld := ⟨R.RDN_DIV_LAST, 0, 32⟩
abbrev F.RDN_MIR_Q : Fld := ⟨R.RDN_MIR_Q, 0, 13⟩
abbrev F.RDN_MIR_SENT : Fld := ⟨R.RDN_MIR_SENT, 0, 32⟩
abbrev F.RDN_MIR_RCVD : Fld := ⟨R.RDN_MIR_RCVD, 0, 32⟩
abbrev F.RDN_MSG_ERR : Fld := ⟨R.RDN_MSG_ERR, 0, 32⟩
abbrev F.RDN_HB_MISS : Fld := ⟨R.RDN_HB_MISS, 0, 32⟩
abbrev F.SEC_CTRL_att_req : Fld := ⟨R.SEC_CTRL, 0, 1⟩
abbrev F.SEC_STATUS_att_busy : Fld := ⟨R.SEC_STATUS, 0, 1⟩
abbrev F.SEC_STATUS_otp_busy : Fld := ⟨R.SEC_STATUS, 1, 1⟩
abbrev F.SEC_STATUS_vpp_ok : Fld := ⟨R.SEC_STATUS, 2, 1⟩
abbrev F.SEC_STATUS_debug_open : Fld := ⟨R.SEC_STATUS, 3, 1⟩
abbrev F.SEC_STATUS_zeroized : Fld := ⟨R.SEC_STATUS, 4, 1⟩
abbrev F.SEC_STATUS_pair_key : Fld := ⟨R.SEC_STATUS, 5, 1⟩
abbrev F.SEC_STATUS_debug_mode : Fld := ⟨R.SEC_STATUS, 8, 2⟩
abbrev F.SEC_STATUS_slots_prog : Fld := ⟨R.SEC_STATUS, 16, 4⟩
abbrev F.SEC_STATUS_slots_rev : Fld := ⟨R.SEC_STATUS, 20, 4⟩
abbrev F.SEC_STATUS_floor : Fld := ⟨R.SEC_STATUS, 24, 8⟩
abbrev F.SEC_EVENT : Fld := ⟨R.SEC_EVENT, 0, 8⟩
abbrev F.SEC_EVENT_EN : Fld := ⟨R.SEC_EVENT_EN, 0, 8⟩
abbrev F.SEC_OTP_PROG_op : Fld := ⟨R.SEC_OTP_PROG, 0, 3⟩
abbrev F.SEC_OTP_PROG_slot : Fld := ⟨R.SEC_OTP_PROG, 4, 2⟩
abbrev F.SEC_OTP_PROG_debug : Fld := ⟨R.SEC_OTP_PROG, 8, 2⟩
abbrev F.SEC_OTP_PROG_go : Fld := ⟨R.SEC_OTP_PROG, 31, 1⟩
abbrev F.SEC_OTP_STATUS_reason : Fld := ⟨R.SEC_OTP_STATUS, 0, 4⟩
abbrev F.SEC_SERIAL_LO : Fld := ⟨R.SEC_SERIAL_LO, 0, 32⟩
abbrev F.SEC_SERIAL_HI : Fld := ⟨R.SEC_SERIAL_HI, 0, 32⟩
abbrev F.SEC_OTP_STAGE (i : Nat) : Fld := ⟨R.SEC_OTP_STAGE i, 0, 32⟩
abbrev F.SEC_ATT_NONCE (i : Nat) : Fld := ⟨R.SEC_ATT_NONCE i, 0, 32⟩
abbrev F.SEC_DEV_PUB (i : Nat) : Fld := ⟨R.SEC_DEV_PUB i, 0, 32⟩
abbrev F.SEC_DEV_CERT (i : Nat) : Fld := ⟨R.SEC_DEV_CERT i, 0, 32⟩
abbrev F.SEC_OWNER_DIG (i : Nat) (j : Nat) : Fld := ⟨R.SEC_OWNER_DIG i j, 0, 32⟩
abbrev F.SEC_TAMPER_CNT : Fld := ⟨R.SEC_TAMPER_CNT, 0, 32⟩
abbrev F.SEC_TAMPER_LAST_source : Fld := ⟨R.SEC_TAMPER_LAST, 0, 3⟩
abbrev F.SEC_PAIR_KEY (i : Nat) : Fld := ⟨R.SEC_PAIR_KEY i, 0, 32⟩
abbrev F.SEC_PTP_POLICY_mode (i : Nat) : Fld := ⟨R.SEC_PTP_POLICY i, 0, 2⟩
abbrev F.MSC_PN_TH_LO : Fld := ⟨R.MSC_PN_TH_LO, 0, 32⟩
abbrev F.MSC_PN_TH_HI : Fld := ⟨R.MSC_PN_TH_HI, 0, 32⟩
abbrev F.MSC_EVENT : Fld := ⟨R.MSC_EVENT, 0, 4⟩
abbrev F.MSC_EVENT_EN : Fld := ⟨R.MSC_EVENT_EN, 0, 4⟩
abbrev F.MSC_LAST_SA : Fld := ⟨R.MSC_LAST_SA, 0, 13⟩
abbrev F.MSC_PORT_CFG_mode (i : Nat) : Fld := ⟨R.MSC_PORT_CFG i, 0, 2⟩
abbrev F.MSC_PORT_CFG_offset (i : Nat) : Fld := ⟨R.MSC_PORT_CFG i, 4, 2⟩
abbrev F.MSC_PORT_CFG_conf (i : Nat) : Fld := ⟨R.MSC_PORT_CFG i, 6, 1⟩
abbrev F.MSC_PORT_CFG_sci (i : Nat) : Fld := ⟨R.MSC_PORT_CFG i, 7, 1⟩
abbrev F.MSC_PORT_CFG_exempt (i : Nat) : Fld := ⟨R.MSC_PORT_CFG i, 8, 1⟩
abbrev F.MSC_PORT_CFG_tx_sc (i : Nat) : Fld := ⟨R.MSC_PORT_CFG i, 16, 12⟩
abbrev F.MSC_PORT_AN_tx_an (i : Nat) : Fld := ⟨R.MSC_PORT_AN i, 0, 2⟩
abbrev F.PWR_CTRL_time_only : Fld := ⟨R.PWR_CTRL, 0, 1⟩
abbrev F.PWR_STATE_mode : Fld := ⟨R.PWR_STATE, 0, 2⟩
abbrev F.PWR_DOM_STATUS_on : Fld := ⟨R.PWR_DOM_STATUS, 0, 12⟩
abbrev F.PWR_DOM_STATUS_changing : Fld := ⟨R.PWR_DOM_STATUS, 16, 12⟩
abbrev F.PWR_DOM_OFF_REQ : Fld := ⟨R.PWR_DOM_OFF_REQ, 0, 9⟩
abbrev F.PWR_DOM_HOLD : Fld := ⟨R.PWR_DOM_HOLD, 0, 9⟩
abbrev F.PWR_ALLOW_TABLE_LOSS_core_a : Fld := ⟨R.PWR_ALLOW_TABLE_LOSS, 0, 1⟩
abbrev F.PWR_ALLOW_TABLE_LOSS_core_b : Fld := ⟨R.PWR_ALLOW_TABLE_LOSS, 1, 1⟩
abbrev F.PWR_ALLOW_TABLE_LOSS_sec : Fld := ⟨R.PWR_ALLOW_TABLE_LOSS, 3, 1⟩
abbrev F.PWR_EVENT : Fld := ⟨R.PWR_EVENT, 0, 7⟩
abbrev F.PWR_EVENT_EN : Fld := ⟨R.PWR_EVENT_EN, 0, 7⟩
abbrev F.PWR_REFUSE_reason : Fld := ⟨R.PWR_REFUSE, 0, 4⟩
abbrev F.PWR_REFUSE_domain : Fld := ⟨R.PWR_REFUSE, 8, 4⟩
abbrev F.PWR_CL_GATED : Fld := ⟨R.PWR_CL_GATED, 0, 8⟩
abbrev F.PWR_ENG_GATED (i : Nat) : Fld := ⟨R.PWR_ENG_GATED i, 0, 12⟩
abbrev F.PWR_LAT_TOL_PORT (i : Nat) : Fld := ⟨R.PWR_LAT_TOL_PORT i, 0, 32⟩
abbrev F.PWR_LAT_TOL_GRP (i : Nat) : Fld := ⟨R.PWR_LAT_TOL_GRP i, 0, 32⟩
abbrev F.PWR_LAT_TOL_CL (i : Nat) : Fld := ⟨R.PWR_LAT_TOL_CL i, 0, 32⟩
abbrev F.PWR_LAT_TOL_ROPE (i : Nat) : Fld := ⟨R.PWR_LAT_TOL_ROPE i, 0, 32⟩
abbrev F.CNT_CTRL_harv_en : Fld := ⟨R.CNT_CTRL, 0, 1⟩
abbrev F.CNT_CTRL_freeze : Fld := ⟨R.CNT_CTRL, 1, 1⟩
abbrev F.CNT_CTRL_now : Fld := ⟨R.CNT_CTRL, 4, 1⟩
abbrev F.CNT_HARV_PERIOD : Fld := ⟨R.CNT_HARV_PERIOD, 0, 24⟩
abbrev F.CNT_HARV_RING_LO : Fld := ⟨R.CNT_HARV_RING_LO, 0, 32⟩
abbrev F.CNT_HARV_RING_HI : Fld := ⟨R.CNT_HARV_RING_HI, 0, 32⟩
abbrev F.CNT_HARV_SLOTS : Fld := ⟨R.CNT_HARV_SLOTS, 0, 11⟩
abbrev F.CNT_HARV_SLOT_BYTES : Fld := ⟨R.CNT_HARV_SLOT_BYTES, 0, 25⟩
abbrev F.CNT_HARV_HEAD : Fld := ⟨R.CNT_HARV_HEAD, 0, 11⟩
abbrev F.CNT_HARV_TAIL : Fld := ⟨R.CNT_HARV_TAIL, 0, 11⟩
abbrev F.CNT_HARV_REC_LEN : Fld := ⟨R.CNT_HARV_REC_LEN, 0, 25⟩
abbrev F.CNT_HARV_SEQ : Fld := ⟨R.CNT_HARV_SEQ, 0, 32⟩
abbrev F.CNT_HARV_SKIP : Fld := ⟨R.CNT_HARV_SKIP, 0, 32⟩
abbrev F.CNT_HARV_STATUS_running : Fld := ⟨R.CNT_HARV_STATUS, 0, 1⟩
abbrev F.CNT_HARV_STATUS_writing : Fld := ⟨R.CNT_HARV_STATUS, 1, 1⟩
abbrev F.CNT_HARV_STATUS_reason : Fld := ⟨R.CNT_HARV_STATUS, 4, 4⟩
abbrev F.CNT_EVENT : Fld := ⟨R.CNT_EVENT, 0, 4⟩
abbrev F.CNT_EVENT_EN : Fld := ⟨R.CNT_EVENT_EN, 0, 4⟩
abbrev F.CNT_OVF_LAST : Fld := ⟨R.CNT_OVF_LAST, 0, 14⟩
abbrev F.CRG_CTRL_mode : Fld := ⟨R.CRG_CTRL, 0, 2⟩
abbrev F.CRG_CTRL_dest : Fld := ⟨R.CRG_CTRL, 2, 1⟩
abbrev F.CRG_CTRL_arm : Fld := ⟨R.CRG_CTRL, 4, 1⟩
abbrev F.CRG_CTRL_trig : Fld := ⟨R.CRG_CTRL, 5, 1⟩
abbrev F.CRG_STATUS_state : Fld := ⟨R.CRG_STATUS, 0, 2⟩
abbrev F.CRG_STATUS_trig_lost : Fld := ⟨R.CRG_STATUS, 2, 1⟩
abbrev F.CRG_STATUS_count : Fld := ⟨R.CRG_STATUS, 12, 20⟩
abbrev F.CRG_HEAD : Fld := ⟨R.CRG_HEAD, 0, 20⟩
abbrev F.CRG_TRIG_IDX : Fld := ⟨R.CRG_TRIG_IDX, 0, 20⟩
abbrev F.CRG_TRIG_post : Fld := ⟨R.CRG_TRIG, 0, 20⟩
abbrev F.CRG_TRIG_src : Fld := ⟨R.CRG_TRIG, 24, 4⟩
abbrev F.CRG_TRIG_TIME_NS : Fld := ⟨R.CRG_TRIG_TIME_NS, 0, 30⟩
abbrev F.CRG_TRIG_TIME_SEC : Fld := ⟨R.CRG_TRIG_TIME_SEC, 0, 32⟩
abbrev F.CRG_HRING_LO : Fld := ⟨R.CRG_HRING_LO, 0, 32⟩
abbrev F.CRG_HRING_HI : Fld := ⟨R.CRG_HRING_HI, 0, 32⟩
abbrev F.CRG_HRING_SIZE_log2 : Fld := ⟨R.CRG_HRING_SIZE, 0, 5⟩
abbrev F.CRG_HRING_TAIL : Fld := ⟨R.CRG_HRING_TAIL, 0, 20⟩
abbrev F.CRG_LOST : Fld := ⟨R.CRG_LOST, 0, 32⟩
abbrev F.CRG_EVENT : Fld := ⟨R.CRG_EVENT, 0, 3⟩
abbrev F.CRG_EVENT_EN : Fld := ⟨R.CRG_EVENT_EN, 0, 3⟩
abbrev F.CRG_RULE_A_in_port (i : Nat) : Fld := ⟨R.CRG_RULE_A i, 0, 7⟩
abbrev F.CRG_RULE_A_in_any (i : Nat) : Fld := ⟨R.CRG_RULE_A i, 7, 1⟩
abbrev F.CRG_RULE_A_out_port (i : Nat) : Fld := ⟨R.CRG_RULE_A i, 8, 7⟩
abbrev F.CRG_RULE_A_out_any (i : Nat) : Fld := ⟨R.CRG_RULE_A i, 15, 1⟩
abbrev F.CRG_RULE_A_kinds (i : Nat) : Fld := ⟨R.CRG_RULE_A i, 16, 5⟩
abbrev F.CRG_RULE_A_queue (i : Nat) : Fld := ⟨R.CRG_RULE_A i, 24, 3⟩
abbrev F.CRG_RULE_A_q_any (i : Nat) : Fld := ⟨R.CRG_RULE_A i, 27, 1⟩
abbrev F.CRG_RULE_A_trigger (i : Nat) : Fld := ⟨R.CRG_RULE_A i, 30, 1⟩
abbrev F.CRG_RULE_A_enable (i : Nat) : Fld := ⟨R.CRG_RULE_A i, 31, 1⟩
abbrev F.CRG_RULE_B_reason (i : Nat) : Fld := ⟨R.CRG_RULE_B i, 0, 8⟩
abbrev F.CRG_RULE_B_reason_any (i : Nat) : Fld := ⟨R.CRG_RULE_B i, 8, 1⟩
abbrev F.CRG_RULE_B_sample (i : Nat) : Fld := ⟨R.CRG_RULE_B i, 9, 4⟩
abbrev F.CRG_RULE_B_rand (i : Nat) : Fld := ⟨R.CRG_RULE_B i, 13, 1⟩
abbrev F.CRG_RULE_B_ctx (i : Nat) : Fld := ⟨R.CRG_RULE_B i, 16, 12⟩
abbrev F.CRG_RULE_B_ctx_any (i : Nat) : Fld := ⟨R.CRG_RULE_B i, 28, 1⟩
abbrev F.TST_CTRL_op : Fld := ⟨R.TST_CTRL, 0, 4⟩
abbrev F.TST_CTRL_abort : Fld := ⟨R.TST_CTRL, 30, 1⟩
abbrev F.TST_CTRL_go : Fld := ⟨R.TST_CTRL, 31, 1⟩
abbrev F.TST_TARGET_unit : Fld := ⟨R.TST_TARGET, 0, 7⟩
abbrev F.TST_TARGET_engine : Fld := ⟨R.TST_TARGET, 8, 4⟩
abbrev F.TST_TARGET_cluster : Fld := ⟨R.TST_TARGET, 12, 3⟩
abbrev F.TST_RANGE : Fld := ⟨R.TST_RANGE, 0, 19⟩
abbrev F.TST_COUNT : Fld := ⟨R.TST_COUNT, 0, 19⟩
abbrev F.TST_STATUS_state : Fld := ⟨R.TST_STATUS, 0, 3⟩
abbrev F.TST_STATUS_reason : Fld := ⟨R.TST_STATUS, 4, 4⟩
abbrev F.TST_STATUS_quar_ovf : Fld := ⟨R.TST_STATUS, 8, 1⟩
abbrev F.TST_RES (i : Nat) : Fld := ⟨R.TST_RES i, 0, 32⟩
abbrev F.TST_EVENT : Fld := ⟨R.TST_EVENT, 0, 3⟩
abbrev F.TST_EVENT_EN : Fld := ⟨R.TST_EVENT_EN, 0, 3⟩
abbrev F.TST_QUAR_handle (i : Nat) : Fld := ⟨R.TST_QUAR i, 0, 21⟩
abbrev F.TST_QUAR_valid (i : Nat) : Fld := ⟨R.TST_QUAR i, 31, 1⟩
abbrev F.TST_QUAR_CNT : Fld := ⟨R.TST_QUAR_CNT, 0, 32⟩
abbrev F.FLT_CTRL_release : Fld := ⟨R.FLT_CTRL, 0, 1⟩
abbrev F.FLT_CTRL_end_coast : Fld := ⟨R.FLT_CTRL, 1, 1⟩
abbrev F.FLT_STATUS_halted : Fld := ⟨R.FLT_STATUS, 0, 1⟩
abbrev F.FLT_STATUS_coast : Fld := ⟨R.FLT_STATUS, 1, 1⟩
abbrev F.FLT_STATUS_win : Fld := ⟨R.FLT_STATUS, 8, 8⟩
abbrev F.FLT_PEND : Fld := ⟨R.FLT_PEND, 0, 4⟩
abbrev F.FLT_EVENT : Fld := ⟨R.FLT_EVENT, 0, 5⟩
abbrev F.FLT_EVENT_EN : Fld := ⟨R.FLT_EVENT_EN, 0, 5⟩
abbrev F.FLT_CNT (i : Nat) : Fld := ⟨R.FLT_CNT i, 0, 32⟩
abbrev F.FLT_LOG_COUNT : Fld := ⟨R.FLT_LOG_COUNT, 0, 7⟩
abbrev F.FLT_LOG_0_code : Fld := ⟨R.FLT_LOG_0, 0, 9⟩
abbrev F.FLT_LOG_0_class : Fld := ⟨R.FLT_LOG_0, 9, 2⟩
abbrev F.FLT_LOG_0_escalated : Fld := ⟨R.FLT_LOG_0, 11, 1⟩
abbrev F.FLT_LOG_0_reaction : Fld := ⟨R.FLT_LOG_0, 12, 3⟩
abbrev F.FLT_LOG_0_repeats : Fld := ⟨R.FLT_LOG_0, 16, 8⟩
abbrev F.FLT_LOG_0_subsys : Fld := ⟨R.FLT_LOG_0, 24, 3⟩
abbrev F.FLT_LOG_1 : Fld := ⟨R.FLT_LOG_1, 0, 32⟩
abbrev F.FLT_LOG_2_ns : Fld := ⟨R.FLT_LOG_2, 0, 30⟩
abbrev F.FLT_LOG_2_time_valid : Fld := ⟨R.FLT_LOG_2, 31, 1⟩
abbrev F.FLT_LOG_3 : Fld := ⟨R.FLT_LOG_3, 0, 32⟩
abbrev F.FLT_LOG_POP_pop : Fld := ⟨R.FLT_LOG_POP, 0, 1⟩
abbrev F.FLT_WIN (i : Nat) : Fld := ⟨R.FLT_WIN i, 0, 16⟩
abbrev F.FLT_LAST_FATAL_code : Fld := ⟨R.FLT_LAST_FATAL, 0, 9⟩
abbrev F.FLT_LAST_FATAL_SEC : Fld := ⟨R.FLT_LAST_FATAL_SEC, 0, 32⟩
abbrev F.FLT_REACT_reaction (i : Nat) : Fld := ⟨R.FLT_REACT i, 0, 3⟩
abbrev F.FLT_REACT_class (i : Nat) : Fld := ⟨R.FLT_REACT i, 4, 2⟩
abbrev F.FLT_REACT_present (i : Nat) : Fld := ⟨R.FLT_REACT i, 7, 1⟩
abbrev F.HIF_RXR_BASE_LO (i : Nat) : Fld := ⟨R.HIF_RXR_BASE_LO i, 0, 32⟩
abbrev F.HIF_RXR_BASE_HI (i : Nat) : Fld := ⟨R.HIF_RXR_BASE_HI i, 0, 32⟩
abbrev F.HIF_RXR_SIZE_log2 (i : Nat) : Fld := ⟨R.HIF_RXR_SIZE i, 0, 5⟩
abbrev F.HIF_RXR_SIZE_enable (i : Nat) : Fld := ⟨R.HIF_RXR_SIZE i, 8, 1⟩
abbrev F.HIF_RXR_HEAD (i : Nat) : Fld := ⟨R.HIF_RXR_HEAD i, 0, 16⟩
abbrev F.HIF_RXR_TAIL (i : Nat) : Fld := ⟨R.HIF_RXR_TAIL i, 0, 16⟩

end Sys2Proof.Machine
end

