-- ==== Sys2Proof/Machine/RegTable.lean ====
section
/-! DEFINITION. The register tables as data: one row per register of every block page, with the Type, Reset,
Upd and Keep code of each field (R9, R12, R13, R15), as the register tables of the chapters give them. -/

namespace Sys2Proof.Machine

/-- Registers of the TOP page: TOP_ID to TOP_EVENT_EN. -/
def rowsTOP : List RegRow := [
  ⟨0x0, 1, 0, 1, 0, .none, [⟨4, 4, .ro, .otp, .i, .a⟩, ⟨8, 16, .ro, .num 0x6480, .i, .a⟩, ⟨24, 4, .ro, .otp, .i, .a⟩, ⟨28, 4, .ro, .otp, .i, .a⟩]⟩,
  ⟨0x4, 1, 0, 1, 0, .none, [⟨0, 1, .ro, .num 0, .i, .w⟩, ⟨1, 1, .ro, .num 0, .i, .h⟩, ⟨2, 1, .ro, .num 0, .i, .h⟩, ⟨3, 1, .ro, .num 0, .i, .h⟩, ⟨4, 1, .ro, .num 0, .i, .h⟩, ⟨5, 1, .ro, .num 0, .i, .h⟩, ⟨6, 1, .ro, .num 0, .i, .h⟩, ⟨7, 1, .ro, .num 0, .i, .h⟩, ⟨8, 1, .ro, .num 0, .i, .w⟩, ⟨9, 1, .ro, .num 0, .i, .w⟩, ⟨10, 1, .ro, .num 0, .i, .w⟩, ⟨11, 1, .ro, .num 0, .i, .w⟩, ⟨16, 8, .ro, .num 0, .i, .h⟩, ⟨24, 2, .ro, .num 0, .i, .w⟩]⟩,
  ⟨0x8, 1, 0, 1, 0, .none, [⟨0, 32, .ro, .num 0, .i, .n⟩]⟩,
  ⟨0xC, 1, 0, 1, 0, .none, [⟨0, 32, .ro, .num 0, .i, .n⟩]⟩,
  ⟨0x10, 1, 0, 1, 0, .none, [⟨0, 17, .ro, .num 0, .i, .n⟩]⟩,
  ⟨0x20, 1, 0, 1, 0, .none, [⟨0, 1, .w1s, .num 0, .i, .n⟩, ⟨1, 1, .w1c, .num 0, .i, .w⟩, ⟨31, 1, .ro, .num 0, .i, .n⟩]⟩,
  ⟨0x24, 1, 0, 1, 0, .none, [⟨0, 24, .w1s, .num 0, .i, .n⟩]⟩,
  ⟨0x28, 1, 0, 1, 0, .none, [⟨0, 32, .w1s, .num 0, .i, .n⟩]⟩,
  ⟨0x2C, 1, 0, 1, 0, .none, [⟨0, 32, .w1s, .num 0, .i, .n⟩]⟩,
  ⟨0x30, 1, 0, 1, 0, .none, [⟨0, 9, .w1c, .num 1, .i, .a⟩]⟩,
  ⟨0x40, 1, 0, 1, 0, .none, [⟨0, 1, .wo, .num 0, .i, .w⟩, ⟨16, 16, .wo, .num 0, .i, .w⟩]⟩,
  ⟨0x44, 1, 0, 1, 0, .none, [⟨0, 1, .w1s, .num 0, .i, .n⟩]⟩,
  ⟨0x48, 1, 0, 1, 0, .none, [⟨0, 16, .ro, .num 0, .i, .n⟩]⟩,
  ⟨0x50, 1, 0, 1, 0, .none, [⟨0, 3, .w1c, .num 0, .i, .w⟩]⟩,
  ⟨0x54, 1, 0, 1, 0, .none, [⟨0, 3, .rw, .num 0, .i, .w⟩]⟩]

/-- Registers of the IMG page: IMG_CTRL to IMG_GROUP_VER. -/
def rowsIMG : List RegRow := [
  ⟨0x0, 1, 0, 1, 0, .none, [⟨0, 1, .w1s, .num 0, .i, .n⟩, ⟨1, 1, .w1s, .num 0, .i, .w⟩, ⟨2, 3, .rw, .num 0, .i, .n⟩, ⟨5, 1, .w1s, .num 0, .i, .n⟩, ⟨6, 1, .rw, .num 0, .i, .n⟩, ⟨7, 1, .rw, .num 0, .i, .n⟩]⟩,
  ⟨0x4, 1, 0, 1, 0, .none, [⟨0, 4, .ro, .num 0, .i, .w⟩, ⟨8, 8, .ro, .num 0, .i, .w⟩, ⟨16, 2, .ro, .num 0, .i, .w⟩, ⟨20, 1, .ro, .num 0, .i, .w⟩, ⟨21, 1, .ro, .num 0, .i, .w⟩, ⟨24, 2, .ro, .num 0, .i, .w⟩]⟩,
  ⟨0x8, 1, 0, 1, 0, .none, [⟨0, 1, .w1c, .num 0, .i, .h⟩, ⟨1, 1, .w1c, .num 0, .i, .h⟩, ⟨2, 1, .w1c, .num 0, .i, .h⟩, ⟨3, 1, .w1c, .num 0, .i, .h⟩, ⟨4, 1, .w1c, .num 0, .i, .h⟩]⟩,
  ⟨0xC, 1, 0, 1, 0, .none, [⟨0, 32, .ro, .num 0, .i, .w⟩]⟩,
  ⟨0x10, 1, 0, 1, 0, .none, [⟨0, 32, .ro, .num 0, .i, .w⟩]⟩,
  ⟨0x14, 1, 0, 1, 0, .none, [⟨0, 16, .ro, .num 0, .i, .w⟩]⟩,
  ⟨0x18, 1, 0, 1, 0, .none, [⟨0, 24, .ro, .num 0, .i, .w⟩]⟩,
  ⟨0x1C, 1, 0, 1, 0, .none, [⟨0, 10, .ro, .num 0, .i, .w⟩]⟩,
  ⟨0x20, 1, 0, 1, 0, .none, [⟨0, 16, .rw, .num 0x3e8, .i, .w⟩]⟩,
  ⟨0x24, 1, 0, 1, 0, .none, [⟨0, 32, .ro, .num 0, .i, .h⟩]⟩,
  ⟨0x28, 1, 0, 1, 0, .none, [⟨0, 32, .rc, .num 0, .i, .h⟩]⟩,
  ⟨0x40, 12, 4, 1, 0, .none, [⟨0, 32, .ro, .num 0, .i, .w⟩]⟩,
  ⟨0x80, 8, 4, 1, 0, .none, [⟨0, 32, .ro, .num 0, .i, .w⟩]⟩]

/-- Registers of the HIF page, part 0: HIF_CTRL to HIF_EVENT_EN. -/
def rowsHIF0 : List RegRow := [
  ⟨0x0, 1, 0, 1, 0, .none, [⟨0, 1, .rw, .num 0, .i, .h⟩]⟩,
  ⟨0x4, 1, 0, 1, 0, .none, [⟨0, 1, .w1c, .num 0, .i, .h⟩, ⟨1, 1, .w1c, .num 0, .i, .h⟩, ⟨2, 1, .w1c, .num 0, .i, .h⟩, ⟨3, 1, .w1c, .num 0, .i, .h⟩, ⟨4, 1, .w1c, .num 0, .i, .h⟩, ⟨5, 1, .w1c, .num 0, .i, .h⟩, ⟨6, 1, .w1c, .num 0, .i, .h⟩, ⟨7, 1, .w1c, .num 0, .i, .h⟩]⟩,
  ⟨0x8, 1, 0, 1, 0, .none, [⟨0, 32, .ro, .num 0, .i, .h⟩]⟩,
  ⟨0xC, 1, 0, 1, 0, .none, [⟨0, 32, .rc, .num 0, .i, .h⟩]⟩,
  ⟨0x10, 1, 0, 1, 0, .none, [⟨0, 8, .w1s, .num 0, .i, .n⟩]⟩,
  ⟨0x14, 1, 0, 1, 0, .none, [⟨0, 8, .ro, .num 0, .i, .w⟩]⟩,
  ⟨0x18, 1, 0, 1, 0, .none, [⟨0, 32, .wl, .img, .i, .w⟩]⟩,
  ⟨0x20, 4, 16, 1, 0, .none, [⟨0, 8, .rw, .num 0, .i, .h⟩, ⟨16, 1, .rw, .num 0, .i, .h⟩, ⟨17, 1, .w1c, .num 0, .i, .h⟩, ⟨18, 1, .w1c, .num 0, .i, .h⟩, ⟨19, 1, .w1c, .num 0, .i, .h⟩]⟩,
  ⟨0x24, 4, 16, 1, 0, .none, [⟨0, 32, .rw, .num 0, .i, .h⟩]⟩,
  ⟨0x28, 4, 16, 1, 0, .none, [⟨0, 16, .rw, .num 0, .i, .h⟩]⟩,
  ⟨0x2C, 4, 16, 1, 0, .none, [⟨0, 30, .rw, .num 0, .i, .h⟩]⟩,
  ⟨0x60, 1, 0, 1, 0, .none, [⟨0, 32, .ro, .num 0, .i, .h⟩]⟩,
  ⟨0x64, 1, 0, 1, 0, .none, [⟨0, 32, .rc, .num 0, .i, .h⟩]⟩,
  ⟨0x68, 1, 0, 1, 0, .none, [⟨0, 32, .ro, .num 0, .i, .h⟩]⟩,
  ⟨0x70, 1, 0, 1, 0, .none, [⟨0, 5, .w1c, .num 0, .i, .h⟩]⟩,
  ⟨0x74, 1, 0, 1, 0, .none, [⟨0, 5, .rw, .num 0, .i, .h⟩]⟩]

/-- Registers of the HIF page, part 1: HIF_VEC_MAP_s to HIF_RXR_n_HEAD. -/
def rowsHIF1 : List RegRow := [
  ⟨0x100, 48, 4, 1, 0, .none, [⟨0, 6, .rw, .num 0, .i, .h⟩, ⟨7, 1, .rw, .num 0, .i, .h⟩]⟩,
  ⟨0x200, 1, 0, 1, 0, .none, [⟨0, 32, .w1s, .num 0, .i, .n⟩]⟩,
  ⟨0x204, 1, 0, 1, 0, .none, [⟨0, 32, .w1s, .num 0, .i, .n⟩]⟩,
  ⟨0x210, 1, 0, 1, 0, .none, [⟨0, 32, .ro, .num 0, .i, .n⟩]⟩,
  ⟨0x214, 1, 0, 1, 0, .none, [⟨0, 32, .ro, .num 0, .i, .n⟩]⟩,
  ⟨0x220, 1, 0, 1, 0, .none, [⟨0, 32, .rw, .num 0, .i, .h⟩]⟩,
  ⟨0x224, 1, 0, 1, 0, .none, [⟨0, 32, .rw, .num 0, .i, .h⟩]⟩,
  ⟨0x400, 8, 32, 1, 0, .none, [⟨0, 32, .rw, .num 0, .i, .n⟩]⟩,
  ⟨0x404, 8, 32, 1, 0, .none, [⟨0, 32, .rw, .num 0, .i, .n⟩]⟩,
  ⟨0x408, 8, 32, 1, 0, .none, [⟨0, 5, .rw, .num 6, .i, .n⟩, ⟨8, 1, .rw, .num 0, .i, .n⟩]⟩,
  ⟨0x40C, 8, 32, 1, 0, .none, [⟨0, 16, .ro, .num 0, .i, .n⟩]⟩,
  ⟨0x410, 8, 32, 1, 0, .none, [⟨0, 16, .rw, .num 0, .i, .n⟩]⟩,
  ⟨0x500, 8, 32, 1, 0, .none, [⟨0, 32, .rw, .num 0, .i, .n⟩]⟩,
  ⟨0x504, 8, 32, 1, 0, .none, [⟨0, 32, .rw, .num 0, .i, .n⟩]⟩,
  ⟨0x508, 8, 32, 1, 0, .none, [⟨0, 5, .rw, .num 6, .i, .n⟩, ⟨8, 1, .rw, .num 0, .i, .n⟩]⟩,
  ⟨0x50C, 8, 32, 1, 0, .none, [⟨0, 16, .ro, .num 0, .i, .n⟩]⟩]

/-- Registers of the HIF page, part 2: HIF_RXR_n_TAIL to HIF_RXR_n_TAIL. -/
def rowsHIF2 : List RegRow := [
  ⟨0x510, 8, 32, 1, 0, .none, [⟨0, 16, .rw, .num 0, .i, .n⟩]⟩]

/-- Registers of the HIF page. -/
def rowsHIF : List RegRow := rowsHIF0 ++ rowsHIF1 ++ rowsHIF2

/-- Registers of the PWR page: PWR_CTRL to PWR_LAT_TOL_ROPE_r. -/
def rowsPWR : List RegRow := [
  ⟨0x0, 1, 0, 1, 0, .none, [⟨0, 1, .rw, .num 0, .i, .h⟩]⟩,
  ⟨0x4, 1, 0, 1, 0, .none, [⟨0, 2, .ro, .num 0, .i, .h⟩]⟩,
  ⟨0x8, 1, 0, 1, 0, .none, [⟨0, 12, .ro, .num 0xe00, .i, .n⟩, ⟨16, 12, .ro, .num 0, .i, .n⟩]⟩,
  ⟨0xC, 1, 0, 1, 0, .none, [⟨0, 9, .rw, .num 0, .i, .w⟩]⟩,
  ⟨0x10, 1, 0, 1, 0, .none, [⟨0, 9, .ro, .num 0, .i, .n⟩]⟩,
  ⟨0x14, 1, 0, 1, 0, .none, [⟨0, 1, .rw, .num 0, .i, .w⟩, ⟨1, 1, .rw, .num 0, .i, .w⟩, ⟨3, 1, .rw, .num 0, .i, .w⟩]⟩,
  ⟨0x18, 1, 0, 1, 0, .none, [⟨0, 7, .w1c, .num 0, .i, .h⟩]⟩,
  ⟨0x1C, 1, 0, 1, 0, .none, [⟨0, 7, .rw, .num 0, .i, .h⟩]⟩,
  ⟨0x20, 1, 0, 1, 0, .none, [⟨0, 4, .ro, .num 0, .i, .h⟩, ⟨8, 4, .ro, .num 0, .i, .h⟩]⟩,
  ⟨0x24, 1, 0, 1, 0, .none, [⟨0, 8, .ro, .num 0, .i, .n⟩]⟩,
  ⟨0x40, 8, 4, 1, 0, .cluster, [⟨0, 12, .ro, .num 0, .i, .n⟩]⟩,
  ⟨0x1000, 81, 4, 1, 0, .port, [⟨0, 32, .rw, .num 0, .i, .w⟩]⟩,
  ⟨0x1200, 8, 4, 1, 0, .none, [⟨0, 32, .rw, .num 0, .i, .w⟩]⟩,
  ⟨0x1220, 8, 4, 1, 0, .cluster, [⟨0, 32, .rw, .num 0, .i, .w⟩]⟩,
  ⟨0x1240, 2, 4, 1, 0, .none, [⟨0, 32, .rw, .num 0, .i, .w⟩]⟩]

/-- Registers of the SEC page, part 0: SEC_CTRL to SEC_PAIR_KEY. -/
def rowsSEC0 : List RegRow := [
  ⟨0x0, 1, 0, 1, 0, .none, [⟨0, 1, .w1s, .num 0, .i, .h⟩]⟩,
  ⟨0x4, 1, 0, 1, 0, .none, [⟨0, 1, .ro, .num 0, .i, .h⟩, ⟨1, 1, .ro, .num 0, .i, .a⟩, ⟨2, 1, .ro, .num 0, .i, .a⟩, ⟨3, 1, .ro, .num 0, .i, .w⟩, ⟨4, 1, .ro, .num 0, .i, .w⟩, ⟨5, 1, .ro, .num 0, .i, .w⟩, ⟨8, 2, .ro, .otp, .i, .a⟩, ⟨16, 4, .ro, .otp, .i, .a⟩, ⟨20, 4, .ro, .otp, .i, .a⟩, ⟨24, 8, .ro, .otp, .i, .a⟩]⟩,
  ⟨0x8, 1, 0, 1, 0, .none, [⟨0, 8, .w1c, .num 0, .i, .h⟩]⟩,
  ⟨0xC, 1, 0, 1, 0, .none, [⟨0, 8, .rw, .num 0, .i, .h⟩]⟩,
  ⟨0x10, 1, 0, 1, 0, .none, [⟨0, 3, .rw, .num 0, .i, .w⟩, ⟨4, 2, .rw, .num 0, .i, .w⟩, ⟨8, 2, .rw, .num 0, .i, .w⟩, ⟨31, 1, .w1s, .num 0, .i, .w⟩]⟩,
  ⟨0x14, 1, 0, 1, 0, .none, [⟨0, 4, .ro, .num 0, .i, .w⟩]⟩,
  ⟨0x18, 1, 0, 1, 0, .none, [⟨0, 32, .ro, .otp, .i, .a⟩]⟩,
  ⟨0x1C, 1, 0, 1, 0, .none, [⟨0, 32, .ro, .otp, .i, .a⟩]⟩,
  ⟨0x40, 12, 4, 1, 0, .none, [⟨0, 32, .rw, .num 0, .i, .w⟩]⟩,
  ⟨0x80, 8, 4, 1, 0, .none, [⟨0, 32, .rw, .num 0, .i, .h⟩]⟩,
  ⟨0xC0, 24, 4, 1, 0, .none, [⟨0, 32, .ro, .otp, .i, .a⟩]⟩,
  ⟨0x120, 24, 4, 1, 0, .none, [⟨0, 32, .ro, .otp, .i, .a⟩]⟩,
  ⟨0x180, 4, 48, 12, 4, .none, [⟨0, 32, .ro, .otp, .i, .a⟩]⟩,
  ⟨0x240, 1, 0, 1, 0, .none, [⟨0, 32, .ro, .mram, .i, .a⟩]⟩,
  ⟨0x244, 1, 0, 1, 0, .none, [⟨0, 3, .ro, .mram, .i, .a⟩]⟩,
  ⟨0x260, 8, 4, 1, 0, .none, [⟨0, 32, .rw, .num 0, .i, .w⟩]⟩]

/-- Registers of the SEC page, part 1: SEC_PTP_POLICY_p to SEC_PTP_POLICY_p. -/
def rowsSEC1 : List RegRow := [
  ⟨0x1000, 81, 4, 1, 0, .port, [⟨0, 2, .rw, .img, .i, .w⟩]⟩]

/-- Registers of the SEC page. -/
def rowsSEC : List RegRow := rowsSEC0 ++ rowsSEC1

/-- Registers of the FLT page: FLT_CTRL to FLT_REACT_e. -/
def rowsFLT : List RegRow := [
  ⟨0x0, 1, 0, 1, 0, .none, [⟨0, 1, .w1s, .num 0, .i, .n⟩, ⟨1, 1, .w1s, .num 0, .i, .n⟩]⟩,
  ⟨0x4, 1, 0, 1, 0, .none, [⟨0, 1, .ro, .num 0, .i, .w⟩, ⟨1, 1, .ro, .num 0, .i, .w⟩, ⟨8, 8, .ro, .num 0, .i, .w⟩]⟩,
  ⟨0x8, 1, 0, 1, 0, .none, [⟨0, 4, .w1c, .num 0, .i, .w⟩]⟩,
  ⟨0xC, 1, 0, 1, 0, .none, [⟨0, 5, .w1c, .num 0, .i, .w⟩]⟩,
  ⟨0x10, 1, 0, 1, 0, .none, [⟨0, 5, .rw, .num 0, .i, .w⟩]⟩,
  ⟨0x20, 4, 4, 1, 0, .none, [⟨0, 32, .rc, .num 0, .i, .w⟩]⟩,
  ⟨0x30, 1, 0, 1, 0, .none, [⟨0, 7, .ro, .num 0, .i, .w⟩]⟩,
  ⟨0x40, 1, 0, 1, 0, .none, [⟨0, 9, .ro, .num 0, .i, .w⟩, ⟨9, 2, .ro, .num 0, .i, .w⟩, ⟨11, 1, .ro, .num 0, .i, .w⟩, ⟨12, 3, .ro, .num 0, .i, .w⟩, ⟨16, 8, .ro, .num 0, .i, .w⟩, ⟨24, 3, .ro, .num 0, .i, .w⟩]⟩,
  ⟨0x44, 1, 0, 1, 0, .none, [⟨0, 32, .ro, .num 0, .i, .w⟩]⟩,
  ⟨0x48, 1, 0, 1, 0, .none, [⟨0, 30, .ro, .num 0, .i, .w⟩, ⟨31, 1, .ro, .num 0, .i, .w⟩]⟩,
  ⟨0x4C, 1, 0, 1, 0, .none, [⟨0, 32, .ro, .num 0, .i, .w⟩]⟩,
  ⟨0x50, 1, 0, 1, 0, .none, [⟨0, 1, .w1s, .num 0, .i, .w⟩]⟩,
  ⟨0x60, 8, 4, 1, 0, .none, [⟨0, 16, .rw, .num 0x3e8, .i, .w⟩]⟩,
  ⟨0x80, 1, 0, 1, 0, .none, [⟨0, 9, .ro, .mram, .i, .a⟩]⟩,
  ⟨0x84, 1, 0, 1, 0, .none, [⟨0, 32, .ro, .mram, .i, .a⟩]⟩,
  ⟨0x1000, 512, 4, 1, 0, .none, [⟨0, 3, .rw, .img, .i, .w⟩, ⟨4, 2, .ro, .num 0, .i, .a⟩, ⟨7, 1, .ro, .num 0, .i, .a⟩]⟩]

/-- Registers of the TBS page, part 0: TBS_CTRL to TBS_FF. -/
def rowsTBS0 : List RegRow := [
  ⟨0x0, 1, 0, 1, 0, .none, [⟨0, 1, .rw, .num 0, .i, .w⟩, ⟨1, 1, .rw, .num 0, .i, .w⟩]⟩,
  ⟨0x4, 1, 0, 1, 0, .none, [⟨0, 1, .ro, .num 0, .i, .w⟩, ⟨1, 1, .ro, .num 0, .i, .w⟩, ⟨2, 1, .ro, .num 0, .i, .w⟩, ⟨8, 8, .ro, .num 0, .i, .w⟩]⟩,
  ⟨0x8, 1, 0, 1, 0, .none, [⟨0, 1, .w1s, .num 0, .i, .w⟩]⟩,
  ⟨0xC, 1, 0, 1, 0, .none, [⟨0, 16, .ro, .num 0, .i, .w⟩]⟩,
  ⟨0x10, 1, 0, 1, 0, .none, [⟨0, 30, .ro, .num 0, .i, .w⟩]⟩,
  ⟨0x14, 1, 0, 1, 0, .none, [⟨0, 32, .ro, .num 0, .i, .w⟩]⟩,
  ⟨0x18, 1, 0, 1, 0, .none, [⟨0, 16, .ro, .num 0, .i, .w⟩, ⟨24, 8, .ro, .num 0, .i, .w⟩]⟩,
  ⟨0x20, 1, 0, 1, 0, .none, [⟨0, 2, .rw, .num 0, .t, .w⟩]⟩,
  ⟨0x24, 1, 0, 1, 0, .none, [⟨0, 16, .rw, .num 0, .t, .w⟩]⟩,
  ⟨0x28, 1, 0, 1, 0, .none, [⟨0, 30, .rw, .num 0, .t, .w⟩, ⟨31, 1, .rw, .num 0, .t, .w⟩]⟩,
  ⟨0x2C, 1, 0, 1, 0, .none, [⟨0, 32, .rw, .num 0, .t, .w⟩]⟩,
  ⟨0x30, 1, 0, 1, 0, .none, [⟨0, 16, .rw, .num 0, .t, .w⟩]⟩,
  ⟨0x34, 1, 0, 1, 0, .none, [⟨0, 16, .rw, .num 0x3e8, .i, .w⟩]⟩,
  ⟨0x38, 1, 0, 1, 0, .none, [⟨0, 32, .ro, .num 0, .i, .w⟩]⟩,
  ⟨0x3C, 1, 0, 1, 0, .none, [⟨0, 16, .rw, .img, .i, .w⟩]⟩,
  ⟨0x40, 1, 0, 1, 0, .none, [⟨0, 32, .ro, .num 0, .i, .w⟩]⟩]

/-- Registers of the TBS page, part 1: TBS_AGE_ACC to TBS_TXQ_QUOTA_p. -/
def rowsTBS1 : List RegRow := [
  ⟨0x44, 1, 0, 1, 0, .none, [⟨0, 32, .ro, .num 0, .i, .w⟩]⟩,
  ⟨0x50, 1, 0, 1, 0, .none, [⟨0, 7, .w1c, .num 0, .i, .w⟩]⟩,
  ⟨0x54, 1, 0, 1, 0, .none, [⟨0, 7, .rw, .num 0, .i, .w⟩]⟩,
  ⟨0x60, 1, 0, 1, 0, .none, [⟨0, 16, .ro, .num 0, .i, .w⟩, ⟨16, 16, .ro, .num 0, .i, .w⟩]⟩,
  ⟨0x64, 1, 0, 1, 0, .none, [⟨0, 30, .ro, .num 0, .i, .w⟩, ⟨30, 1, .ro, .num 0, .i, .w⟩, ⟨31, 1, .ro, .num 0, .i, .w⟩]⟩,
  ⟨0x68, 1, 0, 1, 0, .none, [⟨0, 32, .ro, .num 0, .i, .w⟩]⟩,
  ⟨0x6C, 1, 0, 1, 0, .none, [⟨0, 16, .ro, .num 0, .i, .w⟩, ⟨16, 7, .ro, .num 0, .i, .w⟩, ⟨23, 1, .ro, .num 0, .i, .w⟩, ⟨24, 8, .ro, .num 0, .i, .w⟩]⟩,
  ⟨0x70, 1, 0, 1, 0, .none, [⟨0, 1, .w1s, .num 0, .i, .w⟩]⟩,
  ⟨0x74, 1, 0, 1, 0, .none, [⟨0, 11, .ro, .num 0, .i, .w⟩]⟩,
  ⟨0x1000, 81, 64, 1, 0, .none, [⟨0, 2, .rw, .img, .i, .w⟩, ⟨2, 1, .rw, .img, .i, .w⟩, ⟨3, 1, .rw, .img, .i, .w⟩, ⟨4, 1, .rw, .num 0, .i, .w⟩]⟩,
  ⟨0x1004, 81, 64, 1, 0, .none, [⟨0, 32, .rw, .num 0, .i, .w⟩]⟩,
  ⟨0x1008, 81, 64, 1, 0, .none, [⟨0, 32, .rw, .num 0, .i, .w⟩]⟩,
  ⟨0x100C, 81, 64, 1, 0, .none, [⟨0, 32, .rw, .num 0, .i, .w⟩]⟩,
  ⟨0x1010, 81, 64, 1, 0, .none, [⟨0, 32, .ro, .img, .i, .w⟩]⟩,
  ⟨0x1014, 81, 64, 1, 0, .none, [⟨0, 32, .ro, .img, .i, .w⟩]⟩,
  ⟨0x1018, 81, 64, 1, 0, .none, [⟨0, 11, .rw, .num 0x20, .i, .w⟩, ⟨16, 11, .ro, .num 0, .i, .w⟩]⟩]

/-- Registers of the TBS page, part 2: TBS_TXQ_DROP_p to TBS_TXQ_DROP_CNT_p. -/
def rowsTBS2 : List RegRow := [
  ⟨0x101C, 81, 64, 1, 0, .none, [⟨0, 16, .ro, .num 0, .i, .w⟩, ⟨31, 1, .w1c, .num 0, .i, .w⟩]⟩,
  ⟨0x1020, 81, 64, 1, 0, .none, [⟨0, 32, .rc, .num 0, .i, .w⟩]⟩]

/-- Registers of the TBS page. -/
def rowsTBS : List RegRow := rowsTBS0 ++ rowsTBS1 ++ rowsTBS2

/-- Registers of the TDC page, part 0: TDC_CFG_c to TDC_EVENT_EN. -/
def rowsTDC0 : List RegRow := [
  ⟨0x0, 92, 64, 1, 0, .none, [⟨0, 2, .rw, .img, .i, .w⟩, ⟨2, 1, .rw, .img, .i, .w⟩, ⟨16, 16, .rw, .img, .i, .w⟩]⟩,
  ⟨0x4, 92, 64, 1, 0, .none, [⟨0, 1, .ro, .num 0, .i, .w⟩, ⟨1, 1, .ro, .num 0, .i, .w⟩, ⟨2, 1, .ro, .num 0, .i, .w⟩, ⟨4, 2, .ro, .num 0, .i, .w⟩, ⟨8, 8, .ro, .num 0, .i, .w⟩]⟩,
  ⟨0x8, 92, 64, 1, 0, .none, [⟨0, 16, .ro, .num 0, .i, .w⟩, ⟨16, 8, .ro, .num 0, .i, .w⟩, ⟨24, 8, .ro, .num 0, .i, .w⟩]⟩,
  ⟨0xC, 92, 64, 1, 0, .none, [⟨0, 30, .ro, .num 0, .i, .w⟩, ⟨30, 1, .ro, .num 0, .i, .w⟩, ⟨31, 1, .ro, .num 0, .i, .w⟩]⟩,
  ⟨0x10, 92, 64, 1, 0, .none, [⟨0, 32, .ro, .num 0, .i, .w⟩]⟩,
  ⟨0x14, 92, 64, 1, 0, .none, [⟨0, 32, .rc, .num 0, .i, .w⟩]⟩,
  ⟨0x18, 92, 64, 1, 0, .none, [⟨0, 32, .rc, .num 0, .i, .w⟩]⟩,
  ⟨0x1C, 92, 64, 1, 0, .none, [⟨0, 12, .ro, .num 0, .i, .w⟩, ⟨16, 12, .ro, .num 0, .i, .w⟩]⟩,
  ⟨0x20, 92, 64, 1, 0, .none, [⟨0, 12, .ro, .num 0, .i, .w⟩, ⟨16, 12, .ro, .num 0, .i, .w⟩]⟩,
  ⟨0x24, 92, 64, 1, 0, .none, [⟨0, 32, .ro, .num 0, .i, .w⟩]⟩,
  ⟨0x28, 92, 64, 1, 0, .none, [⟨0, 4, .ro, .num 0, .i, .w⟩]⟩,
  ⟨0x2C, 92, 64, 1, 0, .none, [⟨0, 30, .ro, .num 0, .i, .w⟩]⟩,
  ⟨0x2000, 3, 4, 1, 0, .none, [⟨0, 32, .w1s, .num 0, .i, .w⟩]⟩,
  ⟨0x2010, 3, 4, 1, 0, .none, [⟨0, 32, .ro, .num 0, .i, .w⟩]⟩,
  ⟨0x2020, 1, 0, 1, 0, .none, [⟨0, 4, .w1c, .num 0, .i, .w⟩]⟩,
  ⟨0x2024, 1, 0, 1, 0, .none, [⟨0, 4, .rw, .num 0, .i, .w⟩]⟩]

/-- Registers of the TDC page, part 1: TDC_LAST_CH to TDC_LAST_CH. -/
def rowsTDC1 : List RegRow := [
  ⟨0x2028, 1, 0, 1, 0, .none, [⟨0, 7, .ro, .num 0, .i, .w⟩]⟩]

/-- Registers of the TDC page. -/
def rowsTDC : List RegRow := rowsTDC0 ++ rowsTDC1

/-- Registers of the DPL page, part 0: DPL_d_CFG to DPL_d_HO_STATUS. -/
def rowsDPL0 : List RegRow := [
  ⟨0x0, 2, 64, 1, 0, .none, [⟨0, 1, .rw, .nums [1, 0], .i, .w⟩]⟩,
  ⟨0x4, 2, 64, 1, 0, .none, [⟨0, 17, .rw, .nums [0xC8, 0x7D0], .i, .w⟩]⟩,
  ⟨0x8, 2, 64, 1, 0, .none, [⟨0, 17, .rw, .num 0x3e8, .i, .w⟩]⟩,
  ⟨0xC, 2, 64, 1, 0, .none, [⟨0, 16, .rw, .num 0x3e8, .i, .w⟩, ⟨16, 16, .rw, .num 0x3e8, .i, .w⟩]⟩,
  ⟨0x10, 2, 64, 1, 0, .none, [⟨0, 3, .ro, .num 0, .i, .w⟩, ⟨3, 1, .ro, .num 0, .i, .w⟩, ⟨8, 5, .ro, .num 0, .i, .w⟩, ⟨15, 1, .ro, .num 0, .i, .w⟩, ⟨16, 5, .ro, .num 0, .i, .w⟩, ⟨23, 1, .ro, .num 0, .i, .w⟩]⟩,
  ⟨0x14, 2, 64, 1, 0, .none, [⟨0, 32, .ro, .num 0, .i, .w⟩]⟩,
  ⟨0x18, 2, 64, 1, 0, .none, [⟨0, 32, .ro, .num 0, .i, .w⟩]⟩,
  ⟨0x1C, 2, 64, 1, 0, .none, [⟨0, 3, .w1c, .num 0, .i, .w⟩]⟩,
  ⟨0x20, 2, 64, 1, 0, .none, [⟨0, 3, .rw, .num 0, .i, .w⟩]⟩,
  ⟨0x100, 2, 64, 1, 0, .none, [⟨0, 11, .rw, .num 0x1e, .i, .w⟩, ⟨16, 12, .rw, .num 0x3c, .i, .w⟩, ⟨28, 1, .rw, .img, .i, .w⟩, ⟨29, 1, .rw, .num 0, .i, .w⟩]⟩,
  ⟨0x104, 2, 64, 1, 0, .none, [⟨0, 16, .rw, .num 0xa, .i, .w⟩]⟩,
  ⟨0x108, 2, 64, 1, 0, .none, [⟨0, 32, .rw, .num 0x3e8, .i, .w⟩]⟩,
  ⟨0x10C, 2, 64, 1, 0, .none, [⟨0, 32, .ro, .num 0, .i, .w⟩]⟩,
  ⟨0x110, 2, 64, 1, 0, .none, [⟨0, 32, .ro, .num 0, .i, .w⟩]⟩,
  ⟨0x114, 2, 64, 1, 0, .none, [⟨0, 32, .ro, .num 0, .i, .w⟩]⟩,
  ⟨0x118, 2, 64, 1, 0, .none, [⟨0, 2, .ro, .num 0, .i, .w⟩, ⟨4, 1, .ro, .num 0, .i, .w⟩, ⟨5, 1, .ro, .num 0, .i, .w⟩, ⟨6, 1, .ro, .num 0, .i, .w⟩, ⟨16, 16, .ro, .num 0, .i, .w⟩]⟩]

/-- Registers of the DPL page, part 1: DPL_d_HO_ELAPSED to DPL_LRN_EVENT_EN. -/
def rowsDPL1 : List RegRow := [
  ⟨0x11C, 2, 64, 1, 0, .none, [⟨0, 32, .ro, .num 0, .i, .w⟩]⟩,
  ⟨0x120, 2, 64, 1, 0, .none, [⟨0, 32, .ro, .num 0, .i, .w⟩]⟩,
  ⟨0x124, 2, 64, 1, 0, .none, [⟨0, 16, .ro, .num 0, .i, .w⟩]⟩,
  ⟨0x180, 1, 0, 1, 0, .none, [⟨0, 1, .rw, .img, .i, .w⟩, ⟨1, 1, .rw, .img, .i, .w⟩, ⟨8, 1, .w1s, .num 0, .i, .w⟩]⟩,
  ⟨0x184, 1, 0, 1, 0, .none, [⟨0, 1, .ro, .num 0, .i, .w⟩, ⟨1, 2, .ro, .num 0, .i, .w⟩, ⟨4, 1, .ro, .num 0, .i, .w⟩, ⟨5, 1, .ro, .num 0, .i, .w⟩, ⟨16, 16, .ro, .num 0, .i, .w⟩]⟩,
  ⟨0x188, 1, 0, 1, 0, .none, [⟨0, 16, .ro, .num 0, .i, .w⟩]⟩,
  ⟨0x18C, 1, 0, 1, 0, .none, [⟨0, 16, .rw, .num 0, .i, .w⟩]⟩,
  ⟨0x190, 1, 0, 1, 0, .none, [⟨0, 16, .ro, .num 0, .i, .w⟩]⟩,
  ⟨0x194, 1, 0, 1, 0, .none, [⟨0, 32, .ro, .num 0, .i, .w⟩]⟩,
  ⟨0x198, 1, 0, 1, 0, .none, [⟨0, 32, .ro, .num 0, .i, .w⟩]⟩,
  ⟨0x19C, 1, 0, 1, 0, .none, [⟨0, 32, .ro, .num 0, .i, .w⟩]⟩,
  ⟨0x1A0, 1, 0, 1, 0, .none, [⟨0, 32, .ro, .num 0, .i, .w⟩]⟩,
  ⟨0x1A4, 1, 0, 1, 0, .none, [⟨0, 16, .rw, .num 0, .i, .w⟩]⟩,
  ⟨0x1A8, 1, 0, 1, 0, .none, [⟨0, 32, .ro, .num 0, .i, .w⟩]⟩,
  ⟨0x1AC, 1, 0, 1, 0, .none, [⟨0, 4, .w1c, .num 0, .i, .w⟩]⟩,
  ⟨0x1B0, 1, 0, 1, 0, .none, [⟨0, 4, .rw, .num 0, .i, .w⟩]⟩]

/-- Registers of the DPL page. -/
def rowsDPL : List RegRow := rowsDPL0 ++ rowsDPL1

/-- Registers of the REF page, part 0: REF_CTRL to REF_PTP_CFG. -/
def rowsREF0 : List RegRow := [
  ⟨0x0, 1, 0, 1, 0, .none, [⟨0, 2, .rw, .num 0, .i, .w⟩, ⟨4, 1, .rw, .img, .i, .w⟩, ⟨8, 1, .rw, .img, .i, .w⟩]⟩,
  ⟨0x4, 1, 0, 1, 0, .none, [⟨0, 16, .rw, .num 0x3c, .i, .w⟩]⟩,
  ⟨0x8, 1, 0, 1, 0, .none, [⟨0, 10, .rw, .num 0x64, .i, .w⟩]⟩,
  ⟨0xC, 1, 0, 1, 0, .none, [⟨0, 5, .rw, .num 0, .i, .w⟩, ⟨7, 1, .rw, .num 0, .i, .w⟩, ⟨8, 5, .rw, .num 0, .i, .w⟩, ⟨15, 1, .rw, .num 0, .i, .w⟩]⟩,
  ⟨0x10, 1, 0, 1, 0, .none, [⟨0, 8, .w1c, .num 0, .i, .w⟩]⟩,
  ⟨0x14, 1, 0, 1, 0, .none, [⟨0, 8, .rw, .num 0, .i, .w⟩]⟩,
  ⟨0x18, 1, 0, 1, 0, .none, [⟨0, 5, .ro, .num 0, .i, .w⟩]⟩,
  ⟨0x1C, 1, 0, 1, 0, .none, [⟨0, 32, .ro, .num 0, .i, .w⟩]⟩,
  ⟨0x20, 1, 0, 1, 0, .none, [⟨0, 32, .ro, .num 0, .i, .w⟩]⟩,
  ⟨0x40, 1, 0, 1, 0, .none, [⟨0, 32, .rw, .num 0, .i, .w⟩]⟩,
  ⟨0x44, 1, 0, 1, 0, .none, [⟨0, 32, .rw, .num 0, .i, .w⟩]⟩,
  ⟨0x48, 1, 0, 1, 0, .none, [⟨0, 30, .rw, .num 0, .i, .w⟩]⟩,
  ⟨0x4C, 1, 0, 1, 0, .none, [⟨0, 32, .rw, .num 0, .i, .w⟩]⟩,
  ⟨0x50, 1, 0, 1, 0, .none, [⟨0, 16, .rw, .num 0, .i, .w⟩]⟩,
  ⟨0x54, 1, 0, 1, 0, .none, [⟨0, 1, .w1s, .num 0, .i, .w⟩]⟩,
  ⟨0x58, 1, 0, 1, 0, .none, [⟨0, 16, .rw, .num 0x3e8, .i, .w⟩, ⟨16, 16, .rw, .num 0x64, .i, .w⟩]⟩]

/-- Registers of the REF page, part 1: REF_PTP_CNT to REF_SLOT_TIMER_s. -/
def rowsREF1 : List RegRow := [
  ⟨0x5C, 1, 0, 1, 0, .none, [⟨0, 16, .ro, .num 0, .i, .w⟩, ⟨16, 16, .ro, .num 0, .i, .w⟩]⟩,
  ⟨0x100, 8, 32, 1, 0, .none, [⟨0, 1, .rw, .img, .i, .w⟩, ⟨1, 2, .rw, .img, .i, .w⟩, ⟨3, 1, .rw, .img, .i, .w⟩, ⟨16, 16, .rw, .img, .i, .w⟩]⟩,
  ⟨0x104, 8, 32, 1, 0, .none, [⟨0, 30, .rw, .img, .i, .w⟩]⟩,
  ⟨0x108, 8, 32, 1, 0, .none, [⟨0, 30, .rw, .img, .i, .w⟩]⟩,
  ⟨0x10C, 8, 32, 1, 0, .none, [⟨0, 32, .rw, .num 0, .i, .w⟩]⟩,
  ⟨0x110, 8, 32, 1, 0, .none, [⟨0, 16, .rw, .num 0x64, .i, .w⟩]⟩,
  ⟨0x1000, 32, 32, 1, 0, .none, [⟨0, 7, .rw, .img, .s, .w⟩, ⟨8, 4, .rw, .img, .s, .w⟩, ⟨12, 1, .rw, .img, .s, .w⟩, ⟨13, 1, .rw, .img, .s, .w⟩, ⟨14, 1, .rw, .img, .s, .w⟩]⟩,
  ⟨0x1004, 32, 32, 1, 0, .none, [⟨0, 20, .rw, .num 0x186a0, .i, .w⟩]⟩,
  ⟨0x1008, 32, 32, 1, 0, .none, [⟨0, 20, .rw, .num 0x1d4c0, .i, .w⟩]⟩,
  ⟨0x100C, 32, 32, 1, 0, .none, [⟨0, 16, .rw, .num 0x64, .i, .w⟩, ⟨16, 16, .rw, .num 0x32, .i, .w⟩]⟩,
  ⟨0x1010, 32, 32, 1, 0, .none, [⟨0, 12, .rw, .num 0x12c, .i, .w⟩]⟩,
  ⟨0x1014, 32, 32, 1, 0, .none, [⟨0, 3, .ro, .num 0, .i, .w⟩, ⟨4, 4, .ro, .num 0, .i, .w⟩, ⟨8, 1, .ro, .num 0, .i, .w⟩, ⟨9, 1, .ro, .num 0, .i, .w⟩, ⟨10, 1, .ro, .num 0, .i, .w⟩, ⟨11, 1, .ro, .num 0, .i, .w⟩, ⟨16, 8, .ro, .num 0, .i, .w⟩]⟩,
  ⟨0x1018, 32, 32, 1, 0, .none, [⟨0, 32, .ro, .num 0, .i, .w⟩]⟩,
  ⟨0x101C, 32, 32, 1, 0, .none, [⟨0, 26, .ro, .num 0, .i, .w⟩]⟩]

/-- Registers of the REF page. -/
def rowsREF : List RegRow := rowsREF0 ++ rowsREF1

/-- Registers of the SYN page: SYN_CTRL to SYN_OTP_BAND_HI_i. -/
def rowsSYN : List RegRow := [
  ⟨0x0, 1, 0, 1, 0, .none, [⟨0, 1, .w1s, .num 0, .i, .w⟩, ⟨1, 1, .w1s, .num 0, .i, .w⟩]⟩,
  ⟨0x4, 1, 0, 1, 0, .none, [⟨0, 4, .rw, .num 3, .i, .w⟩, ⟨8, 8, .rw, .num 0xa, .i, .w⟩]⟩,
  ⟨0x8, 1, 0, 1, 0, .none, [⟨0, 1, .ro, .num 0, .i, .w⟩, ⟨1, 1, .ro, .num 1, .i, .w⟩, ⟨2, 1, .ro, .num 0, .i, .w⟩, ⟨8, 6, .ro, .num 0, .i, .w⟩, ⟨16, 6, .ro, .num 0, .i, .w⟩, ⟨24, 4, .ro, .num 0, .i, .w⟩]⟩,
  ⟨0xC, 1, 0, 1, 0, .none, [⟨0, 1, .ro, .img, .i, .w⟩, ⟨1, 1, .ro, .img, .i, .w⟩]⟩,
  ⟨0x10, 1, 0, 1, 0, .none, [⟨0, 2, .rw, .img, .i, .w⟩, ⟨8, 6, .rw, .img, .i, .w⟩]⟩,
  ⟨0x14, 1, 0, 1, 0, .none, [⟨0, 2, .rw, .img, .i, .w⟩, ⟨8, 6, .rw, .img, .i, .w⟩]⟩,
  ⟨0x20, 1, 0, 1, 0, .none, [⟨0, 6, .w1c, .num 0, .i, .w⟩]⟩,
  ⟨0x24, 1, 0, 1, 0, .none, [⟨0, 6, .rw, .num 0, .i, .w⟩]⟩,
  ⟨0x28, 1, 0, 1, 0, .none, [⟨0, 2, .ro, .num 0, .i, .w⟩, ⟨8, 6, .ro, .num 0, .i, .w⟩]⟩,
  ⟨0x40, 4, 4, 1, 0, .none, [⟨0, 8, .ro, .num 0x3e, .i, .a⟩, ⟨8, 12, .ro, .num 0xb2a, .i, .a⟩]⟩,
  ⟨0x1000, 64, 8, 1, 0, .none, [⟨0, 24, .rw, .img, .i, .w⟩, ⟨24, 6, .rw, .img, .i, .w⟩, ⟨31, 1, .rw, .img, .i, .w⟩]⟩,
  ⟨0x1004, 64, 8, 1, 0, .none, [⟨0, 24, .rw, .img, .i, .w⟩]⟩,
  ⟨0x1400, 64, 8, 1, 0, .none, [⟨0, 32, .ro, .otp, .i, .a⟩]⟩,
  ⟨0x1404, 64, 8, 1, 0, .none, [⟨0, 32, .ro, .otp, .i, .a⟩]⟩]

/-- Registers of the OUT page: OUT_CTRL to OUT_PPS_k_STATUS. -/
def rowsOUT : List RegRow := [
  ⟨0x0, 1, 0, 1, 0, .none, [⟨0, 16, .rw, .img, .i, .w⟩]⟩,
  ⟨0x4, 1, 0, 1, 0, .none, [⟨0, 16, .ro, .num 0xffff, .i, .w⟩]⟩,
  ⟨0x8, 1, 0, 1, 0, .none, [⟨0, 4, .w1c, .num 0, .i, .w⟩]⟩,
  ⟨0xC, 1, 0, 1, 0, .none, [⟨0, 4, .rw, .num 0, .i, .w⟩]⟩,
  ⟨0x10, 1, 0, 1, 0, .none, [⟨0, 4, .ro, .num 0, .i, .w⟩]⟩,
  ⟨0x100, 12, 32, 1, 0, .none, [⟨0, 1, .rw, .img, .i, .w⟩, ⟨1, 1, .rw, .img, .i, .w⟩, ⟨2, 2, .rw, .img, .i, .w⟩, ⟨8, 24, .rw, .img, .s, .w⟩]⟩,
  ⟨0x104, 12, 32, 1, 0, .none, [⟨0, 24, .rw, .img, .s, .w⟩]⟩,
  ⟨0x108, 12, 32, 1, 0, .none, [⟨0, 24, .rw, .img, .s, .w⟩]⟩,
  ⟨0x10C, 12, 32, 1, 0, .none, [⟨0, 10, .rw, .img, .i, .w⟩, ⟨16, 4, .rw, .img, .i, .w⟩]⟩,
  ⟨0x110, 12, 32, 1, 0, .none, [⟨0, 1, .ro, .num 0, .i, .w⟩, ⟨1, 1, .ro, .num 0, .i, .w⟩]⟩,
  ⟨0x400, 4, 32, 1, 0, .none, [⟨0, 1, .rw, .img, .t, .w⟩, ⟨4, 4, .rw, .img, .t, .w⟩, ⟨8, 1, .rw, .img, .t, .w⟩]⟩,
  ⟨0x404, 4, 32, 1, 0, .none, [⟨0, 30, .rw, .img, .t, .w⟩]⟩,
  ⟨0x408, 4, 32, 1, 0, .none, [⟨0, 32, .rw, .img, .t, .w⟩]⟩,
  ⟨0x40C, 4, 32, 1, 0, .none, [⟨0, 9, .rw, .img, .t, .w⟩]⟩,
  ⟨0x410, 4, 32, 1, 0, .none, [⟨0, 30, .rw, .img, .t, .w⟩]⟩,
  ⟨0x414, 4, 32, 1, 0, .none, [⟨0, 1, .ro, .num 0, .i, .w⟩, ⟨1, 1, .ro, .num 0, .i, .w⟩, ⟨16, 8, .ro, .num 0, .i, .w⟩]⟩]

/-- Registers of the PHX page, part 0: PHX_CTRL to PHX_STATUS_k. -/
def rowsPHX0 : List RegRow := [
  ⟨0x0, 1, 0, 1, 0, .none, [⟨0, 1, .rw, .img, .i, .w⟩, ⟨1, 1, .ro, .num 0, .i, .w⟩, ⟨8, 8, .ro, .num 0xff, .i, .w⟩]⟩,
  ⟨0x4, 1, 0, 1, 0, .none, [⟨0, 32, .wl, .img, .i, .w⟩]⟩,
  ⟨0x8, 1, 0, 1, 0, .none, [⟨0, 16, .wl, .img, .i, .w⟩]⟩,
  ⟨0x10, 1, 0, 1, 0, .none, [⟨0, 7, .rw, .num 0, .i, .w⟩, ⟨8, 1, .rw, .num 0, .i, .w⟩, ⟨16, 7, .rw, .num 0, .i, .w⟩, ⟨31, 1, .w1s, .num 0, .i, .w⟩]⟩,
  ⟨0x14, 1, 0, 1, 0, .none, [⟨0, 12, .rw, .num 0x40, .i, .w⟩]⟩,
  ⟨0x18, 1, 0, 1, 0, .none, [⟨0, 32, .rw, .num 0, .i, .w⟩]⟩,
  ⟨0x1C, 1, 0, 1, 0, .none, [⟨0, 2, .ro, .num 0, .i, .w⟩, ⟨4, 4, .ro, .num 0, .i, .w⟩, ⟨16, 12, .ro, .num 0, .i, .w⟩]⟩,
  ⟨0x20, 1, 0, 1, 0, .none, [⟨0, 32, .ro, .num 0, .i, .w⟩]⟩,
  ⟨0x24, 1, 0, 1, 0, .none, [⟨0, 32, .ro, .num 0, .i, .w⟩]⟩,
  ⟨0x28, 1, 0, 1, 0, .none, [⟨0, 32, .ro, .num 0, .i, .w⟩]⟩,
  ⟨0x30, 1, 0, 1, 0, .none, [⟨0, 2, .w1c, .num 0, .i, .w⟩]⟩,
  ⟨0x34, 1, 0, 1, 0, .none, [⟨0, 2, .rw, .num 0, .i, .w⟩]⟩,
  ⟨0x1000, 80, 128, 1, 0, .link, [⟨0, 1, .rw, .img, .i, .w⟩, ⟨4, 4, .rw, .num 8, .i, .w⟩, ⟨8, 4, .rw, .num 4, .i, .w⟩, ⟨12, 4, .rw, .num 8, .i, .w⟩, ⟨16, 12, .rw, .num 0x64, .i, .w⟩]⟩,
  ⟨0x1004, 80, 128, 1, 0, .link, [⟨0, 32, .rw, .img, .s, .w⟩]⟩,
  ⟨0x1008, 80, 128, 1, 0, .link, [⟨0, 32, .rw, .img, .s, .w⟩]⟩,
  ⟨0x100C, 80, 128, 1, 0, .link, [⟨0, 3, .ro, .num 0, .i, .w⟩, ⟨3, 1, .ro, .num 0, .i, .w⟩, ⟨4, 1, .ro, .num 0, .i, .w⟩, ⟨5, 1, .ro, .num 0, .i, .w⟩, ⟨6, 1, .ro, .num 0, .i, .w⟩, ⟨7, 1, .ro, .num 0, .i, .w⟩, ⟨8, 8, .ro, .num 0xff, .i, .w⟩, ⟨16, 8, .ro, .num 0, .i, .w⟩, ⟨24, 8, .ro, .num 0, .i, .w⟩]⟩]

/-- Registers of the PHX page, part 1: PHX_RTT_LO_k to PHX_JUMP_CNT_k. -/
def rowsPHX1 : List RegRow := [
  ⟨0x1010, 80, 128, 1, 0, .link, [⟨0, 32, .ro, .num 0, .i, .w⟩]⟩,
  ⟨0x1014, 80, 128, 1, 0, .link, [⟨0, 32, .ro, .num 0, .i, .w⟩]⟩,
  ⟨0x1018, 80, 128, 1, 0, .link, [⟨0, 32, .ro, .num 0, .i, .w⟩]⟩,
  ⟨0x101C, 80, 128, 1, 0, .link, [⟨0, 32, .ro, .num 0, .i, .w⟩]⟩,
  ⟨0x1020, 80, 128, 1, 0, .link, [⟨0, 32, .ro, .num 0, .i, .w⟩]⟩,
  ⟨0x1024, 80, 128, 1, 0, .link, [⟨0, 32, .ro, .num 0, .i, .w⟩]⟩,
  ⟨0x1028, 80, 128, 1, 0, .link, [⟨0, 32, .ro, .num 0, .i, .w⟩]⟩,
  ⟨0x102C, 80, 128, 1, 0, .link, [⟨0, 20, .ro, .num 0, .i, .w⟩]⟩,
  ⟨0x1030, 80, 128, 1, 0, .link, [⟨0, 20, .ro, .num 0, .i, .w⟩]⟩,
  ⟨0x1034, 80, 128, 1, 0, .link, [⟨0, 32, .ro, .num 0, .i, .w⟩]⟩,
  ⟨0x1038, 80, 128, 1, 0, .link, [⟨0, 32, .ro, .num 0, .i, .w⟩]⟩,
  ⟨0x103C, 80, 128, 1, 0, .link, [⟨0, 32, .ro, .num 0, .i, .w⟩]⟩,
  ⟨0x1040, 80, 128, 1, 0, .link, [⟨0, 32, .ro, .num 0, .i, .w⟩]⟩,
  ⟨0x1044, 80, 128, 1, 0, .link, [⟨0, 32, .rc, .num 0, .i, .w⟩]⟩,
  ⟨0x1048, 80, 128, 1, 0, .link, [⟨0, 32, .rc, .num 0, .i, .w⟩]⟩,
  ⟨0x104C, 80, 128, 1, 0, .link, [⟨0, 32, .rc, .num 0, .i, .w⟩]⟩]

/-- Registers of the PHX page, part 2: PHX_EVENT_k to PHX_EVENT_EN_k. -/
def rowsPHX2 : List RegRow := [
  ⟨0x1050, 80, 128, 1, 0, .link, [⟨0, 8, .w1c, .num 0, .i, .w⟩]⟩,
  ⟨0x1054, 80, 128, 1, 0, .link, [⟨0, 8, .rw, .num 0, .i, .w⟩]⟩]

/-- Registers of the PHX page. -/
def rowsPHX : List RegRow := rowsPHX0 ++ rowsPHX1 ++ rowsPHX2

/-- Registers of the RLK page, part 0: RLK_CFG_n to RLK_MGT_DROP_n. -/
def rowsRLK0 : List RegRow := [
  ⟨0x0, 16, 256, 1, 0, .none, [⟨0, 1, .rw, .img, .i, .w⟩, ⟨1, 2, .rw, .img, .i, .w⟩, ⟨3, 1, .rw, .img, .i, .w⟩, ⟨4, 1, .rw, .img, .i, .w⟩, ⟨5, 1, .rw, .img, .i, .w⟩, ⟨6, 1, .rw, .img, .i, .w⟩]⟩,
  ⟨0x4, 16, 256, 1, 0, .none, [⟨0, 1, .w1s, .num 0, .i, .w⟩]⟩,
  ⟨0x8, 16, 256, 1, 0, .none, [⟨0, 4, .ro, .num 0, .i, .w⟩, ⟨4, 2, .ro, .num 0, .i, .w⟩, ⟨6, 1, .ro, .num 0, .i, .w⟩, ⟨7, 1, .ro, .num 0, .i, .w⟩, ⟨8, 1, .ro, .num 0, .i, .w⟩, ⟨9, 1, .ro, .num 0, .i, .w⟩, ⟨10, 1, .ro, .num 0, .i, .w⟩, ⟨16, 8, .ro, .num 0, .i, .w⟩]⟩,
  ⟨0xC, 16, 256, 1, 0, .none, [⟨0, 32, .ro, .num 0, .i, .w⟩]⟩,
  ⟨0x10, 16, 256, 1, 0, .none, [⟨0, 6, .ro, .num 0, .i, .w⟩, ⟨8, 4, .ro, .num 0, .i, .w⟩, ⟨31, 1, .ro, .num 0, .i, .w⟩]⟩,
  ⟨0x14, 16, 256, 1, 0, .none, [⟨0, 32, .ro, .num 0, .i, .w⟩]⟩,
  ⟨0x18, 16, 256, 1, 0, .none, [⟨0, 32, .ro, .num 0, .i, .w⟩]⟩,
  ⟨0x1C, 16, 256, 1, 0, .none, [⟨0, 32, .ro, .num 0, .i, .w⟩]⟩,
  ⟨0x20, 16, 256, 1, 0, .none, [⟨0, 11, .w1c, .num 0, .i, .w⟩]⟩,
  ⟨0x24, 16, 256, 1, 0, .none, [⟨0, 11, .rw, .num 0, .i, .w⟩]⟩,
  ⟨0x28, 16, 256, 1, 0, .none, [⟨0, 32, .rc, .num 0, .i, .w⟩]⟩,
  ⟨0x2C, 16, 256, 1, 0, .none, [⟨0, 32, .rc, .num 0, .i, .w⟩]⟩,
  ⟨0x30, 16, 256, 1, 0, .none, [⟨0, 16, .ro, .num 0, .i, .w⟩, ⟨16, 16, .ro, .num 0, .i, .w⟩]⟩,
  ⟨0x34, 16, 256, 1, 0, .none, [⟨0, 10, .rw, .num 0, .i, .w⟩, ⟨14, 1, .rw, .num 0, .i, .w⟩, ⟨15, 1, .rw, .num 0, .i, .w⟩, ⟨16, 1, .w1s, .num 0, .i, .w⟩]⟩,
  ⟨0x38, 16, 256, 1, 0, .none, [⟨0, 3, .ro, .num 0, .i, .w⟩, ⟨4, 2, .ro, .num 0, .i, .w⟩, ⟨8, 1, .w1s, .num 0, .i, .w⟩]⟩,
  ⟨0x3C, 16, 256, 1, 0, .none, [⟨0, 32, .rc, .num 0, .i, .w⟩]⟩]

/-- Registers of the RLK page, part 1: RLK_TUN_MAX_n to RLK_UTC. -/
def rowsRLK1 : List RegRow := [
  ⟨0x40, 16, 256, 1, 0, .none, [⟨0, 14, .rw, .img, .i, .w⟩]⟩,
  ⟨0x44, 16, 256, 1, 0, .none, [⟨0, 32, .ro, .num 0, .i, .w⟩]⟩,
  ⟨0x1000, 1, 0, 1, 0, .none, [⟨0, 32, .wl, .img, .i, .w⟩]⟩,
  ⟨0x1004, 1, 0, 1, 0, .none, [⟨0, 32, .wl, .img, .i, .w⟩]⟩,
  ⟨0x1008, 1, 0, 1, 0, .none, [⟨0, 16, .rw, .num 0x64, .i, .w⟩]⟩,
  ⟨0x100C, 1, 0, 1, 0, .none, [⟨0, 16, .rw, .img, .t, .w⟩, ⟨16, 1, .rw, .num 0, .t, .w⟩, ⟨17, 1, .rw, .num 0, .t, .w⟩]⟩]

/-- Registers of the RLK page. -/
def rowsRLK : List RegRow := rowsRLK0 ++ rowsRLK1

/-- Registers of the HSL page: HSL_CFG_l to HSL_EVENT_EN_l. -/
def rowsHSL : List RegRow := [
  ⟨0x0, 64, 256, 1, 0, .lane, [⟨0, 2, .ro, .img, .i, .w⟩, ⟨2, 1, .ro, .img, .i, .w⟩, ⟨8, 6, .ro, .img, .i, .w⟩]⟩,
  ⟨0x4, 64, 256, 1, 0, .lane, [⟨0, 1, .rw, .img, .i, .w⟩, ⟨1, 1, .rw, .img, .i, .w⟩, ⟨2, 2, .rw, .num 0, .i, .n⟩]⟩,
  ⟨0x8, 64, 256, 1, 0, .lane, [⟨0, 1, .ro, .num 0, .i, .n⟩, ⟨1, 1, .ro, .num 0, .i, .n⟩, ⟨2, 1, .ro, .num 0, .i, .n⟩, ⟨3, 1, .ro, .num 0, .i, .n⟩, ⟨4, 2, .ro, .num 2, .i, .n⟩, ⟨6, 1, .ro, .num 0, .i, .n⟩, ⟨16, 8, .ro, .num 0, .i, .n⟩]⟩,
  ⟨0xC, 64, 256, 1, 0, .lane, [⟨0, 7, .ro, .num 0, .i, .n⟩, ⟨7, 12, .ro, .num 0, .i, .n⟩, ⟨19, 13, .ro, .num 0, .i, .n⟩]⟩,
  ⟨0x10, 64, 256, 1, 0, .lane, [⟨0, 7, .ro, .num 0, .i, .n⟩]⟩,
  ⟨0x20, 64, 256, 1, 0, .lane, [⟨0, 3, .rw, .num 0, .i, .n⟩, ⟨3, 1, .rw, .num 0, .i, .n⟩, ⟨4, 3, .rw, .num 0, .i, .n⟩, ⟨7, 1, .rw, .num 0, .i, .n⟩, ⟨8, 1, .w1s, .num 0, .i, .n⟩, ⟨12, 4, .rw, .num 0, .i, .n⟩]⟩,
  ⟨0x24, 64, 256, 1, 0, .lane, [⟨0, 32, .ro, .num 0, .i, .n⟩]⟩,
  ⟨0x28, 64, 256, 1, 0, .lane, [⟨0, 32, .ro, .num 0, .i, .n⟩]⟩,
  ⟨0x30, 64, 256, 1, 0, .lane, [⟨0, 4, .w1c, .num 0, .i, .h⟩]⟩,
  ⟨0x34, 64, 256, 1, 0, .lane, [⟨0, 4, .rw, .num 0, .i, .h⟩]⟩]

/-- Registers of the MAC page: MAC_CFG_p to MAC_EVENT_EN_p. -/
def rowsMAC : List RegRow := [
  ⟨0x0, 64, 256, 1, 0, .port, [⟨0, 1, .rw, .img, .i, .w⟩, ⟨4, 3, .ro, .img, .i, .w⟩, ⟨8, 4, .ro, .img, .i, .w⟩, ⟨12, 2, .ro, .img, .i, .w⟩, ⟨16, 1, .rw, .img, .i, .w⟩, ⟨17, 1, .rw, .num 0, .i, .n⟩]⟩,
  ⟨0x4, 64, 256, 1, 0, .port, [⟨0, 14, .rw, .img, .i, .w⟩]⟩,
  ⟨0x8, 64, 256, 1, 0, .port, [⟨0, 1, .ro, .num 0, .i, .n⟩, ⟨1, 3, .ro, .num 0, .i, .n⟩, ⟨4, 1, .ro, .num 0, .i, .n⟩, ⟨5, 1, .ro, .num 0, .i, .n⟩]⟩,
  ⟨0xC, 64, 256, 1, 0, .port, [⟨0, 1, .rw, .img, .i, .w⟩]⟩,
  ⟨0x10, 64, 256, 1, 0, .port, [⟨0, 1, .ro, .num 0, .i, .n⟩, ⟨1, 2, .ro, .num 0, .i, .n⟩]⟩,
  ⟨0x14, 64, 256, 1, 0, .port, [⟨0, 20, .ro, .num 0, .i, .n⟩]⟩,
  ⟨0x18, 64, 256, 1, 0, .port, [⟨0, 20, .ro, .num 0, .i, .n⟩]⟩,
  ⟨0x20, 64, 256, 1, 0, .port, [⟨0, 5, .w1c, .num 0, .i, .h⟩]⟩,
  ⟨0x24, 64, 256, 1, 0, .port, [⟨0, 5, .rw, .num 0, .i, .h⟩]⟩]

/-- Registers of the FWD page, part 0: FWD_HASH_SEED to FWD_ENG_DEPTH_k_j. -/
def rowsFWD0 : List RegRow := [
  ⟨0x0, 1, 0, 1, 0, .none, [⟨0, 32, .wl, .img, .i, .w⟩]⟩,
  ⟨0x10, 3, 4, 1, 0, .none, [⟨0, 6, .ro, .img, .i, .w⟩, ⟨8, 6, .ro, .img, .i, .w⟩]⟩,
  ⟨0x20, 3, 4, 1, 0, .none, [⟨0, 6, .ro, .img, .i, .w⟩, ⟨8, 6, .ro, .img, .i, .w⟩]⟩,
  ⟨0x30, 1, 0, 1, 0, .none, [⟨0, 16, .rw, .img, .s, .w⟩, ⟨16, 1, .rw, .img, .s, .w⟩]⟩,
  ⟨0x40, 1, 0, 1, 0, .none, [⟨0, 5, .w1c, .num 0, .i, .h⟩]⟩,
  ⟨0x44, 1, 0, 1, 0, .none, [⟨0, 5, .rw, .num 0, .i, .h⟩]⟩,
  ⟨0x48, 1, 0, 1, 0, .none, [⟨0, 17, .ro, .num 0, .i, .h⟩]⟩,
  ⟨0x1000, 81, 64, 1, 0, .port, [⟨0, 2, .rw, .img, .s, .w⟩, ⟨4, 3, .rw, .img, .s, .w⟩, ⟨16, 12, .rw, .img, .s, .w⟩]⟩,
  ⟨0x1004, 81, 64, 1, 0, .port, [⟨0, 17, .rw, .img, .s, .w⟩]⟩,
  ⟨0x1008, 81, 64, 1, 0, .port, [⟨0, 32, .rc, .num 0, .i, .n⟩]⟩,
  ⟨0x100C, 81, 64, 1, 0, .port, [⟨0, 5, .ro, .num 0, .i, .n⟩]⟩,
  ⟨0x3000, 8, 256, 1, 0, .cluster, [⟨0, 4, .ro, .img, .i, .w⟩, ⟨4, 1, .ro, .img, .i, .w⟩]⟩,
  ⟨0x3004, 8, 256, 1, 0, .cluster, [⟨0, 1, .rw, .num 1, .i, .w⟩, ⟨1, 1, .rw, .num 0, .i, .w⟩, ⟨8, 8, .rw, .num 0x14, .i, .w⟩, ⟨16, 5, .rw, .num 4, .i, .w⟩, ⟨28, 1, .w1s, .num 0, .i, .n⟩]⟩,
  ⟨0x3008, 8, 256, 1, 0, .cluster, [⟨0, 12, .rw, .num 0, .i, .w⟩]⟩,
  ⟨0x300C, 8, 256, 1, 0, .cluster, [⟨0, 12, .ro, .num 0, .i, .w⟩, ⟨16, 12, .ro, .num 0, .i, .n⟩]⟩,
  ⟨0x3010, 8, 256, 3, 4, .cluster, [⟨0, 5, .ro, .num 0, .i, .n⟩, ⟨8, 5, .ro, .num 0, .i, .n⟩, ⟨16, 5, .ro, .num 0, .i, .n⟩, ⟨24, 5, .ro, .num 0, .i, .n⟩]⟩]

/-- Registers of the FWD page, part 1: FWD_CL_STEALS_k to FWD_CL_BORROW_k. -/
def rowsFWD1 : List RegRow := [
  ⟨0x3020, 8, 256, 1, 0, .cluster, [⟨0, 32, .rc, .num 0, .i, .n⟩]⟩,
  ⟨0x3024, 8, 256, 1, 0, .cluster, [⟨0, 13, .ro, .num 0, .i, .n⟩, ⟨16, 13, .ro, .num 0, .i, .n⟩]⟩]

/-- Registers of the FWD page. -/
def rowsFWD : List RegRow := rowsFWD0 ++ rowsFWD1

/-- Registers of the BPM page: BPM_POOL_BASE_k to BPM_QCELLS_p_c. -/
def rowsBPM : List RegRow := [
  ⟨0x0, 4, 16, 1, 0, .none, [⟨0, 19, .ro, .img, .i, .w⟩]⟩,
  ⟨0x4, 4, 16, 1, 0, .none, [⟨0, 19, .ro, .img, .i, .w⟩, ⟨24, 6, .ro, .nums [1, 4, 9, 38], .i, .a⟩]⟩,
  ⟨0x8, 4, 16, 1, 0, .none, [⟨0, 19, .ro, .num 0, .i, .n⟩, ⟨31, 1, .ro, .num 0, .i, .n⟩]⟩,
  ⟨0xC, 4, 16, 1, 0, .none, [⟨0, 16, .rw, .num 0x100, .i, .w⟩]⟩,
  ⟨0x40, 4, 4, 1, 0, .none, [⟨0, 19, .rc, .num 0x7ffff, .i, .n⟩]⟩,
  ⟨0x50, 1, 0, 1, 0, .none, [⟨0, 7, .w1c, .num 0, .i, .h⟩]⟩,
  ⟨0x54, 1, 0, 1, 0, .none, [⟨0, 7, .rw, .num 0, .i, .h⟩]⟩,
  ⟨0x58, 1, 0, 1, 0, .none, [⟨0, 21, .ro, .num 0, .i, .h⟩, ⟨21, 1, .ro, .num 0, .i, .h⟩, ⟨22, 1, .ro, .num 0, .i, .h⟩, ⟨24, 8, .ro, .num 0, .i, .h⟩]⟩,
  ⟨0x5C, 1, 0, 1, 0, .none, [⟨0, 32, .rc, .num 0, .i, .h⟩]⟩,
  ⟨0x60, 1, 0, 1, 0, .none, [⟨0, 21, .rw, .num 0, .i, .n⟩, ⟨21, 8, .rw, .num 0, .i, .n⟩, ⟨31, 1, .w1s, .num 0, .i, .n⟩]⟩,
  ⟨0x64, 1, 0, 1, 0, .none, [⟨0, 32, .rc, .num 0, .i, .h⟩]⟩,
  ⟨0x68, 1, 0, 1, 0, .none, [⟨0, 19, .ro, .num 0, .i, .h⟩]⟩,
  ⟨0x1000, 81, 64, 8, 4, .port, [⟨0, 19, .rw, .img, .s, .w⟩]⟩,
  ⟨0x1020, 81, 64, 8, 4, .port, [⟨0, 19, .rw, .img, .s, .w⟩, ⟨29, 1, .rw, .img, .s, .w⟩, ⟨30, 1, .rw, .img, .s, .w⟩]⟩,
  ⟨0x2800, 81, 4, 1, 0, .port, [⟨0, 16, .ro, .img, .i, .w⟩, ⟨16, 8, .ro, .img, .i, .w⟩]⟩,
  ⟨0x3000, 81, 32, 8, 4, .port, [⟨0, 19, .ro, .num 0, .i, .n⟩]⟩]

/-- Registers of the QSC page, part 0: QSC_SK_CTRL to QSC_LAUNCH_p. -/
def rowsQSC0 : List RegRow := [
  ⟨0x0, 1, 0, 1, 0, .none, [⟨0, 1, .rw, .num 0, .i, .w⟩]⟩,
  ⟨0x4, 1, 0, 1, 0, .none, [⟨0, 4, .w1c, .num 0, .i, .h⟩]⟩,
  ⟨0x8, 1, 0, 1, 0, .none, [⟨0, 4, .rw, .num 0, .i, .h⟩]⟩,
  ⟨0xC, 1, 0, 1, 0, .none, [⟨0, 12, .ro, .num 0, .i, .h⟩]⟩,
  ⟨0x10, 1, 0, 1, 0, .none, [⟨0, 13, .ro, .num 0, .i, .n⟩]⟩,
  ⟨0x1000, 81, 256, 1, 0, .port, [⟨0, 8, .rw, .img, .s, .w⟩]⟩,
  ⟨0x1004, 81, 256, 8, 4, .port, [⟨0, 16, .rw, .img, .s, .w⟩]⟩,
  ⟨0x1024, 81, 256, 1, 0, .port, [⟨0, 8, .ro, .img, .i, .w⟩, ⟨8, 8, .ro, .img, .i, .w⟩]⟩,
  ⟨0x1028, 81, 256, 1, 0, .port, [⟨0, 1, .rw, .img, .i, .w⟩, ⟨1, 1, .rw, .num 0, .i, .w⟩, ⟨2, 2, .rw, .num 0, .i, .w⟩, ⟨8, 8, .rw, .img, .i, .w⟩, ⟨16, 3, .ro, .num 0, .i, .n⟩, ⟨19, 1, .ro, .num 0, .i, .n⟩, ⟨20, 7, .rw, .num 0xa, .i, .w⟩]⟩,
  ⟨0x1030, 81, 256, 1, 0, .port, [⟨0, 1, .rw, .img, .t, .w⟩, ⟨1, 1, .rw, .img, .t, .w⟩, ⟨16, 9, .rw, .img, .t, .w⟩]⟩,
  ⟨0x1034, 81, 256, 1, 0, .port, [⟨0, 32, .rw, .img, .t, .w⟩]⟩,
  ⟨0x1038, 81, 256, 1, 0, .port, [⟨0, 16, .rw, .img, .t, .w⟩]⟩,
  ⟨0x103C, 81, 256, 1, 0, .port, [⟨0, 30, .rw, .img, .t, .w⟩]⟩,
  ⟨0x1040, 81, 256, 1, 0, .port, [⟨0, 30, .rw, .img, .t, .w⟩]⟩,
  ⟨0x1044, 81, 256, 1, 0, .port, [⟨0, 1, .ro, .num 0, .i, .w⟩, ⟨1, 1, .ro, .num 0, .i, .w⟩, ⟨2, 1, .ro, .num 0, .i, .w⟩, ⟨8, 8, .ro, .num 0, .i, .w⟩]⟩,
  ⟨0x1048, 81, 256, 1, 0, .port, [⟨0, 8, .rw, .img, .s, .w⟩, ⟨16, 16, .rw, .num 0, .s, .w⟩]⟩]

/-- Registers of the QSC page, part 1: QSC_FLUSH_p to QSC_QFRAMES_p_q. -/
def rowsQSC1 : List RegRow := [
  ⟨0x104C, 81, 256, 1, 0, .port, [⟨0, 8, .w1s, .num 0, .i, .n⟩]⟩,
  ⟨0x1050, 81, 256, 1, 0, .port, [⟨0, 7, .w1c, .num 0, .i, .h⟩]⟩,
  ⟨0x1054, 81, 256, 1, 0, .port, [⟨0, 7, .rw, .num 0, .i, .h⟩]⟩,
  ⟨0x1058, 81, 256, 1, 0, .port, [⟨0, 8, .ro, .num 0, .i, .h⟩]⟩,
  ⟨0x1060, 81, 256, 8, 4, .port, [⟨0, 16, .ro, .num 0, .i, .n⟩]⟩]

/-- Registers of the QSC page. -/
def rowsQSC : List RegRow := rowsQSC0 ++ rowsQSC1

/-- Registers of the CNT page: CNT_CTRL to CNT_OVF_LAST. -/
def rowsCNT : List RegRow := [
  ⟨0x0, 1, 0, 1, 0, .none, [⟨0, 1, .rw, .num 0, .i, .w⟩, ⟨1, 1, .rw, .num 0, .i, .h⟩, ⟨4, 1, .w1s, .num 0, .i, .n⟩]⟩,
  ⟨0x4, 1, 0, 1, 0, .none, [⟨0, 24, .rw, .num 0xf4240, .i, .w⟩]⟩,
  ⟨0x8, 1, 0, 1, 0, .none, [⟨0, 32, .rw, .num 0, .i, .w⟩]⟩,
  ⟨0xC, 1, 0, 1, 0, .none, [⟨0, 32, .rw, .num 0, .i, .w⟩]⟩,
  ⟨0x10, 1, 0, 1, 0, .none, [⟨0, 11, .rw, .num 0x10, .i, .w⟩]⟩,
  ⟨0x14, 1, 0, 1, 0, .none, [⟨0, 25, .rw, .num 0x13380, .i, .w⟩]⟩,
  ⟨0x18, 1, 0, 1, 0, .none, [⟨0, 11, .ro, .num 0, .i, .h⟩]⟩,
  ⟨0x1C, 1, 0, 1, 0, .none, [⟨0, 11, .rw, .num 0, .i, .h⟩]⟩,
  ⟨0x20, 1, 0, 1, 0, .none, [⟨0, 25, .ro, .num 0x13380, .i, .w⟩]⟩,
  ⟨0x24, 1, 0, 1, 0, .none, [⟨0, 32, .ro, .num 0, .i, .h⟩]⟩,
  ⟨0x28, 1, 0, 1, 0, .none, [⟨0, 32, .rc, .num 0, .i, .h⟩]⟩,
  ⟨0x2C, 1, 0, 1, 0, .none, [⟨0, 1, .ro, .num 0, .i, .h⟩, ⟨1, 1, .ro, .num 0, .i, .h⟩, ⟨4, 4, .ro, .num 0, .i, .h⟩]⟩,
  ⟨0x30, 1, 0, 1, 0, .none, [⟨0, 4, .w1c, .num 0, .i, .h⟩]⟩,
  ⟨0x34, 1, 0, 1, 0, .none, [⟨0, 4, .rw, .num 0, .i, .h⟩]⟩,
  ⟨0x38, 1, 0, 1, 0, .none, [⟨0, 14, .ro, .num 0, .i, .h⟩]⟩]

/-- Registers of the CRG page: CRG_CTRL to CRG_RULE_j_B. -/
def rowsCRG : List RegRow := [
  ⟨0x0, 1, 0, 1, 0, .none, [⟨0, 2, .rw, .num 0, .i, .h⟩, ⟨2, 1, .rw, .num 0, .i, .h⟩, ⟨4, 1, .w1s, .num 0, .i, .n⟩, ⟨5, 1, .w1s, .num 0, .i, .n⟩]⟩,
  ⟨0x4, 1, 0, 1, 0, .none, [⟨0, 2, .ro, .num 0, .i, .h⟩, ⟨2, 1, .ro, .num 0, .i, .h⟩, ⟨12, 20, .ro, .num 0, .i, .h⟩]⟩,
  ⟨0x8, 1, 0, 1, 0, .none, [⟨0, 20, .ro, .num 0, .i, .h⟩]⟩,
  ⟨0xC, 1, 0, 1, 0, .none, [⟨0, 20, .ro, .num 0, .i, .h⟩]⟩,
  ⟨0x10, 1, 0, 1, 0, .none, [⟨0, 20, .rw, .num 0x2000, .i, .h⟩, ⟨24, 4, .rw, .num 0, .i, .h⟩]⟩,
  ⟨0x14, 1, 0, 1, 0, .none, [⟨0, 30, .rw, .num 0, .i, .h⟩]⟩,
  ⟨0x18, 1, 0, 1, 0, .none, [⟨0, 32, .rw, .num 0, .i, .h⟩]⟩,
  ⟨0x20, 1, 0, 1, 0, .none, [⟨0, 32, .rw, .num 0, .i, .h⟩]⟩,
  ⟨0x24, 1, 0, 1, 0, .none, [⟨0, 32, .rw, .num 0, .i, .h⟩]⟩,
  ⟨0x28, 1, 0, 1, 0, .none, [⟨0, 5, .rw, .num 0xe, .i, .h⟩]⟩,
  ⟨0x2C, 1, 0, 1, 0, .none, [⟨0, 20, .rw, .num 0, .i, .h⟩]⟩,
  ⟨0x30, 1, 0, 1, 0, .none, [⟨0, 32, .rc, .num 0, .i, .h⟩]⟩,
  ⟨0x34, 1, 0, 1, 0, .none, [⟨0, 3, .w1c, .num 0, .i, .h⟩]⟩,
  ⟨0x38, 1, 0, 1, 0, .none, [⟨0, 3, .rw, .num 0, .i, .h⟩]⟩,
  ⟨0x40, 8, 8, 1, 0, .none, [⟨0, 7, .rw, .num 0, .s, .h⟩, ⟨7, 1, .rw, .num 1, .s, .h⟩, ⟨8, 7, .rw, .num 0, .s, .h⟩, ⟨15, 1, .rw, .num 1, .s, .h⟩, ⟨16, 5, .rw, .num 0x1f, .s, .h⟩, ⟨24, 3, .rw, .num 0, .s, .h⟩, ⟨27, 1, .rw, .num 1, .s, .h⟩, ⟨30, 1, .rw, .num 0, .s, .h⟩, ⟨31, 1, .rw, .num 0, .s, .h⟩]⟩,
  ⟨0x44, 8, 8, 1, 0, .none, [⟨0, 8, .rw, .num 0, .s, .h⟩, ⟨8, 1, .rw, .num 1, .s, .h⟩, ⟨9, 4, .rw, .num 0, .s, .h⟩, ⟨13, 1, .rw, .num 0, .s, .h⟩, ⟨16, 12, .rw, .num 0, .s, .h⟩, ⟨28, 1, .rw, .num 1, .s, .h⟩]⟩]

/-- Registers of the RDN page, part 0: RDN_CTRL to RDN_MIR_Q. -/
def rowsRDN0 : List RegRow := [
  ⟨0x0, 1, 0, 1, 0, .none, [⟨0, 1, .rw, .img, .i, .w⟩, ⟨1, 1, .rw, .num 0, .i, .w⟩, ⟨4, 1, .w1s, .num 0, .i, .n⟩, ⟨5, 1, .w1s, .num 0, .i, .n⟩, ⟨6, 1, .w1s, .num 0, .i, .n⟩]⟩,
  ⟨0x4, 1, 0, 1, 0, .none, [⟨0, 4, .wl, .img, .i, .w⟩, ⟨4, 1, .wl, .img, .i, .w⟩, ⟨5, 1, .wl, .img, .i, .w⟩]⟩,
  ⟨0x8, 1, 0, 1, 0, .none, [⟨0, 12, .rw, .num 0xfa, .i, .w⟩, ⟨16, 10, .rw, .num 0xa, .i, .w⟩]⟩,
  ⟨0xC, 1, 0, 1, 0, .none, [⟨0, 2, .ro, .num 0, .i, .n⟩, ⟨2, 1, .ro, .num 0, .i, .n⟩, ⟨4, 2, .ro, .num 0, .i, .n⟩, ⟨6, 1, .ro, .num 0, .i, .n⟩, ⟨7, 1, .ro, .num 0, .i, .n⟩, ⟨8, 1, .ro, .num 0, .i, .w⟩, ⟨9, 1, .ro, .num 1, .i, .n⟩, ⟨10, 1, .ro, .num 0, .i, .n⟩, ⟨11, 1, .ro, .num 0, .i, .n⟩, ⟨12, 1, .ro, .num 0, .i, .n⟩, ⟨13, 1, .ro, .num 0, .i, .w⟩, ⟨16, 4, .ro, .num 0, .i, .n⟩, ⟨24, 2, .ro, .num 0, .i, .w⟩]⟩,
  ⟨0x10, 1, 0, 1, 0, .none, [⟨0, 15, .w1c, .num 0, .i, .h⟩]⟩,
  ⟨0x14, 1, 0, 1, 0, .none, [⟨0, 15, .rw, .num 0, .i, .h⟩]⟩,
  ⟨0x18, 1, 0, 1, 0, .none, [⟨0, 32, .wl, .img, .i, .w⟩]⟩,
  ⟨0x1C, 1, 0, 1, 0, .none, [⟨0, 32, .wl, .img, .i, .w⟩]⟩,
  ⟨0x20, 1, 0, 1, 0, .none, [⟨0, 32, .wl, .img, .i, .w⟩]⟩,
  ⟨0x24, 1, 0, 1, 0, .none, [⟨0, 16, .wl, .img, .i, .w⟩]⟩,
  ⟨0x28, 1, 0, 1, 0, .none, [⟨0, 32, .rw, .img, .i, .w⟩]⟩,
  ⟨0x2C, 1, 0, 1, 0, .none, [⟨0, 32, .rw, .img, .i, .w⟩]⟩,
  ⟨0x30, 1, 0, 1, 0, .none, [⟨1, 14, .rw, .img, .i, .w⟩]⟩,
  ⟨0x34, 1, 0, 1, 0, .none, [⟨0, 12, .rw, .num 0xc8, .i, .w⟩]⟩,
  ⟨0x38, 1, 0, 1, 0, .none, [⟨0, 32, .ro, .num 0, .i, .n⟩]⟩,
  ⟨0x3C, 1, 0, 1, 0, .none, [⟨0, 13, .ro, .num 0, .i, .n⟩]⟩]

/-- Registers of the RDN page, part 1: RDN_MIR_SENT to RDN_HB_MISS. -/
def rowsRDN1 : List RegRow := [
  ⟨0x40, 1, 0, 1, 0, .none, [⟨0, 32, .ro, .num 0, .i, .n⟩]⟩,
  ⟨0x44, 1, 0, 1, 0, .none, [⟨0, 32, .ro, .num 0, .i, .n⟩]⟩,
  ⟨0x48, 1, 0, 1, 0, .none, [⟨0, 32, .rc, .num 0, .i, .h⟩]⟩,
  ⟨0x4C, 1, 0, 1, 0, .none, [⟨0, 32, .rc, .num 0, .i, .h⟩]⟩]

/-- Registers of the RDN page. -/
def rowsRDN : List RegRow := rowsRDN0 ++ rowsRDN1

/-- Registers of the TST page: TST_CTRL to TST_QUAR_CNT. -/
def rowsTST : List RegRow := [
  ⟨0x0, 1, 0, 1, 0, .none, [⟨0, 4, .rw, .num 0, .i, .h⟩, ⟨30, 1, .w1s, .num 0, .i, .n⟩, ⟨31, 1, .w1s, .num 0, .i, .n⟩]⟩,
  ⟨0x4, 1, 0, 1, 0, .none, [⟨0, 7, .rw, .num 0, .i, .h⟩, ⟨8, 4, .rw, .num 0, .i, .h⟩, ⟨12, 3, .rw, .num 0, .i, .h⟩]⟩,
  ⟨0x8, 1, 0, 1, 0, .none, [⟨0, 19, .rw, .num 0, .i, .h⟩]⟩,
  ⟨0xC, 1, 0, 1, 0, .none, [⟨0, 19, .rw, .num 0, .i, .h⟩]⟩,
  ⟨0x10, 1, 0, 1, 0, .none, [⟨0, 3, .ro, .num 0, .i, .h⟩, ⟨4, 4, .ro, .num 0, .i, .h⟩, ⟨8, 1, .ro, .num 0, .i, .h⟩]⟩,
  ⟨0x14, 4, 4, 1, 0, .none, [⟨0, 32, .ro, .num 0, .i, .h⟩]⟩,
  ⟨0x30, 1, 0, 1, 0, .none, [⟨0, 3, .w1c, .num 0, .i, .h⟩]⟩,
  ⟨0x34, 1, 0, 1, 0, .none, [⟨0, 3, .rw, .num 0, .i, .h⟩]⟩,
  ⟨0x40, 16, 4, 1, 0, .none, [⟨0, 21, .ro, .num 0, .i, .h⟩, ⟨31, 1, .ro, .num 0, .i, .h⟩]⟩,
  ⟨0x80, 1, 0, 1, 0, .none, [⟨0, 32, .ro, .num 0, .i, .h⟩]⟩]

/-- Registers of the MSC page: MSC_PN_TH_LO to MSC_PORT_AN_p. -/
def rowsMSC : List RegRow := [
  ⟨0x0, 1, 0, 1, 0, .none, [⟨0, 32, .rw, .num 0xC0000000, .i, .w⟩]⟩,
  ⟨0x4, 1, 0, 1, 0, .none, [⟨0, 32, .rw, .num 0, .i, .w⟩]⟩,
  ⟨0x10, 1, 0, 1, 0, .none, [⟨0, 4, .w1c, .num 0, .i, .h⟩]⟩,
  ⟨0x14, 1, 0, 1, 0, .none, [⟨0, 4, .rw, .num 0, .i, .h⟩]⟩,
  ⟨0x18, 1, 0, 1, 0, .none, [⟨0, 13, .ro, .num 0, .i, .h⟩]⟩,
  ⟨0x1000, 64, 64, 1, 0, .port, [⟨0, 2, .rw, .img, .s, .w⟩, ⟨4, 2, .rw, .img, .s, .w⟩, ⟨6, 1, .rw, .img, .s, .w⟩, ⟨7, 1, .rw, .img, .s, .w⟩, ⟨8, 1, .rw, .img, .s, .w⟩, ⟨16, 12, .rw, .img, .s, .w⟩]⟩,
  ⟨0x1004, 64, 64, 1, 0, .port, [⟨0, 2, .rw, .img, .t, .w⟩]⟩]

/-- The rows of the block page with index `pg` of Table TOP-3 (R7). -/
def pageRows : Nat → List RegRow
  | 0 => rowsTOP
  | 1 => rowsIMG
  | 2 => rowsHIF
  | 3 => rowsPWR
  | 4 => rowsSEC
  | 5 => rowsFLT
  | 6 => rowsTBS
  | 7 => rowsTDC
  | 8 => rowsDPL
  | 9 => rowsREF
  | 10 => rowsSYN
  | 11 => rowsOUT
  | 12 => rowsPHX
  | 13 => rowsRLK
  | 14 => rowsHSL
  | 15 => rowsMAC
  | 16 => rowsFWD
  | 17 => rowsBPM
  | 18 => rowsQSC
  | 19 => rowsCNT
  | 20 => rowsCRG
  | 21 => rowsRDN
  | 22 => rowsTST
  | 23 => rowsMSC
  | _ => []

end Sys2Proof.Machine
end

