-- ==== Sys2Proof/Machine/State.lean ====
section
/-! DEFINITION. The state of the block as plain data: the registers and the memories of the CSR window, the
state behind them that no register holds, the fault unit, the interrupt unit and the queue of waiting commands;
the state right after reset; the reasons a step can stop. -/

namespace Sys2Proof.Machine

/-! ### Times and frames -/

/-- A timestamp: an instant in units of 1/65,536 ns (R267, R288), the time-base epoch it was read in (R275) and
its valid mark (R28). -/
structure Stamp where
  t : Nat := 0
  epoch : Nat := 0
  valid : Bool := false
  deriving DecidableEq, Repr, Inhabited

/-- The action an engine returns for a frame: the fields of Table FWD-7 that act after the lookup, and the
launch time of R198 in units of 1/65,536 ns. -/
structure Action where
  vlanOp : Nat := 0
  vid : Nat := 0
  pcp : Nat := 0
  cls : Nat := 0
  reason : Nat := 0
  ctx : Option Nat := none
  launch : Option Nat := none
  deriving DecidableEq, Repr, Inhabited

/-- One copy in a multicast descriptor or the single copy of a unicast frame (R231): its egress port, its queue
and how far it has come: not yet created, unconsumed, or consumed. -/
structure CopyRef where
  port : Nat
  queue : Nat
  created : Bool := false
  consumed : Bool := false
  deriving DecidableEq, Repr, Inhabited

/-- A frame the device holds: its bytes as received, its ingress facts (R174–R179, R288), its buffers (R218,
R220), its action and its copies (R231). `bad` is 0 for a frame not found bad, else its reason of Table QSC-2;
`dropped` is the reason of a frame dropped at allocation whose header still completes its lookup (R226). `windowed` says that its header window was parsed, `waits` that a
rope or a transmit ring has it waiting, `enq` that its action is enqueued (R227), `refused` names the ports whose copies
were refused before any was admitted (R235), `raw` the bytes before MACsec validation, `sa` the association that protects it
(R455), `hurt` says that an uncorrectable codeword or an invalid code group overlaps it (R121, R170), `short` that it was cut before
its FCS (R255), and `ring` is the transmit ring of a frame of port 64 (R186). -/
structure Frame where
  bytes : List Byte := []
  port : Nat := 0
  cls : Nat := 0
  express : Bool := false
  cluster : Nat := 0
  bucket : Nat := 0
  ktype : Nat := 0
  key : Nat := 0
  hash : Nat := 0
  rx : Stamp := {}
  lenTaken : Option Nat := none
  complete : Bool := false
  fragments : Bool := false
  bad : Nat := 0
  buf : Option Nat := none
  chain : Option Nat := none
  dropped : Option Nat := none
  act : Option Action := none
  copies : List CopyRef := []
  mcast : Bool := false
  lastOwner : Nat := 0
  freeWaits : Bool := false
  looked : Bool := false
  bypass : Option Nat := none
  tsOp : Nat := 0
  tsId : Nat := 0
  ptpHold : Bool := false
  auth : Nat := 0
  engine : Nat := 0
  windowed : Bool := false
  waits : Bool := false
  enq : Bool := false
  refused : List Nat := []
  raw : List Byte := []
  sa : Option Nat := none
  hurt : Bool := false
  short : Bool := false
  ring : Nat := 0
  deriving DecidableEq, Repr, Inhabited

/-- A copy in an egress queue (R241): the frame it sends, or a placeholder's own bytes (R263); its launch time
(R256), its mode (R253), its mark (R237) and the length the scheduler reckons with when the frame's is unknown
(R243, R249). -/
structure Copy where
  frame : Nat := 0
  holder : Option (List Byte) := none
  launch : Option Nat := none
  ct : Bool := false
  marked : Bool := false
  cells : Nat := 0
  flow : Nat := 0
  late : Bool := false
  deriving DecidableEq, Repr, Inhabited

/-- A copy in transmission on a port, or one preempted and waiting to resume (R242, R250, R252): its queue, its egress
stamp, the debit taken for it, the channel, association and PN that protect it (R455), and whether it uses the preemptable MAC
(R250). -/
structure Sending where
  copy : Copy
  queue : Nat
  tx : Stamp := {}
  debit : Nat := 0
  sa : Option (Nat × Nat × Nat) := none
  pmac : Bool := false
  deriving DecidableEq, Repr, Inhabited

/-! ### Engines, buffers, queues -/

/-- A hash bucket (R180, R182, R200, R213); `away` says that it moves because its owner retires (R205). -/
structure Bucket where
  owner : Nat := 0
  ownerCl : Nat := 0
  activity : Nat := 0
  inflight : Nat := 0
  moving : Bool := false
  away : Bool := false
  deriving DecidableEq, Repr, Inhabited

/-- The engines' side: frames held, the port header FIFOs (R185), the headers waiting for a moving bucket
(R204), the engine queues, the buckets, the engines whose ranks give the default owners (R181), the last port
served per cluster (R185) and the engines busy retiring one by one (R205). Key of a queue: 12 × cluster + engine.
Key of a bucket: 4,096 × cluster + bucket. -/
structure Fwd where
  frames : Sparse Frame := []
  nextFrame : Nat := 1
  rxCur : Sparse Nat := []
  fifo : Sparse (List Nat) := []
  waiting : List Nat := []
  engQ : Sparse (List Nat) := []
  idle : Sparse Nat := []
  buckets : Sparse Bucket := []
  ranks : Sparse (List Nat) := []
  lastServed : Sparse Nat := []
  retiring : List Nat := []
  deriving DecidableEq, Repr, Inhabited

/-- A pool (R221): its number of buffers, the handles pushed back on its stack, newest first, above those of the
`size` initial handles not yet in `taken`, its eight group caches, newest first, and the groups its pop and its push arbiter granted
last (R222, R225). -/
structure Pool where
  size : Nat := 0
  pushed : List Nat := []
  taken : List Nat := []
  caches : Sparse (List Nat) := []
  lastPop : Nat := 7
  lastPush : Nat := 7
  deriving DecidableEq, Repr, Inhabited

/-- A buffer state entry (R227, Table BPM-9). -/
structure BufState where
  owned : Bool := false
  tag : Nat := 0
  mcast : Bool := false
  chain : Option Nat := none
  deriving DecidableEq, Repr, Inhabited

/-- The buffer pool manager: its pools by number, the state entries by handle (R217), the frames whose
action the engines handed over, the frames whose copies are still to be created (R232), the quarantined handles no allocation has
yet popped (R492), the cells of the packet memory written so far by bank and row, and its 256-bit words with an uncorrectable
error, by cell and word (R214, R215). -/
structure Bpm where
  pools : Sparse Pool := []
  bufs : Sparse BufState := []
  handed : List Nat := []
  creating : List Nat := []
  quarantined : List Nat := []
  cells : Sparse (List Byte) := []
  spoiled : List Nat := []
  deriving DecidableEq, Repr, Inhabited

/-- A gate control list taken at a firing (R246, R247): bank, length, base time in ns, cycle in ns, the first cycle
start at or after the firing, in ns, and whether it waits for that start after a warm reset (R266). -/
structure Gcl where
  bank : Nat := 0
  len : Nat := 0
  base : Nat := 0
  cycle : Nat := 0
  due : Nat := 0
  held : Bool := false
  deriving DecidableEq, Repr, Inhabited

/-- Queues, scheduler, gates and preemption. Key of a queue: 8 × port + queue. -/
structure Qsc where
  queues : Sparse (List Copy) := []
  deficit : Sparse Int := []
  turn : Sparse Nat := []
  sending : Sparse Sending := []
  suspended : Sparse Sending := []
  gates : Sparse Nat := []
  heldMac : List Nat := []
  oper : Sparse Gcl := []
  pend : Sparse Gcl := []
  skVisit : Nat := 0
  deriving DecidableEq, Repr, Inhabited

/-! ### Lanes and ropes -/

/-- A symbol of a rope lane (R144, R145): a data octet, one of the six K-symbols of Table RLK-2 (K28.5, K28.0, K27.7, K29.7,
K30.7, K23.7), or what a receiver takes for an invalid code group. -/
inductive Sym where
  | data (b : Byte)
  | comma | filler | sof | eof | abort | idle
  | invalid
  deriving DecidableEq, Repr, Inhabited

/-- A rope lane beyond its registers (Table RLK-5, R153–R167): r and T, the rates excluded, the highest rate offered since the last
CAPS (Table RLK-8), the step sequence, the negotiation state sent (0 before the first hyperframe of a step), whether the partner's
proposal came and whether its state 2 came (before the first CAPS no rate but code 0 is offered: DESIGN CHOICE, log entry 97); the
hyperframes that count towards CAPS and towards a confirmation; the 10 ms wait in
DOWN; signal and CDR lock. -/
structure RopeLink where
  r : Nat := 0
  target : Nat := 0
  excluded : Nat := 0
  maxRate : Nat := 0
  seq : Nat := 0
  neg : Nat := 0
  proposed : Bool := false
  ackSeen : Bool := false
  caps : Nat := 0
  confirms : Nat := 0
  held : Bool := false
  signal : Bool := false
  cdr : Bool := false
  deriving DecidableEq, Repr, Inhabited

/-- The transmitter of a rope lane (R144, R146–R152, R165–R168): whether it runs, its running disparity (true for positive), the
number of the frame it sends next, the number of its hyperframe, the control words and the management area of that hyperframe,
whether a management chunk is leaving, the symbols of tunnel frames that wait for payload slots, the departures of the hyperframes
sent, by number. -/
structure RopeTx where
  runs : Bool := false
  plus : Bool := false
  frame : Nat := 0
  hyper : Nat := 0
  words : List Byte := []
  area : List Byte := []
  chunk : Bool := false
  stream : List Sym := []
  sent : Sparse Nat := []
  deriving DecidableEq, Repr, Inhabited

/-- The receiver of a rope lane (R150–R153, R159–R163, R170): its running disparity, the good and missed K28.5 in a row, the last
frame number; the next frame number of the hyperframe being collected, its control words and management area so far and whether
either is spoiled; the payload symbols of the tunnel not yet taken; the elastic buffer: its fill, whether the last frame took a
filler action, the comma position, the good hyperframes of R161, a freeze that waits for the next boundary, the last phase change in
ps; the number and arrival of the last hyperframe received, the last accepted control words; the symbols received that do not yet
make a frame (R153), and the instant of the lane's latest event as frame 0 came (R152, R289). The disparity starts negative and
the fill at 32, and both are kept over a loss of lock and a change of rate: DESIGN CHOICE (log entry 97). -/
structure RopeRx where
  plus : Bool := false
  goodK : Nat := 0
  badK : Nat := 0
  lastF : Nat := 0
  next : Nat := 0
  words : List Byte := []
  area : List Byte := []
  badWords : Bool := false
  badArea : Bool := false
  stream : List Sym := []
  fill : Nat := 32
  filled : Bool := false
  slip : Nat := 0
  freq : Nat := 0
  freezeDue : Bool := false
  phase : Option Int := none
  hyper : Nat := 0
  arrival : Stamp := {}
  accepted : List Byte := []
  line : List Sym := []
  zero : Nat := 0
  deriving DecidableEq, Repr, Inhabited

/-- A rope lane beyond its registers: its link, its transmitter, its receiver. -/
structure Rope where
  link : RopeLink := {}
  tx : RopeTx := {}
  rx : RopeRx := {}
  deriving DecidableEq, Repr, Inhabited

/-- Ethernet lane facts no register holds: the ports in the break-link time of their negotiation, those to be disabled at the
end of the frame in transmission (R142), the PRBS bits inverted on the line per lane and where its generator stands (R137): the
time since its last whole bit in units of 1/(384 × 14,025) ns and the bits generated since it was enabled, the rope quads gated
(Table PWR-2), and the phase accumulators of the lane synthesizers at the last time-clock edge (R290, R389): of the 156.25 MHz
references in 1/12,288 of a period, of the 245.76 MHz references in fifths. -/
structure Lanes where
  breakLink : List Nat := []
  disableDue : List Nat := []
  inverted : Sparse Nat := []
  prbs : Sparse (Nat × Nat) := []
  gatedQuads : List Nat := []
  measured : List Nat := []
  synth : Nat := 0
  ropeSynth : Nat := 0
  deriving DecidableEq, Repr, Inhabited

/-! ### Time -/

/-- An entry of the transmit timestamp queue (R299, R301). -/
structure TxStamp where
  id : Nat
  port : Nat
  stamp : Stamp
  sent : Bool
  deriving DecidableEq, Repr, Inhabited

/-- The time base (R267, R268): its value in units of 1/(384 × 2^40) ns, the remaining slew in the same units
(R276), what it moved apart from the root beyond whole units of a grid phase and the grid phases of the links in exact units (R307), the
transmit timestamp queue, the edges of the time clock counted since reset. -/
structure Tbs where
  tb : Nat := 0
  slew : Int := 0
  apart : Int := 0
  phi : Sparse Nat := []
  slewAcc : Int := 0
  txq : List TxStamp := []
  edges : Nat := 0
  deriving DecidableEq, Repr, Inhabited

/-- What a trim run selected and formed (R284): the cells and the vernier steps in use as masks, and the nominals. -/
structure TrimResult where
  cells : Nat := 0
  steps : Nat := 0
  c1 : Nat := 0
  c2 : Nat := 0
  deriving DecidableEq, Repr, Inhabited

/-- A TDC channel beyond its registers: the first run of the trim pair under way, the pairs that disagreed
(R285), the calibration pair in force, whether the next measurement follows a retry (R280), its last event
time and the time-clock edge at which it was measured (R283, R338), the event time before that one (R289), and the last event on the
scale of the time clock's edges (R281). -/
structure Tdc where
  run1 : Option TrimResult := none
  pairs : Nat := 0
  c1 : Nat := 0
  c2 : Nat := 0
  paired : Bool := false
  retried : Bool := false
  last : Option Nat := none
  seen : Option Nat := none
  prev : Option Nat := none
  onEdges : Option Int := none
  deriving DecidableEq, Repr, Inhabited

/-! ### Counters, capture, test -/

/-- A block counter (R473, Table CNT-3), with its wrap and clear marks since the last snapshot (R482). -/
structure Ctr where
  value : Nat := 0
  enable : Bool := true
  level : Bool := false
  harvest : Bool := true
  ovf : Bool := false
  gen : Nat := 0
  wrapped : Bool := false
  cleared : Bool := false
  deriving DecidableEq, Repr, Inhabited

/-- A snapshot record being written (R483): ring slot and bytes. -/
structure Record where
  slot : Nat
  bytes : List Byte
  deriving DecidableEq, Repr, Inhabited

/-- A captured entry on its way to the cairn ring (R486). -/
structure Cairn where
  bytes : List Byte
  trigger : Bool
  deriving DecidableEq, Repr, Inhabited

/-- Counters, harvester, capture unit and test unit. `clears` counts the clearings of all counters of an owner (key: its page)
or of one instance of it (key: 32 + 128 × page + instance), and marks those since the last snapshot (R479, R482). `testMem` is the
memory under table BIST (R491); `snapStart` is the time-clock edge at which harv_en rose, `snapMark` whether the time base was valid
and how many snapshot instants had passed as the harvester last looked (R481). -/
structure Obs where
  ctrs : Sparse Ctr := []
  clears : Sparse (Nat × Bool) := []
  seqNo : Nat := 0
  skipsSince : Nat := 0
  lastSet : List Nat := []
  record : Option Record := none
  fifo : List Cairn := []
  samplers : Sparse Nat := []
  entryNo : Nat := 0
  trigNext : Bool := false
  postLeft : Nat := 0
  testing : Option Nat := none
  testUnit : Nat := 0
  testMem : Option (Nat × Nat) := none
  sweep : List Nat := []
  snapStart : Nat := 0
  snapMark : Bool × Nat := (false, 0)
  deriving DecidableEq, Repr, Inhabited

/-! ### Host interface, image, resets -/

/-- The host interface beyond its registers: the data link, link training, host reset in progress, the fetched
transmit descriptors and their frames, the completed descriptors the host has not yet taken back, the returned
read data and how the last read completed (R85), the holding register of each page (R89), the held dwords of table entries (R90)
and the arm slots whose time was already past as they were armed or was passed by a step (R103); the rate and the width of the
trained link, 0 without one: 1 to 4 for 2.5, 5, 8 and 16 GT/s, and 1, 2 or 4 lanes (R82); the power state D3hot or D0 of the
function (Table HIF-1), whether the host lets it master the bus (R484), and the bases of its two memory BARs (R84). -/
structure HostIf where
  perstN : Bool := false
  training : Bool := false
  dlUp : Bool := false
  hostReset : Bool := false
  descs : Sparse (List Desc) := []
  bypassQ : Sparse (List Nat) := []
  done : Sparse Nat := []
  aer : Nat := 0
  aerCorr : Nat := 0
  rdata : List Word := []
  unsupported : Bool := false
  linkRate : Nat := 0
  linkWidth : Nat := 0
  d3hot : Bool := false
  busMaster : Bool := false
  bars : Sparse Word := []
  hold : Sparse (Nat × Word) := []
  entry : Sparse Word := []
  lateArms : List Nat := []
  deriving DecidableEq, Repr, Inhabited

/-- Where a power-on or cold reset stands (R61, R68, R79): held, or released. -/
inductive ResetPhase where
  | powerOn | cold | released
  deriving DecidableEq, Repr, Inhabited

/-- Image loading and structure facts that no register holds: the source sampled (R44), the slot being read
(R45), the length of the image in the staging memory and whether it was applied, whether that memory is spoiled
(R500), the length of the partial image in each group's slot, the running partial re-structure, update groups
by register group (R12), domain enables, pin multiplexing, time plan and rope quads (Table IMG-3). -/
structure Img where
  fromFlash : Bool := false
  reading : Option Nat := none
  full : Option Nat := none
  spoiled : Bool := false
  groups : Sparse Nat := []
  prGroup : Nat := 0
  prLen : Nat := 0
  ug : Sparse Nat := []
  domains : Nat := 0
  pinmux : List Byte := []
  timePlan : List Byte := []
  ropeQuads : Nat := 0
  deriving DecidableEq, Repr, Inhabited

/-- Resets and the watchdog: the phase of R79, the write-once fields already written (R93), the block and port
resets held during a partial re-structure (R58), the time-clock edges since the watchdog last counted, and those since the
running warm reset began (Table TOP-4). -/
structure Resets where
  phase : ResetPhase := .released
  written : List Nat := []
  heldBlocks : List Nat := []
  heldPorts : List Nat := []
  watchdogEdges : Nat := 0
  warmEdges : Nat := 0
  haltDue : Bool := false
  deriving DecidableEq, Repr, Inhabited

/-- What the device sends out of the block in one step, in order: messages, frames, DMA writes, pin changes. A frame that is `cut`
ends with an error code, on a tunnel port K30.7 (R70, R168); a rope frame is its code groups. -/
inductive Sent where
  | message (vector addr data : Nat)
  | frame (port : Nat) (bytes : List Byte)
  | cut (port : Nat) (bytes : List Byte)
  | dma (addr : Nat) (bytes : List Byte)
  | descriptor (ring index : Nat) (bytes : List Byte)
  | record (addr : Nat) (bytes : List Byte)
  | cairn (addr : Nat) (bytes : List Byte)
  | rope (lane : Nat) (groups : List (BitVec 10))
  | belay (lane : Nat) (bytes : List Byte)
  | report (link : Nat) (bytes : List Byte)
  | echo (port : Nat) (bytes : List Byte)
  | pulse (output : Nat) (at_ : Nat) (width : Nat) (inverted : Bool)
  | jtag (bits : List Byte)
  | wire (value : Nat)
  deriving DecidableEq, Repr

/-- A fault event raised in this step: code and instance (R496, R505). -/
structure Ev where
  code : Nat
  inst : Nat
  deriving DecidableEq, Repr, Inhabited

/-! ### Phase transfer -/

/-- A PHX link beyond its registers (R306–R320). Times of the grid are kept exactly, in units of 1/9,600 of 1/65,536 ns:
`mIn` the last m_in, `arr` the arrival that sample took, `step` the time-base steps since the last sample, `mStart` and `count` the interval of the frequency
measurement; `rtts` the RTT samples, newest first, `since` those since RANGE was entered; the instant of the last accepted
report, whether k is resolved, how many intervals the frequency has been good, the partner's identity, port and mode, the
sequence number of the next report, and the instant at which a report that still waits fell due (R313); the α and δ the last sample
applied (R321), those the partner last reported (R320), and whether that sample was a phase jump (Table PHX-4). -/
structure Phx where
  mIn : Int := 0
  seen : Bool := false
  step : Int := 0
  mStart : Int := 0
  count : Nat := 0
  good : Nat := 0
  rtts : List Int := []
  since : Nat := 0
  lastAcc : Option Nat := none
  resolved : Bool := false
  partner : Option (Nat × Nat × Nat) := none
  seq : Nat := 0
  arr : Int := 0
  due : Option Nat := none
  alpha : Int := 0
  delta : Int := 0
  asym : Option (Int × Int) := none
  jumped : Bool := false
  deriving DecidableEq, Repr, Inhabited

/-- A running PHX calibration (R322, R323): the samples' sum, least and greatest, the epochs at its start, its link,
its channel and its target. -/
structure PhxCal where
  sum : Int := 0
  lo : Int := 0
  hi : Int := 0
  epoch : Nat := 0
  partnerEpoch : Nat := 0
  link : Nat := 0
  chan : Nat := 0
  target : Bool := false
  deriving DecidableEq, Repr, Inhabited

/-! ### References and holdover -/

/-- Two slots that disagree (R347): the slots, whether each is held out (R349), whether each has completed a window since
the last comparison, and the consecutive comparisons found within the limit. -/
structure RefPair where
  a : Nat
  b : Nat
  outA : Bool
  outB : Bool
  newA : Bool := false
  newB : Bool := false
  within : Nat := 0
  deriving DecidableEq, Repr, Inhabited

/-- The pulses of a REFIN pulse input (R331, R337, R339): how many, the last event time and the phase it gave, in 1/65,536 ns, and the
event times of the last 16, newest first. -/
structure RefPulse where
  count : Nat := 0
  last : Nat := 0
  o : Int := 0
  times : List Nat := []
  deriving DecidableEq, Repr, Inhabited

/-- The reference monitors beyond their registers: the slots, and the links, whose phase jumped since the last tick (R339),
those to be OFF for one tick with the DPLL each had (R335, R336), the ticks each WAIT slot has waited (R342), the outvoted slots (R350), the pairs that
disagree, whether host PTP has an accepted post within its timeout, the last accepted post (R332) and those of the last 16 s, newest
first (R337), and the pulses. -/
structure Refs where
  jumps : List Nat := []
  jumpCands : List Nat := []
  strobed : Sparse Nat := []
  waited : Sparse Nat := []
  outvoted : List Nat := []
  pairs : List RefPair := []
  ptpLive : Bool := false
  lastPost : Option (Int × Nat) := none
  posts : List (Int × Nat) := []
  pulses : Sparse RefPulse := []
  deriving DecidableEq, Repr, Inhabited

/-- A one-second entry of a DPLL's history (R358, R359): validity, mean integrator in ppt, temperature in 0.01 °C. -/
structure SecondEntry where
  valid : Bool
  value : Int
  temp : Int
  deriving DecidableEq, Repr, Inhabited

/-- The model of the XO (R366, R371): its validity, order, whether its ageing term was fitted, Tref and the range of the
temperatures fitted in 0.01 °C, K1 in ppt/°C, K2 in 0.01 ppt/°C², the ageing slope in ppt/day and the residual in ppt. -/
structure XoModel where
  valid : Bool := false
  order : Nat := 0
  ageing : Bool := false
  tref : Int := 0
  k1 : Int := 0
  k2 : Int := 0
  slope : Int := 0
  resid : Nat := 0
  lo : Int := 0
  hi : Int := 0
  deriving DecidableEq, Repr, Inhabited

/-- A DPLL beyond its registers: its control value against the XO in ppt, the integrator and its sum over the ticks of the
second under way, whether that second is broken (R359), the ring, newest first (R358), whether it follows from the next tick
on (Table REF-4), whether h_d was computed since power-on or cold reset and whether it has been LOCKED since (R361, R363), the
model, comp_en and ret_step it entered holdover with (R364), whether it uses the learned slope (R366, R367), the ageing term and the
seconds it covers (R270), the candidate last selected (R324). -/
structure Dpll where
  control : Int := 0
  integ : Int := 0
  sum : Int := 0
  ticks : Nat := 0
  broken : Bool := true
  ring : List SecondEntry := []
  starting : Bool := false
  hasH : Bool := false
  lockedSince : Bool := false
  model : XoModel := {}
  comp : Bool := false
  retStep : Bool := false
  useSlope : Bool := false
  age : Int := 0
  ageSecs : Nat := 0
  last : Option Nat := none
  deriving DecidableEq, Repr, Inhabited

/-- An entry of the learning history (Table DPL-2), with the second of the time clock at its end where it was written since
the last power-on or cold reset. -/
structure LearnEntry where
  word : Word
  at_ : Option Nat
  deriving DecidableEq, Repr, Inhabited

/-- An hour block of the learning history (R369): the hour number and its entries, newest first. -/
structure LearnBlock where
  hour : Nat
  entries : List LearnEntry := []
  deriving DecidableEq, Repr, Inhabited

/-- The learning unit (R367–R373): the history in MRAM, newest block first, the model stored with it, whether the temperature
source is stale and whether it was during the minute under way, and the seconds of the time clock counted since the last
power-on or cold reset. -/
structure Learn where
  blocks : List LearnBlock := []
  model : XoModel := {}
  stale : Bool := false
  staleInMinute : Bool := false
  secs : Nat := 0
  deriving DecidableEq, Repr, Inhabited

/-! ### Synthesizers and outputs -/

/-- A lock attempt of the root under way (R380–R383): 1 at the application of the time region, 2 automatic, 3 by relock, 4 by
retarget; the band-table entry chosen as it began. -/
structure Attempt where
  kind : Nat
  entry : Option Nat
  deriving DecidableEq, Repr, Inhabited

/-- A change of an output's delay being carried out (R396): the place reached and the place to reach, in thirds of a fine step. -/
structure Move where
  at_ : Nat
  dest : Nat
  deriving DecidableEq, Repr, Inhabited

/-- The divider of a clock output that runs (R393, R394): what has passed of the period in units of 2^-48 / den path cycles, and the
divider of that period as numerator and denominator. -/
structure OutClk where
  acc : Nat := 0
  num : Nat
  den : Nat
  deriving DecidableEq, Repr, Inhabited

/-- The spread spectrum in force on the auxiliary and on the core clock (R390, R392): mode and depth. -/
structure Spread where
  auxMode : Nat := 0
  auxDepth : Nat := 0
  coreMode : Nat := 0
  coreDepth : Nat := 0
  deriving DecidableEq, Repr, Inhabited

/-- The configuration of a pulse output (R398, R402): enable, source, polarity, period and width in ns, offset in 1/512 ns. -/
structure PpsCfg where
  enable : Bool := false
  src : Nat := 0
  inverted : Bool := false
  period : Nat := 1000
  ofs : Int := 0
  width : Nat := 8
  deriving DecidableEq, Repr, Inhabited

/-- A pulse output (R398–R402): the configuration in force and the one that takes over at its first edge at or after its
firing; the alignment in force and those of newer pulses with their measurements, oldest first; the first instant its next edge may
take and the end of the running pulse; whether its delay-locked line has lost lock (R404). Instants are in 1/65,536 ns. -/
structure Pps where
  cfg : PpsCfg := {}
  next : Option (PpsCfg × Nat) := none
  align : Option Int := none
  realign : List (Int × Nat) := []
  from_ : Nat := 0
  busyTo : Option Nat := none
  dllLost : Bool := false
  deriving DecidableEq, Repr, Inhabited

/-! ### Belay pair -/

/-- A belay member beyond its registers (R405–R434): the sequences of the last message and announce sent, the mate's recent
message sequences, newest first, whether a HEARTBEAT came in this 8 µs period, the mirror queue, oldest first, the last mirror
sequence sent and the last received, resync_req and whether a HEARTBEAT carried it, whether a walk runs and from which entry
address it goes on, whether one is due after an overflow, the mate's last flags, whether the guard timer ran out, the counts behind
cmp_lost and dpll_mismatch, whether both members report fault_lock, whether the event of the present
period of dual activity was given (R421); the last mirror sequence received in order (Table RDN-3), the synced flag of the mate's last
HEARTBEAT and whether a RESYNC_DONE was accepted since (R428), and the announces that wait for a frame boundary, by port (R419). -/
structure Belay where
  seq : Nat := 0
  annSeq : Nat := 0
  heard : List Nat := []
  hbHeard : Bool := false
  queue : List Nat := []
  mirrorSeq : Nat := 0
  rxMirror : Option Nat := none
  resyncReq : Bool := false
  reqSent : Bool := false
  walking : Bool := false
  walkAt : Nat := 0
  walkDue : Bool := false
  mateHold : Bool := false
  mateFault : Bool := false
  mateHoldoff : Bool := false
  guardDone : Bool := false
  invalid : Nat := 0
  differs : Nat := 0
  both : Bool := false
  dual : Bool := false
  inOrder : Nat := 0
  mateSynced : Bool := false
  doneSince : Bool := false
  annDue : Sparse (List Byte) := []
  deriving DecidableEq, Repr, Inhabited


/-! ### Security -/

/-- A fuse operation under way (R437, R438): op, slot, the value it writes, and the digest of op 1. -/
structure OtpRun where
  op : Nat
  slot : Nat
  value : Nat
  digest : List Word
  deriving DecidableEq, Repr, Inhabited

/-- The SEC unit beyond its registers: byte 0 and byte 1 of the applied policy (R439), the fuse operation under way, the
fuses of the OTP array by byte, where one is programmed (R435), the report being built (R441), the boundary register and whether EXTEST
drives the balls (R443), the unused challenge, the challenges given and the responses failed (R444), and the verifications a tamper event ended (R440). -/
structure Sec where
  policy : Nat := 0
  tamperEn : Nat := 0
  otp : Option OtpRun := none
  fuses : Sparse Byte := []
  report : List Byte := []
  boundary : List Byte := []
  extest : Bool := false
  challenge : Option (List Byte) := none
  attempts : Nat := 0
  failed : Nat := 0
  abandoned : Nat := 0
  deriving DecidableEq, Repr, Inhabited


/-- Everything of the device but the fault log, the recovery windows, the interrupt vectors and the command
queue. `csr` holds the active register words that differ from their reset word, `shadow` the buffered words
written since their group last fired (R97, R98; the mark says whether a firing has reached the word, R108),
`parity` the words whose parity is bad (R108; shadows at 2^28 above their address), `mem` the bytes of the
memories of the CSR window that are not 0, `fresh` the number of free values drawn so far in the frame path, the host's and the
security units, `freshTime` that in the time path, which the frame path never moves (R27). `raised` and `sent`
are the events and the outputs of the step under way. -/
structure Dev where
  csr : Sparse Word := []
  shadow : Sparse (Word × Bool) := []
  parity : List Nat := []
  mem : List Host.Cell := []
  img : Img := {}
  rst : Resets := {}
  host : HostIf := {}
  lanes : Lanes := {}
  ropes : Sparse Rope := []
  fwd : Fwd := {}
  bpm : Bpm := {}
  qsc : Qsc := {}
  tbs : Tbs := {}
  tdc : Sparse Tdc := []
  obs : Obs := {}
  phx : Sparse Phx := []
  phxCal : PhxCal := {}
  refs : Refs := {}
  dplls : Sparse Dpll := []
  learn : Learn := {}
  attempt : Option Attempt := none
  moves : Sparse Move := []
  outs : Sparse OutClk := []
  ssc : Spread := {}
  pps : Sparse Pps := []
  belay : Belay := {}
  sec : Sec := {}
  fresh : Nat := 0
  freshTime : Nat := 0
  raised : List Ev := []
  sent : List Sent := []
  deriving DecidableEq, Repr, Inhabited

/-- An entry of the fault log (R505): class 0 info, 1 corrected, 2 contained, 3 fatal. -/
structure LogEntry where
  code : Nat
  cls : Nat
  reaction : Nat
  escalated : Bool
  repeats : Nat
  subsys : Nat
  inst : Nat
  ns : Nat
  sec : Nat
  timeValid : Bool
  deriving DecidableEq, Repr, Inhabited

/-- What a recovery window waits for before its closing time runs (R510). -/
inductive Await where
  | nothing | block (page : Nat) | warm | coast | halt
  deriving DecidableEq, Repr, Inhabited

/-- An open recovery window (R510): the reaction that opened it and what it waits for. -/
structure Window where
  rOpen : Nat
  await : Await
  deriving DecidableEq, Repr, Inhabited

/-- The fault unit beyond its registers: the log in arrival order and the open windows by subsystem. -/
structure Flt where
  log : List LogEntry := []
  windows : Sparse Window := []
  deriving DecidableEq, Repr, Inhabited

/-- The interrupt unit beyond its registers (R109–R112): per vector the mask bit of the MSI-X table, the pending
bit, whether a message awaits its end of interrupt, and the level at the end of the last step; the message address and data of
the table, which stand at 4 times the vector (R84); the level that drives INT_N low. -/
structure Irq where
  masked : List Nat := List.range 64
  pending : List Nat := []
  inService : List Nat := []
  level : List Nat := []
  msix : Sparse Word := []
  intN : Bool := false
  deriving DecidableEq, Repr, Inhabited

/-- The block: the device, its fault unit, its interrupt unit and the commands waiting, first in, first out. -/
structure State where
  dev : Dev := {}
  flt : Flt := {}
  irq : Irq := {}
  pending : List Instr := []
  deriving DecidableEq, Repr, Inhabited

/-- Why a step could fault. No command of this block faults: every command the spec names has an effect, be it
none, so nothing raises this. Safe: a run can never end in it. -/
inductive Fault where
  /-- Never raised; it stands so that the type has a name. Safe. -/
  | none
  deriving DecidableEq, Repr

/-- Why a step could be refused. -/
inductive Refusal where
  /-- The command has no meaning in this model. Raised by an arm of `exec` alone; safe, since the run stops. -/
  | notModelled (mnemonic : String)
  deriving DecidableEq, Repr

/-- The registers whose reset word is not the number of their table: those loaded from the fuses and the MRAM at
power-on. The part is a B1 TVR-6480-C with blank owner fuses (R4; log entry 2). -/
def resetWords : Sparse Word := [(0x00000000, 0x11648010#32)]

/-- The OTP array of that part: TOP_ID at 0x570, its lowest byte first, and every other fuse unprogrammed (R435; log entries 2 and
100). -/
def resetFuses : Sparse Byte := [(0x570, 0x10), (0x571, 0x80), (0x572, 0x64), (0x573, 0x11)]

/-- The block right after the release of power-on reset with IMG_SRC at 0 (R44, R61): every register at its
reset value, every memory zero, nothing loaded (log entries 1 to 4). -/
def State.reset : State := { dev := { csr := resetWords, sec := { fuses := resetFuses } } }

end Sys2Proof.Machine
end

