-- ==== Sys2Proof/Machine/Ops.lean ====
section
/-! DEFINITION. The named operations over the state: registers and their fields, the memories of the CSR window,
events, the clock, presence of units and ports, readiness. -/

namespace Sys2Proof.Machine

/-! ### Blocks and pages -/

/-- The page index of a block (R7). -/
def Block.page : Block → Nat
  | .TOP => 0 | .IMG => 1 | .HIF => 2 | .PWR => 3 | .SEC => 4 | .FLT => 5 | .TBS => 6 | .TDC => 7 | .DPL => 8
  | .REF => 9 | .SYN => 10 | .OUT => 11 | .PHX => 12 | .RLK => 13 | .HSL => 14 | .MAC => 15 | .FWD => 16
  | .BPM => 17 | .QSC => 18 | .CNT => 19 | .CRG => 20 | .RDN => 21 | .TST => 22 | .MSC => 23

/-- The region code of the time region (Table IMG-1). -/
abbrev Region.time : Nat := 8
/-- The region code of the global region (Table IMG-1). -/
abbrev Region.global : Nat := 9

/-- The port group of a port: R33 puts virtual port 65 + n in group n mod 8 and port 64 in group 0. -/
def portGroup (p : Nat) : Nat := if p < 64 then p / 8 else if p = 64 then 0 else (p - 65) % 8

/-- The page of a block of the time region (R33). -/
def timePage (pg : Nat) : Bool := (6 ≤ pg && pg ≤ 13)

/-! ### The register table -/

/-- The indices at which a row holds the page offset `off`. -/
def RegRow.hit (r : RegRow) (off : Nat) : Option (Nat × Nat) :=
  if off < r.off then none
  else
    let x := off - r.off
    if 1 < r.count2 then
      let i := x / r.stride1
      let y := x % r.stride1
      let j := y / r.stride2
      if i < r.count1 ∧ y % r.stride2 = 0 ∧ j < r.count2 then some (i, j) else none
    else if 1 < r.count1 then
      let i := x / r.stride1
      if i < r.count1 ∧ x % r.stride1 = 0 then some (i, 0) else none
    else if x = 0 then some (0, 0) else none

/-- The first row of a list that holds an offset, with its indices. -/
def findRow (off : Nat) : List RegRow → Option (RegRow × Nat × Nat)
  | [] => none
  | r :: rs =>
    match r.hit off with
    | some (i, j) => some (r, i, j)
    | none => findRow off rs

/-- The register table row at a CSR address (R7). -/
def rowAt (a : Nat) : Option (RegRow × Nat × Nat) := findRow (a % 0x10000) (pageRows (a / 0x10000))

/-- The number a field's Reset column gives for the row's first index; 0 where the value comes from the image,
the fuses or the MRAM. -/
def FieldRow.resetNum (f : FieldRow) (i : Nat) : Nat :=
  match f.rst with
  | .num v => v
  | .nums vs => nthD vs i 0
  | _ => 0

/-- The word of a register whose fields are at their numeric reset values (R15). -/
def RegRow.resetWord (r : RegRow) (i : Nat) : Word :=
  r.fields.foldl (fun w f => setBits w f.lsb f.width (f.resetNum i)) 0

/-- First address of FLT_REACT_e. -/
abbrev reactBase : Nat := 0x00051000

/-- The word of the register at `a` when every field is at its reset value; FLT_REACT_e holds its catalogue word
(R513). -/
def resetWord (a : Nat) : Word :=
  if reactBase ≤ a ∧ a < reactBase + 0x800 ∧ a % 4 = 0 then BitVec.ofNat 32 (reactWord ((a - reactBase) / 4))
  else
    match rowAt a with
    | some (r, i, _) => r.resetWord i
    | none => 0

/-! ### Register words and fields -/

/-- The active word of the register at `a`. -/
def Dev.word (d : Dev) (a : Nat) : Word := (Sparse.get? d.csr a).getD (resetWord a)

/-- The device with the register at `a` holding `w`. -/
def Dev.setWord (a : Nat) (w : Word) (d : Dev) : Dev :=
  { d with csr := if w = resetWord a then Sparse.del d.csr a else Sparse.put d.csr a w }

/-- The value of a field. -/
def Dev.get (d : Dev) (f : Fld) : Nat := bits (d.word f.addr) f.lsb f.width

/-- The value of a signed field. -/
def Dev.sget (d : Dev) (f : Fld) : Int := signed f.width (d.get f)

/-- Whether a one-bit field is 1. -/
def Dev.flag (d : Dev) (f : Fld) : Bool := d.get f == 1

/-- The device with a field holding `v`. -/
def Dev.put (f : Fld) (v : Nat) (d : Dev) : Dev := d.setWord f.addr (setBits (d.word f.addr) f.lsb f.width v)

/-- The device with a signed field holding `v`, clamped to the field's range. -/
def Dev.sput (f : Fld) (v : Int) (d : Dev) : Dev := d.put f (saturate f.width v)

/-- A counter field that saturates, raised by `n`. -/
def Dev.sat (f : Fld) (n : Nat) (d : Dev) : Dev := d.put f (satAdd f.width (d.get f) n)

/-- A counter field that wraps, raised by `n`. -/
def Dev.wrap (f : Fld) (n : Nat) (d : Dev) : Dev := d.put f ((d.get f + n) % 2 ^ f.width)

/-- Bit `i` of a register. -/
def Dev.bitAt (d : Dev) (a i : Nat) : Bool := (d.word a).getLsbD i

/-- The device with bit `i` of a register equal to `b`. -/
def Dev.setBit (a i : Nat) (b : Bool) (d : Dev) : Dev := d.put ⟨a, i, 1⟩ (bit b)

/-- A 64-bit quantity in a pair of registers, low half first (R6). -/
def Dev.pair (d : Dev) (lo hi : Nat) : Nat := (d.word lo).toNat + 2 ^ 32 * (d.word hi).toNat

/-- A 64-bit quantity written to a pair of registers. -/
def Dev.setPair (lo hi v : Nat) (d : Dev) : Dev :=
  (d.setWord lo (BitVec.ofNat 32 v)).setWord hi (BitVec.ofNat 32 (v / 2 ^ 32))

/-- A change applied under a condition. -/
def Dev.when (c : Bool) (f : Dev → Dev) (d : Dev) : Dev := if c then f d else d

/-- A change applied for each element of a list in turn. -/
def Dev.each {α : Type} (l : List α) (f : α → Dev → Dev) (d : Dev) : Dev := l.foldl (fun e x => f x e) d

/-! ### Memories of the CSR window -/

/-- The byte at an address; an address no entry names holds 0 (log entry 3). -/
def Memory.get (m : List Host.Cell) (a : Nat) : Byte := (Sparse.get? m a).getD 0

/-- The memory with `b` at `a`; a byte of 0 is not listed. -/
def Memory.put (m : List Host.Cell) (a : Nat) (b : Byte) : List Host.Cell :=
  if b = 0 then Sparse.del m a else Sparse.put m a b

/-- The memory with every byte from `lo` to `hi - 1` cleared. -/
def Memory.clear (m : List Host.Cell) (lo hi : Nat) : List Host.Cell :=
  m.filter (fun c => c.1 < lo || hi ≤ c.1)

/-- The canonical form: addresses rise strictly and no listed byte is 0. -/
def Memory.wf (m : List Host.Cell) : Bool := Sparse.sorted m && m.all (fun c => c.2 != 0)

/-- Bytes put at consecutive addresses. -/
def Memory.write (m : List Host.Cell) (a : Nat) : List Byte → List Host.Cell
  | [] => m
  | b :: bs => Memory.write (Memory.put m a b) (a + 1) bs

/-- `n` bytes from consecutive addresses. -/
def Memory.read (m : List Host.Cell) (a n : Nat) : List Byte := (List.range n).map (fun i => Memory.get m (a + i))

/-- A byte of a memory of the CSR window. -/
def Dev.byte (d : Dev) (a : Nat) : Byte := Memory.get d.mem a

/-- Bytes of a memory of the CSR window. -/
def Dev.bytes (d : Dev) (a n : Nat) : List Byte := Memory.read d.mem a n

/-- A dword of a memory of the CSR window. -/
def Dev.dword (d : Dev) (a : Nat) : Nat := leNat (Memory.read d.mem a 4)

/-- Bytes written to a memory of the CSR window. -/
def Dev.store (a : Nat) (bs : List Byte) (d : Dev) : Dev := { d with mem := Memory.write d.mem a bs }

/-- A dword written to a memory of the CSR window. -/
def Dev.storeDword (a v : Nat) (d : Dev) : Dev := d.store a (leBytes 4 v)

/-- A range of a memory cleared. -/
def Dev.clearMem (lo hi : Nat) (d : Dev) : Dev := { d with mem := Memory.clear d.mem lo hi }

/-- The memory entry that starts at `a` met an uncorrectable error and no host write has rewritten it: the device's
own users take it as not valid (R500). So do they every entry of a memory under table BIST (Table TST-1). -/
def Dev.poisoned (d : Dev) (a : Nat) : Bool :=
  d.parity.contains a || (match d.obs.testMem with | some (lo, hi) => decide (lo ≤ a) && decide (a < hi) | none => false)

/-! ### Events, outputs, free values -/

/-- A fault event raised in this step (R496, R501). -/
def Dev.raise (code inst : Nat) (d : Dev) : Dev := { d with raised := d.raised ++ [⟨code, inst⟩] }

/-- A bit of an event register set; events of Table FLT-2 are raised beside it. -/
def Dev.event (reg i : Nat) (d : Dev) : Dev := d.setBit reg i true

/-- A bit of an event register set, with its fault event (R501). -/
def Dev.fault (reg i code inst : Nat) (d : Dev) : Dev := (d.event reg i).raise code inst

/-- Something sent out of the block. -/
def Dev.emit (x : Sent) (d : Dev) : Dev := { d with sent := d.sent ++ [x] }

/-- The next free value drawn. -/
def Dev.draw (d : Dev) : Dev := { d with fresh := d.fresh + 1 }

/-- The next free value of the time path drawn: no frame moves this count (R27). -/
def Dev.drawTime (d : Dev) : Dev := { d with freshTime := d.freshTime + 1 }

/-! ### The clock -/

/-- Units of the time base in one nanosecond (R268). -/
abbrev unitsPerNs : Nat := 384 * 2 ^ 40

/-- Units of the time base in one time-clock period (R268). -/
abbrev unitsPerEdge : Nat := 625 * 2 ^ 40

/-- The time base wraps at 2^48 seconds (R267). -/
abbrev timeWrap : Nat := 2 ^ 48 * 1000000000 * unitsPerNs

/-- The time base in units of 1/65,536 ns, truncated (R268). -/
def Dev.now (d : Dev) : Nat := d.tbs.tb / (unitsPerNs / 65536)

/-- Whole nanoseconds of the time base since its zero. -/
def Dev.nowNs (d : Dev) : Nat := d.tbs.tb / unitsPerNs

/-- Seconds of an instant in units of 1/65,536 ns. -/
def secOf (t : Nat) : Nat := t / (65536 * 1000000000)

/-- Nanoseconds of an instant within its second. -/
def nsOf (t : Nat) : Nat := t / 65536 % 1000000000

/-- The fraction of an instant. -/
def fracOf (t : Nat) : Nat := t % 65536

/-- The instant at seconds, nanoseconds and fraction. -/
def instant (sec ns frac : Nat) : Nat := (sec * 1000000000 + ns) * 65536 + frac

/-- The time base is valid (R65, R271). -/
def Dev.timeReady (d : Dev) : Bool := d.flag F.TOP_READY_time

/-- The snapshot period in ns (Table CNT-6). -/
def Dev.harvestNs (d : Dev) : Nat := 1000 * max 100 (min 10000000 (d.get F.CNT_HARV_PERIOD))

/-- The snapshot instants passed (R481): multiples of the period on a valid time base, else periods of the time clock since
harv_en rose. -/
def Dev.snapIndex (d : Dev) : Nat :=
  if d.timeReady then d.nowNs / d.harvestNs else (d.tbs.edges - d.obs.snapStart) * 625 / (384 * d.harvestNs)

/-- The next snapshot instant is the first after the present one (R481). -/
def Dev.markSnap (d : Dev) : Dev := { d with obs := { d.obs with snapMark := (d.timeReady, d.snapIndex) } }

/-- The instants count anew as the time base becomes valid or ceases to be (R481). -/
def Dev.syncSnap (d : Dev) : Dev := d.when (d.obs.snapMark.1 != d.timeReady) Dev.markSnap

/-- A snapshot instant has come (R481). -/
def Dev.snapDue (d : Dev) : Bool :=
  d.flag F.CNT_CTRL_harv_en && d.obs.snapMark.1 == d.timeReady && d.snapIndex != d.obs.snapMark.2

/-- A stamp of the instant `t` under the validity of R28 and the epoch of R275. -/
def Dev.stampAt (d : Dev) (t : Nat) : Stamp := ⟨t, d.get F.TBS_STATUS_epoch, d.timeReady⟩

/-- The 12 bytes of a time of day: seconds, nanoseconds, fraction, most significant first (Table RLK-4). -/
def todBytes (t : Nat) : List Byte := beBytes 6 (secOf t) ++ beBytes 4 (nsOf t) ++ beBytes 2 (fracOf t)

/-! ### Presence -/

/-- The blocks that are always present (R51). -/
def alwaysPresent (pg : Nat) : Bool := pg ≤ 5

/-- A full image is applied and stands (R47, R63). -/
def Dev.applied (d : Dev) : Bool := d.img.full.isSome

/-- The block of a page is present (R51, R63). -/
def Dev.blockPresent (d : Dev) (pg : Nat) : Bool := alwaysPresent pg || hasBit (d.get F.IMG_PRESENT) pg

/-- A structure region is in the applied image (R51). -/
def Dev.regionPresent (d : Dev) (r : Nat) : Bool := hasBit (d.get F.IMG_REGIONS) r

/-- A port exists: an Ethernet port whose first lane takes its number (R118), port 64, or a tunnel port of a
present rope lane that the belay link does not take (R172), each in a present group. -/
def Dev.portPresent (d : Dev) (p : Nat) : Bool :=
  d.regionPresent (portGroup p) &&
    (if p < 64 then d.flag (F.HSL_CFG_used p) && d.get (F.HSL_CFG_port p) == p
     else if p = 64 then true
     else p ≤ 80 && d.blockPresent 13 && d.regionPresent Region.time &&
       !(d.flag F.RDN_CFG_link_en && d.blockPresent 21 && (p == 79 || p == 80)))

/-- The region a register of a page lies in, by its row's first index (R33). -/
def instRegion (pg : Nat) (kind : IndexKind) (i : Nat) : Nat :=
  if timePage pg then Region.time
  else match kind with
    | .none => Region.global
    | .port => portGroup i
    | .lane => i / 8
    | .cluster => i
    | .link => Region.global

/-- A register instance is present: its block, its region, and its port where the row counts Ethernet ports
(R51, R52, R63, R118) or phase links, of which 64–79 are rope lanes (R328). Before a full image applies, the six blocks of R51 are present in full. -/
def Dev.instPresent (d : Dev) (pg : Nat) (kind : IndexKind) (i : Nat) : Bool :=
  let r := instRegion pg kind i
  if alwaysPresent pg then !d.applied || (d.regionPresent r && (kind != .port || d.portPresent i))
  else d.blockPresent pg && d.regionPresent r && (kind != .port || d.portPresent i) &&
    (kind != .link || (if i < 64 then d.portPresent i else d.blockPresent 13))

/-- A warm or watchdog reset runs (R71). -/
def Dev.busy (d : Dev) : Bool := d.flag F.TOP_RST_CTRL_busy

/-- A block reset of a page runs (R68): its bit of TOP_BLK_RST is set and the reset is not held. -/
def Dev.blockInReset (d : Dev) (pg : Nat) : Bool := d.bitAt R.TOP_BLK_RST pg && !d.rst.heldBlocks.contains pg

/-- The register with the port-reset bit of an Ethernet port. -/
def portRstReg (p : Nat) : Nat := if p < 32 then R.TOP_PORT_RST_0 else R.TOP_PORT_RST_1

/-- A reset that drops the link of an Ethernet port runs: its port reset, or a reset of HSL or MAC (R75, R76, Table TOP-5). -/
def Dev.portInReset (d : Dev) (p : Nat) : Bool :=
  decide (p < 64) &&
    ((d.bitAt (portRstReg p) (p % 32) && !d.rst.heldPorts.contains p) || d.blockInReset 14 || d.blockInReset 15)

/-- The image lock is set (R94). -/
def Dev.locked (d : Dev) : Bool := d.flag F.IMG_STATUS_locked

/-- IMG_STATUS.state, coded as Table IMG-7 states. -/
abbrev Img.empty : Nat := 0
abbrev Img.loading : Nat := 1
abbrev Img.verifying : Nat := 2
abbrev Img.applying : Nat := 3
abbrev Img.appliedSt : Nat := 4
abbrev Img.prVerifying : Nat := 5
abbrev Img.prQuiescing : Nat := 6
abbrev Img.prApplying : Nat := 7
abbrev Img.failed : Nat := 8

/-- A power domain is on (Table PWR-6). -/
def Dev.domainOn (d : Dev) (k : Nat) : Bool := hasBit (d.get F.PWR_DOM_STATUS_on) k

/-- The POWER section left a domain enabled; the last three always are (R459). -/
def Dev.domainEnabled (d : Dev) (k : Nat) : Bool := (9 ≤ k && k ≤ 11) || (d.applied && hasBit d.img.domains k)

/-- A partial re-structure runs (R53). -/
def Dev.prRunning (d : Dev) : Bool := 5 ≤ d.get F.IMG_STATUS_state && d.get F.IMG_STATUS_state ≤ 7

/-- Admission on a port group is stopped by a partial re-structure (R56). -/
def Dev.quiescing (d : Dev) (g : Nat) : Bool :=
  (d.get F.IMG_STATUS_state == 6 || d.get F.IMG_STATUS_state == 7) && d.img.prGroup == g

/-! ### Ports -/

/-- A port's ready bit (R67): TOP_READY_PORT_0 and _1 for Ethernet ports, TOP_READY_VPORT for the rest. -/
def readyBit (p : Nat) : Fld :=
  if p < 32 then ⟨R.TOP_READY_PORT_0, p, 1⟩
  else if p < 64 then ⟨R.TOP_READY_PORT_1, p - 32, 1⟩
  else ⟨R.TOP_READY_VPORT, p - 64, 1⟩

/-- The port's link is up. -/
def Dev.portReady (d : Dev) (p : Nat) : Bool := d.flag (readyBit p)

/-- The lanes of an Ethernet port (R118, Table HSL-2). -/
def Dev.portLanes (d : Dev) (p : Nat) : List Nat := (List.range (d.get (F.MAC_CFG_lanes p))).map (p + ·)

/-- The largest frame of a port (R218): MAC_MAXFRAME_p or RLK_TUN_MAX_n clamped to 64–9,728 B, 9,728 B for
port 64. -/
def Dev.maxFrame (d : Dev) (p : Nat) : Nat :=
  if p < 64 then max 64 (min 9728 (d.get (F.MAC_MAXFRAME_bytes p)))
  else if p = 64 then 9728
  else max 64 (min 9728 (d.get (F.RLK_TUN_MAX_bytes (p - 65))))

/-- The port's speed in Mb/s (Table MAC-1). -/
def Dev.speed (d : Dev) (p : Nat) : Nat :=
  nthD [10000, 25000, 50000, 100000, 200000, 400000] (d.get (F.MAC_CFG_speed p)) 0

/-! ### Counters -/

/-- Whether counter `i` of Table CNT-1 is a state counter. -/
def ctrIsState (i : Nat) : Bool :=
  (3888 ≤ i && i < 4080 && (i - 3888) % 2 == 1) || (4320 ≤ i && i < 4576 && (i - 4320) % 4 ≤ 1)

/-- Whether counter `i` is a byte counter (Table CNT-2). -/
def ctrIsByte (i : Nat) : Bool := i < 3888 && (i % 48 == 1 || i % 48 == 3)

/-- Whether counter `i` counts frames, copies or bytes, and so in level mode the cycles in which one is being
received or transmitted (R474): those that Tables CNT-1 and CNT-2 name by frames, copies, bytes or placeholders. -/
def ctrIsFrame (i : Nat) : Bool :=
  (i < 3888 && (i % 48 ≤ 6 || i % 48 == 9 || i % 48 == 10 || (15 ≤ i % 48 && i % 48 ≤ 22))) || i == 4304 ||
    (4576 ≤ i && i < 4640 && i % 4 == 3) || 4640 ≤ i

/-- A counter no command has touched (Table CNT-3). -/
def ctrReset (i : Nat) : Ctr := { level := ctrIsState i }

/-- Counter `i`. -/
def Dev.ctr (d : Dev) (i : Nat) : Ctr := (Sparse.get? d.obs.ctrs i).getD (ctrReset i)

/-- Counter `i` set. -/
def Dev.setCtr (i : Nat) (c : Ctr) (d : Dev) : Dev :=
  { d with obs := { d.obs with ctrs := if c = ctrReset i then Sparse.del d.obs.ctrs i else Sparse.put d.obs.ctrs i c } }

/-- The number of values a counter takes (R474). -/
def ctrSpan (i : Nat) : Nat := if ctrIsByte i then 2 ^ 64 else 2 ^ 40

/-- Counter `i` raised by `n`; a wrap sets ovf, CNT_EVENT.ovf and CNT_OVF_LAST (R476). -/
def Dev.bump (i n : Nat) (d : Dev) : Dev :=
  let c := d.ctr i
  let v := c.value + n
  if v < ctrSpan i then d.setCtr i { c with value := v }
  else
    ((d.setCtr i { c with value := v % ctrSpan i, ovf := true, wrapped := true }).event R.CNT_EVENT 2).put
      F.CNT_OVF_LAST i

/-- `n` events of counter `i` in one core cycle (R474, R480). In level mode a counter of frames, copies or bytes
adds the cycles the frame lasts, which the spec leaves to the timing: a free value; any other adds one cycle. -/
def Dev.count (i n : Nat) (d : Dev) : Dev :=
  let c := d.ctr i
  if n = 0 ∨ d.flag F.CNT_CTRL_freeze ∨ !c.enable then d
  else if !c.level then d.bump i n
  else if ctrIsFrame i ∨ ctrIsState i then (d.bump i (Config.cyclesHeld d.fresh)).draw
  else d.bump i 1

/-- A state counter at the entry of its state: an entry in edge mode (R474); in level mode the cycles are added
when the state ends. -/
def Dev.enterState (i : Nat) (d : Dev) : Dev := if (d.ctr i).level then d else d.count i 1

/-- A state counter at the end of its state. -/
def Dev.leaveState (i : Nat) (d : Dev) : Dev := if (d.ctr i).level then d.count i 1 else d

/-- Counter `i` cleared by a reset or a configuration write: the value and ovf fall, gen rises (R478, R479). -/
def Dev.clearCtr (i : Nat) (d : Dev) : Dev :=
  let c := d.ctr i
  d.setCtr i { c with value := 0, ovf := false, cleared := true, gen := (c.gen + 1) % 256 }

/-- The port counter with offset `o` (Table CNT-2). -/
abbrev portCtr (p o : Nat) : Nat := 48 * p + o

/-- The port counter offset of a drop reason (Table CNT-2). -/
def dropOffset (r : Nat) : Option Nat :=
  if 0x40 ≤ r then some 23
  else if 0x10 ≤ r ∧ r ≤ 0x14 then some (24 + (r - 0x10))
  else if 0x20 ≤ r ∧ r ≤ 0x28 then some (29 + (r - 0x20))
  else if 0x30 ≤ r ∧ r ≤ 0x35 then some (38 + (r - 0x30))
  else if r = 0x38 then some 44
  else if r = 0x3A then some 45
  else if r = 0x3C then some 46
  else if r = 0x3D then some 47
  else none

/-- The device counter of a reason 0x40–0xFF, for drops, traps and mirror copies (Table CNT-1). -/
def Dev.countReason (r : Nat) (d : Dev) : Dev := d.when (0x40 ≤ r) (Dev.count (4112 + (r - 0x40)) 1)

/-- A drop with its reason counted at a port (R475). -/
def Dev.countDrop (p r : Nat) (d : Dev) : Dev :=
  match dropOffset r with
  | some o => (d.count (portCtr p o) 1).countReason r
  | none => d

/-- A device counter (Table CNT-1). -/
abbrev devCtr (o : Nat) : Nat := 4304 + o

/-! ### Access errors -/

/-- An access flagged under R92: the bit of HIF_ACC_ERR, the address, the count, the event and its fault. -/
def Dev.flagAccess (i addr : Nat) (d : Dev) : Dev :=
  (((d.setBit R.HIF_ACC_ERR i true).put F.HIF_ACC_ADDR addr).sat F.HIF_ACC_CNT 1).fault R.HIF_EVENT 0
    E.HIF_ACC_REFUSED addr

/-- A write that reached an absent unit (R52). -/
def Dev.absentWrite (addr : Nat) (d : Dev) : Dev :=
  (((d.sat F.IMG_ABSENT_CNT 1).put F.IMG_ABSENT_ADDR addr).fault R.IMG_EVENT 4 E.IMG_ABSENT_WRITE addr).flagAccess
    0 addr

/-- A host access to a register of a block: an absent register has the outcome of R52, a register that a running
warm reset reaches discards the write (R71), and otherwise `f` acts. `r` is the register's region. -/
def Dev.hostWrite (present : Bool) (r addr : Nat) (f : Dev → Dev) (d : Dev) : Dev :=
  if d.busy ∧ r ≠ Region.time then d
  else if !present then d.absentWrite addr
  else f d

end Sys2Proof.Machine
end

