-- ==== Sys2Proof/Machine/Codes.lean ====
section
/-! DEFINITION. The code groups of a rope lane (R144, R145): the 8b/10b tables of IEEE 802.3 Clause 36 with running disparity, the
symbols of Table RLK-2, and the inversion of a lane's polarity. A code group is written abcdei fghj: bit a, sent first, is its most
significant bit. Running disparity is true for positive. -/

namespace Sys2Proof.Machine

/-- The ones in the low `n` bits of a number. -/
def ones (n v : Nat) : Nat := ((List.range n).filter (fun i => v.testBit i)).length

/-- The 6-bit sub-blocks abcdei of D.0 to D.31 under negative running disparity. -/
def sixTable : List Nat :=
  [0b100111, 0b011101, 0b101101, 0b110001, 0b110101, 0b101001, 0b011001, 0b111000,
   0b111001, 0b100101, 0b010101, 0b110100, 0b001101, 0b101100, 0b011100, 0b010111,
   0b011011, 0b100011, 0b010011, 0b110010, 0b001011, 0b101010, 0b011010, 0b111010,
   0b110011, 0b100110, 0b010110, 0b110110, 0b001110, 0b101110, 0b011110, 0b101011]

/-- The 4-bit sub-blocks fghj of D.x.0 to D.x.6 and D.x.P7 under negative running disparity. -/
def fourTable : List Nat := [0b1011, 0b1001, 0b0101, 0b1100, 0b1101, 0b1010, 0b0110, 0b1110]

/-- The 4-bit sub-blocks fghj of K.x.0 to K.x.7 under negative running disparity. -/
def fourTableK : List Nat := [0b1011, 0b0110, 0b1010, 0b1100, 0b1101, 0b0101, 0b1001, 0b0111]

/-- The sub-block abcdei of `x`, of a K28 where `k28`. -/
def encSix (plus k28 : Bool) (x : Nat) : Nat :=
  let t := if k28 then 0b001111 else nthD sixTable x 0
  if plus && (ones 6 t != 3 || (x == 7 && !k28)) then 63 - t else t

/-- The sub-block fghj of `y` after the 6-bit sub-block of `x`; the alternate A7 where Clause 36 asks for it. -/
def encFour (plus k : Bool) (x y : Nat) : Nat :=
  let alt := y == 7 && (if plus then x == 11 || x == 13 || x == 14 else x == 17 || x == 18 || x == 20)
  let t := if k then nthD fourTableK y 0 else if alt then 0b0111 else nthD fourTable y 0
  if plus && (k || ones 4 t != 2 || y == 3) then 15 - t else t

/-- The running disparity after a 6-bit sub-block. -/
def plusSix (plus : Bool) (t : Nat) : Bool :=
  if 3 < ones 6 t ∨ t = 0b000111 then true else if ones 6 t < 3 ∨ t = 0b111000 then false else plus

/-- The running disparity after a 4-bit sub-block. -/
def plusFour (plus : Bool) (t : Nat) : Bool :=
  if 2 < ones 4 t ∨ t = 0b0011 then true else if ones 4 t < 2 ∨ t = 0b1100 then false else plus

/-- The running disparity after a code group, valid or not. -/
def plusAfter (plus : Bool) (g : BitVec 10) : Bool := plusFour (plusSix plus (g.toNat / 16)) (g.toNat % 16)

/-- The code group of an octet, as data or as a K-symbol. -/
def encOctet (plus k : Bool) (b : Byte) : BitVec 10 :=
  let x := b.toNat % 32
  let y := b.toNat / 32
  let six := encSix plus (k && x == 28) x
  BitVec.ofNat 10 (16 * six + encFour (plusSix plus six) k x y)

/-- The octet of a symbol and whether it is a K-symbol (Table RLK-2); an invalid code group is never sent. -/
def Sym.octet : Sym → Byte × Bool
  | .data b => (b, false)
  | .comma => (0xBC, true)
  | .filler => (0x1C, true)
  | .sof => (0xFB, true)
  | .eof => (0xFD, true)
  | .abort => (0xFE, true)
  | .idle => (0xF7, true)
  | .invalid => (0, false)

/-- The code group of a symbol. -/
def Sym.code (plus : Bool) (s : Sym) : BitVec 10 := encOctet plus s.octet.2 s.octet.1

/-- The symbol of a code group under a running disparity: one the table does not hold in that column, or a K-symbol the link does
not use, is invalid (R145). DEDUCED: a code group of the other column is the running-disparity error of R144, and counts once. -/
def symbolOf (plus : Bool) (g : BitVec 10) : Sym :=
  match [Sym.comma, .filler, .sof, .eof, .abort, .idle].find? (fun s => s.code plus == g) with
  | some s => s
  | none =>
    match ((List.range 256).map (BitVec.ofNat 8)).find? (fun b => encOctet plus false b == g) with
    | some b => .data b
    | none => .invalid

/-- Symbols coded in turn, with the running disparity they leave. -/
def encodeSyms : Bool → List Sym → List (BitVec 10) × Bool
  | plus, [] => ([], plus)
  | plus, s :: rest =>
    let g := s.code plus
    let x := encodeSyms (plusAfter plus g) rest
    (g :: x.1, x.2)

/-- Code groups decoded in turn, with the running disparity they leave. -/
def decodeGroups : Bool → List (BitVec 10) → List Sym × Bool
  | plus, [] => ([], plus)
  | plus, g :: rest =>
    let x := decodeGroups (plusAfter plus g) rest
    (symbolOf plus g :: x.1, x.2)

/-- A lane's polarity inverts every bit (Table RLK-8). -/
def invertGroups (on : Bool) (l : List (BitVec 10)) : List (BitVec 10) := if on then l.map (fun g => ~~~g) else l

/-- The octet of a data symbol. -/
def Sym.byte? : Sym → Option Byte
  | .data b => some b
  | _ => none

/-- A frame in the tunnel payload (R168): K27.7, its bytes, and K29.7, or K30.7 where it went bad. -/
def tunnelSyms (bs : List Byte) (good : Bool) : List Sym := .sof :: (bs.map Sym.data ++ [if good then .eof else .abort])

/-! ### A rope lane's transmit stream -/

/-- A rope lane beyond its registers. -/
def Dev.rope (d : Dev) (n : Nat) : Rope := Sparse.getD d.ropes n {}

/-- A rope lane set. -/
def Dev.setRope (n : Nat) (x : Rope) (d : Dev) : Dev :=
  { d with ropes := if x = {} then Sparse.del d.ropes n else Sparse.put d.ropes n x }

/-- The link of a rope lane changed. -/
def Dev.ropeLink (n : Nat) (f : RopeLink → RopeLink) (d : Dev) : Dev := d.setRope n { d.rope n with link := f (d.rope n).link }

/-- The transmitter of a rope lane changed. -/
def Dev.ropeTx (n : Nat) (f : RopeTx → RopeTx) (d : Dev) : Dev := d.setRope n { d.rope n with tx := f (d.rope n).tx }

/-- The receiver of a rope lane changed. -/
def Dev.ropeRx (n : Nat) (f : RopeRx → RopeRx) (d : Dev) : Dev := d.setRope n { d.rope n with rx := f (d.rope n).rx }

/-- The tunnel stream of rope lane `n` ends (R169): a frame partly sent with K30.7, and nothing more comes. -/
def Dev.endStream (n : Nat) (d : Dev) : Dev :=
  d.ropeTx n (fun x => { x with stream := if x.stream.head?.all (· == .sof) then [] else [.abort] })

/-- A frame or a message goes to the payload slots of rope lane `n` (R168, R412). -/
def Dev.tunnelOut (n : Nat) (bs : List Byte) (good : Bool) (d : Dev) : Dev :=
  d.ropeTx n (fun x => { x with stream := x.stream ++ tunnelSyms bs good })

end Sys2Proof.Machine
end

