-- ==== Sys2Proof/Machine/Operands.lean ====
section
/-! DEFINITION. Reading the operands of the datapath: the ingress parse and the flow key (R174–R179), the length
taken at allocation (R218), PTP messages (R294, R298), table entries (R193–R199, R245, R260, R264), and the
rewriting of a frame as it leaves (R237, R295–R297, R541). -/

namespace Sys2Proof.Machine

/-! ### Bytes of a frame -/

/-- Byte `i` of a frame as a number; 0 beyond its end. -/
def octet (bs : List Byte) (i : Nat) : Nat := (nthD bs i 0).toNat

/-- `n` bytes at `i`, most significant first. -/
def octets (bs : List Byte) (i n : Nat) : Nat := beNat ((List.range n).map (fun j => nthD bs (i + j) 0))

/-- The bytes at `i` replaced by `new`. -/
def patch (bs : List Byte) (i : Nat) (new : List Byte) : List Byte :=
  if i + new.length ≤ bs.length then bs.take i ++ new ++ bs.drop (i + new.length) else bs

/-- The frame check sequence of IEEE 802.3 over bytes, as the four bytes sent. -/
def fcs (bs : List Byte) : List Byte := leBytes 4 (crcRefl 0xEDB88320 0xFFFFFFFF bs ^^^ 0xFFFFFFFF)

/-- A frame with its last four bytes replaced by its FCS. -/
def withFcs (bs : List Byte) : List Byte := bs.take (bs.length - 4) ++ fcs (bs.take (bs.length - 4))

/-- The FCS at a frame's end is correct. -/
def fcsOk (bs : List Byte) : Bool := bs.drop (bs.length - 4) == fcs (bs.take (bs.length - 4))

/-! ### Ingress parse -/

/-- What the ingress parse takes from a frame (R174–R178). `l3` is the byte after the EtherType, `udp` the byte
after a UDP header, `ecpri` the first byte of a recognised eCPRI header. -/
structure Parsed where
  tags : Nat
  vid : Nat
  pcp : Nat
  etype : Nat
  l3 : Nat
  ip : Nat
  proto : Nat
  src : Nat
  dst : Nat
  sport : Nat
  dport : Nat
  udp : Option Nat
  ecpri : Option Nat
  msgType : Nat
  pcId : Nat
  seqId : Option Nat
  subseq : Nat
  deriving DecidableEq, Repr

/-- A TPID the parse skips (R175). -/
def isTpid (t : Nat) : Bool := t == 0x8100 || t == 0x88A8

/-- The number of VLAN tags skipped, at most two (R175). -/
def tagCount (bs : List Byte) : Nat :=
  if isTpid (octets bs 12 2) then (if isTpid (octets bs 16 2) then 2 else 1) else 0

/-- The ingress parse of a header window (R174–R178), with the port's pvid and default PCP and the eCPRI UDP port
where recognised. An IPv4 packet of another protocol than TCP and UDP takes ports 0, as R178 has it of IPv6: DESIGN CHOICE (log
entry 98). -/
def parse (bs : List Byte) (pvid dpcp : Nat) (ecpriUdp : Option Nat) : Parsed :=
  let n := tagCount bs
  let tci := octets bs 14 2
  let vid := if n = 0 then pvid else tci % 4096
  let pcp := if n = 0 then dpcp else tci / 8192
  let et := octets bs (12 + 4 * n) 2
  let l3 := 14 + 4 * n
  let v4 := et == 0x0800
  let v6 := et == 0x86DD
  let proto := if v4 then octet bs (l3 + 9) else if v6 then octet bs (l3 + 6) else 0
  let ihl := if v4 then 4 * (octet bs l3 % 16) else 40
  let frag := v4 && octets bs (l3 + 6) 2 % 0x4000 != 0
  let hasPorts := (v4 || v6) && (proto == 6 || proto == 17) && !frag
  let l4 := l3 + ihl
  let sport := if hasPorts then octets bs l4 2 else 0
  let dport := if hasPorts then octets bs (l4 + 2) 2 else 0
  let isUdp := hasPorts && proto == 17
  let mapped := fun a => 0xFFFF * 2 ^ 32 + a
  let src := if v4 then mapped (octets bs (l3 + 12) 4) else if v6 then octets bs (l3 + 8) 16 else 0
  let dst := if v4 then mapped (octets bs (l3 + 16) 4) else if v6 then octets bs (l3 + 24) 16 else 0
  let at_ := if et == 0xAEFE then some l3
    else if isUdp && (ecpriUdp == some dport) then some (l4 + 8) else none
  let ecpri := at_.filter (fun o => octet bs o / 16 == 1)
  let mt := match ecpri with | some o => octet bs (o + 1) | none => 0
  let io := ecpri.filter (fun _ => mt ≤ 3)
  { tags := n, vid := vid, pcp := pcp, etype := et, l3 := l3
    ip := if v4 then 4 else if v6 then 6 else 0
    proto := proto, src := src, dst := dst, sport := sport, dport := dport
    udp := if isUdp then some (l4 + 8) else none
    ecpri := ecpri, msgType := mt
    pcId := match io with | some o => octets bs (o + 4) 2 | none => 0
    seqId := io.map (fun o => octet bs (o + 6))
    subseq := match io with | some o => octet bs (o + 7) % 128 | none => 0 }

/-- The flow key type (Table FWD-1). -/
def Parsed.keyType (q : Parsed) (mode : Nat) : Nat :=
  if mode = 1 then 0
  else if q.ecpri.isSome then 2
  else if mode ≠ 2 ∧ q.ip ≠ 0 then 1
  else 0

/-- The flow key of a type, right-aligned (Table FWD-1). -/
def Parsed.flowKey (q : Parsed) (bs : List Byte) (kt : Nat) : Nat :=
  let da := octets bs 0 6
  if kt = 1 then ((q.src * 2 ^ 128 + q.dst) * 2 ^ 8 + q.proto) * 2 ^ 32 + q.sport * 2 ^ 16 + q.dport
  else if kt = 2 then (q.vid * 2 ^ 48 + da) * 2 ^ 24 + q.msgType * 2 ^ 16 + q.pcId
  else q.vid * 2 ^ 48 + da

/-- The hash bytes of a key type (Table FWD-1). -/
def keyBytes (kt : Nat) : Nat := if kt = 1 then 37 else if kt = 2 then 11 else 8

/-- The flow hash: the CRC-32C of RFC 3720 over the key type and the key, from the seed as written (R179). -/
def flowHash (seed kt key : Nat) : Nat :=
  crcRefl 0x82F63B78 seed (BitVec.ofNat 8 kt :: beBytes (keyBytes kt) key) ^^^ 0xFFFFFFFF

/-- The TCAM key (Table FWD-6). -/
def Parsed.tcamKey (q : Parsed) (bs : List Byte) (kt port : Nat) : Nat :=
  let head := ((kt * 2 ^ 7 + port) * 2 ^ 3 + q.pcp) * 2 ^ 12 + q.vid
  if kt = 1 then head * 2 ^ 296 + q.flowKey bs 1
  else
    let mt := if kt = 2 then q.msgType else 0
    let pc := if kt = 2 then q.pcId else 0
    (head * 2 ^ 96 + octets bs 0 12) * 2 ^ 200 + ((q.etype * 2 ^ 8 + mt) * 2 ^ 16 + pc) * 2 ^ 160

/-- The length known at allocation (Table BPM-2), `ended` naming a frame that ended within the window. -/
def Parsed.lengthTaken (q : Parsed) (bs : List Byte) (ended : Option Nat) (largest : Nat) : Option Nat :=
  let e := q.l3
  let raw := match ended with
    | some n => some n
    | none =>
      if q.ip = 4 then some (e + octets bs (q.l3 + 2) 2 + 4)
      else if q.ip = 6 then some (e + 40 + octets bs (q.l3 + 4) 2 + 4)
      else match q.ecpri with
        | some o => if octet bs o % 2 = 0 then some (e + 4 + octets bs (o + 2) 2 + 4) else none
        | none => none
  let cbit := match q.ecpri with | some o => octet bs o % 2 == 1 | none => false
  match raw with
  | none => none
  | some n =>
    if cbit then none
    else
      let m := max 64 n
      if largest < m then none else some m

/-! ### PTP -/

/-- Where a PTP event message starts in a frame (R294), if the port's configuration recognises it, its versionPTP
is 2 and its type is one of the event messages 0–3: the parse ignores every other. -/
def Parsed.ptpAt (q : Parsed) (bs : List Byte) (eth udp : Bool) : Option Nat :=
  let o := if q.etype = 0x88F7 ∧ eth then some q.l3
    else if (q.dport = 319 ∨ q.dport = 320) ∧ udp then q.udp else none
  o.filter (fun i => octet bs (i + 1) % 16 == 2 && decide (octet bs i % 16 ≤ 3))

/-- The PTP message type at `o`; types 0–3 are event messages (R294). -/
def ptpType (bs : List Byte) (o : Nat) : Nat := octet bs o % 16

/-- The messageLength of the PTP message at `o`. -/
def ptpLength (bs : List Byte) (o : Nat) : Nat := octets bs (o + 2) 2

/-- The body length of each PTP message type, header included, before its TLVs (IEEE 1588). -/
def ptpBody (t : Nat) : Nat := if t = 0 ∨ t = 1 then 44 else if t = 2 ∨ t = 3 then 54 else 34

/-- The offset of the AUTHENTICATION TLV within a list of TLVs that starts at `o` and ends at `hi`. -/
def findAuthTlv (bs : List Byte) (hi : Nat) : Nat → Nat → Option Nat
  | 0, _ => none
  | fuel + 1, o =>
    if hi < o + 4 then none
    else if octets bs o 2 = 0x8009 then some o
    else findAuthTlv bs hi fuel (o + 4 + octets bs (o + 2) 2)

/-- The AUTHENTICATION TLV of the PTP message at `o`, up to its messageLength (R298). -/
def authTlv (bs : List Byte) (o : Nat) : Option Nat :=
  findAuthTlv bs (o + ptpLength bs o) (ptpLength bs o) (o + ptpBody (ptpType bs o))

/-- A 64-bit correctionField raised by `n` units of 1/65,536 ns, held at its ends (R295). -/
def correct (field : Nat) (n : Int) : Nat := saturate 64 (signed 64 field + n)

/-- An incremental update of a UDP or IPv4 checksum for bytes replaced by others of the same length. -/
def checksumUpdate (sum : Nat) (old new : List Byte) : Nat :=
  let words := fun (bs : List Byte) => (List.range (bs.length / 2)).foldl (fun a i => a + octets bs (2 * i) 2) 0
  let raw := (0xFFFF - sum) + (0xFFFF * (old.length / 2) - words old) + words new
  let fold := fun (x : Nat) => x % 65536 + x / 65536
  0xFFFF - fold (fold (fold raw))

/-- Bytes of a PTP message at `i` replaced, with the UDP checksum before it updated; an IPv4 UDP checksum of 0
stays 0 (R296). -/
def patchUdp (q : Parsed) (bs : List Byte) (i : Nat) (new : List Byte) : List Byte :=
  let out := patch bs i new
  match q.udp with
  | none => out
  | some u =>
    let sum := octets bs (u - 2) 2
    if q.ip = 4 ∧ sum = 0 then out
    else
      let old := slice bs i new.length
      -- a field at an odd distance from the header is widened by one byte on each side
      let odd := (i - u) % 2
      let oldW := if odd = 1 then slice bs (i - 1) 1 ++ old ++ slice bs (i + new.length) 1 else old
      let newW := if odd = 1 then slice bs (i - 1) 1 ++ new ++ slice bs (i + new.length) 1 else new
      let s := checksumUpdate sum oldW newW
      patch out (u - 2) (beBytes 2 (if s = 0 then 0xFFFF else s))

/-! ### Table entries -/

/-- A 32-bit dword `k` of an entry. -/
def Dev.entryDword (d : Dev) (base k : Nat) : Nat := d.dword (base + 4 * k)

/-- Bits of a number. -/
def field (v lo w : Nat) : Nat := v / 2 ^ lo % 2 ^ w

abbrev emBase : Nat := 0x01000000
abbrev tcamBase : Nat := 0x01800000
abbrev actBase : Nat := 0x01900000
abbrev mcBase : Nat := 0x01B00000
abbrev ctxBase : Nat := 0x01B10000
abbrev hitBase : Nat := 0x01B50000
abbrev bucketBase : Nat := 0x01B60000
abbrev stateBase : Nat := 0x02000000
abbrev gateBase : Nat := 0x02200000
abbrev flowBase : Nat := 0x02280000
abbrev tmplBase : Nat := 0x022A0000
abbrev tmplData : Nat := 0x02300000

/-- The key of `n` dwords at an address, bit j of dword d being key bit 32d + j (Table FWD-5). -/
def Dev.keyAt (d : Dev) (a n : Nat) : Nat := leNat (d.bytes a (4 * n))

/-- The exact-match entries of a set that match a key, lowest first (R193). -/
def Dev.emMatches (d : Dev) (kt key first : Nat) : List Nat :=
  ((List.range 8).map (first + ·)).filter (fun i =>
    let w := d.dword (emBase + 64 * i + 60)
    field w 31 1 == 1 && !d.poisoned (emBase + 64 * i) && field w 17 2 == kt && d.keyAt (emBase + 64 * i) 10 == key)

/-- The first entry of the set of a key (R192); none where the partition is empty. -/
def Dev.emSet (d : Dev) (kt hash : Nat) : Option Nat :=
  let sets := d.get (F.FWD_PART_EM_size kt) * 512
  if sets = 0 then none else some (d.get (F.FWD_PART_EM_base kt) * 4096 + 8 * (hash / 4096 % sets))

/-- The TCAM entry a key hits (R195). -/
def Dev.tcamHit (d : Dev) (kt key : Nat) : Option Nat :=
  let base := d.get (F.FWD_PART_TC_base kt) * 256
  ((List.range (d.get (F.FWD_PART_TC_size kt) * 256)).map (base + ·)).find? (fun i =>
    let a := tcamBase + 128 * i
    field (d.dword (a + 124)) 31 1 == 1 && !d.poisoned a &&
      (d.keyAt a 10 ^^^ key) &&& d.keyAt (a + 40) 10 == 0)

/-- The cells per buffer of a pool (Table BPM-1). -/
def poolCells (k : Nat) : Nat := nthD [1, 4, 9, 38] k 38

/-- The bytes of a buffer of a pool (Table BPM-1). -/
def poolBytes (k : Nat) : Nat := nthD [256, 1024, 2304, 9728] k 9728

/-- The handle of buffer `i` of pool `k` (R217). -/
def handle (k i : Nat) : Nat := k * 2 ^ 19 + i

/-- The pool of a handle. -/
def handlePool (h : Nat) : Nat := h / 2 ^ 19 % 4

/-- The buffer index of a handle. -/
def handleIndex (h : Nat) : Nat := h % 2 ^ 19

/-! ### Rewriting at egress -/

/-- The VLAN operation of an action on a frame without its FCS (R541). -/
def vlanOp (a : Action) (bs : List Byte) : List Byte :=
  let tci := a.pcp * 8192 + a.vid
  let tagged := isTpid (octets bs 12 2)
  if a.vlanOp = 1 then bs.take 12 ++ beBytes 2 0x8100 ++ beBytes 2 tci ++ bs.drop 12
  else if a.vlanOp = 2 ∧ tagged then bs.take 12 ++ bs.drop 16
  else if a.vlanOp = 3 ∧ tagged then
    patch bs 14 (beBytes 2 (tci + octets bs 14 2 / 4096 % 2 * 4096))
  else bs

/-- The bytes by which an action's VLAN operation moves what follows the addresses (R541). -/
def vlanShift (a : Action) (bs : List Byte) : Int :=
  if a.vlanOp = 1 then 4 else if a.vlanOp = 2 ∧ isTpid (octets bs 12 2) then -4 else 0

/-- What the ingress parse took from a frame, at its place once the frame's header has moved by `n` bytes of tags. -/
def Parsed.move (q : Parsed) (n : Int) : Parsed :=
  let at_ := fun (x : Nat) => ((x : Int) + n).toNat
  { q with tags := ((q.tags : Int) + n / 4).toNat, l3 := at_ q.l3, udp := q.udp.map at_, ecpri := q.ecpri.map at_ }

/-- A frame without FCS padded to 60 bytes after a pop (R541). -/
def padShort (a : Action) (bs : List Byte) : List Byte :=
  if a.vlanOp = 2 then bs ++ List.replicate (60 - bs.length) 0 else bs

/-- The congestion mark on a frame without FCS as sent, its headers at the places `q` gives (R237). -/
def markFrame (ecn dei : Bool) (q : Parsed) (bs : List Byte) : List Byte :=
  if q.ip = 4 then
    let tos := octet bs (q.l3 + 1)
    if ecn ∧ (tos % 4 = 1 ∨ tos % 4 = 2) then
      let old := slice bs q.l3 2
      let out := patch bs (q.l3 + 1) [BitVec.ofNat 8 (tos / 4 * 4 + 3)]
      let sum := checksumUpdate (octets bs (q.l3 + 10) 2) old (slice out q.l3 2)
      patch out (q.l3 + 10) (beBytes 2 sum)
    else bs
  else if q.ip = 6 then
    let w := octets bs q.l3 2
    let code := w / 16 % 4
    if ecn ∧ (code = 1 ∨ code = 2) then patch bs q.l3 (beBytes 2 (w / 64 * 64 + 48 + w % 16)) else bs
  else if q.tags = 0 then bs
  else if dei then
    let tci := octets bs 14 2
    patch bs 14 (beBytes 2 (if tci / 4096 % 2 = 1 then tci else tci + 4096))
  else bs

end Sys2Proof.Machine
end

