-- ==== Sys2Proof/Machine/Capture.lean ====
section
/-! DEFINITION. The cairn ring's capture: candidates, rules, samplers, triggers and the capture FIFO
(R485–R490). -/

namespace Sys2Proof.Machine

/-- The three parts of a stamp in capture metadata: fraction, nanoseconds, seconds bits 15:0 (Table CRG-1). -/
def stampBytes (t : Nat) : List Byte := leBytes 2 (fracOf t) ++ leBytes 4 (nsOf t) ++ leBytes 2 (secOf t)

/-- A candidate for capture (R485): `kind` is 0 sent, 1 dropped, 2 stomped, 3 late and sent, 4 placeholder. -/
structure Candidate where
  ingress : Stamp
  egress : Stamp
  inPort : Nat
  outPort : Nat
  queue : Nat
  kind : Nat
  reason : Nat
  cells : Nat
  len : Nat
  ctx : Option Nat
  engine : Nat
  cluster : Nat
  express : Bool
  bytes : List Byte

/-- The number of entries of the ring in use (R488, CRG_HRING_SIZE clamped to 10–20). -/
def Dev.ringSize (d : Dev) : Nat :=
  if d.flag F.CRG_CTRL_dest then 2 ^ (max 10 (min 20 (d.get F.CRG_HRING_SIZE_log2))) else 16384

/-- The capture runs: state running or post (R489). -/
def Dev.capturing (d : Dev) : Bool := d.get F.CRG_STATUS_state == 1 || d.get F.CRG_STATUS_state == 2

/-- Rule `j` is enabled and matches a candidate: every field matches, and a field whose any bit is 1 always
does (R485). -/
def Dev.ruleMatches (d : Dev) (c : Candidate) (j : Nat) : Bool :=
  d.flag (F.CRG_RULE_A_enable j) &&
  (d.flag (F.CRG_RULE_A_in_any j) || d.get (F.CRG_RULE_A_in_port j) == c.inPort) &&
  (d.flag (F.CRG_RULE_A_out_any j) || d.get (F.CRG_RULE_A_out_port j) == c.outPort) &&
  hasBit (d.get (F.CRG_RULE_A_kinds j)) c.kind &&
  (d.flag (F.CRG_RULE_A_q_any j) || d.get (F.CRG_RULE_A_queue j) == c.queue) &&
  (d.flag (F.CRG_RULE_B_reason_any j) || d.get (F.CRG_RULE_B_reason j) == c.reason) &&
  (d.flag (F.CRG_RULE_B_ctx_any j) || c.ctx == some (d.get (F.CRG_RULE_B_ctx j)))

/-- The sampler of rule `j` selects this candidate, and the rule's candidates counted (R485). A random sampler
selects by a free value. -/
def Dev.sample (j : Nat) (d : Dev) : Dev × Bool :=
  let n := Sparse.getD d.obs.samplers j 0 + 1
  let e := { d with obs := { d.obs with samplers := Sparse.put d.obs.samplers j n } }
  if d.flag (F.CRG_RULE_B_rand j) then
    if d.get (F.CRG_RULE_B_sample j) = 0 then (e, true) else (e.draw, Config.randomSelect d.fresh)
  else (e, n % 2 ^ d.get (F.CRG_RULE_B_sample j) == 0)

/-- The trigger of R490: the state becomes post, and the entries still to be taken are counted; `post` is held
below the ring's size. `idx` names the trigger entry where the trigger is a candidate that is captured. -/
def Dev.trigger (d : Dev) : Dev :=
  let post := min (d.get F.CRG_TRIG_post) (d.ringSize - 1)
  let e := (d.put F.CRG_STATUS_state 2).event R.CRG_EVENT 0
  { e with obs := { e.obs with trigNext := true, postLeft := post } }

/-- A trigger source may fire: armed in mode 3, running, the source enabled in CRG_TRIG.src (R490). -/
def Dev.mayTrigger (d : Dev) (src : Nat) : Bool :=
  d.get F.CRG_CTRL_mode == 3 && d.get F.CRG_STATUS_state == 1 && hasBit (d.get F.CRG_TRIG_src) src

/-- The 160 bytes of an entry (R486, Table CRG-1). -/
def Dev.entryBytes (d : Dev) (c : Candidate) (rule : Nat) (trig : Bool) : List Byte :=
  let b := fun (n : Nat) => BitVec.ofNat 8 n
  stampBytes c.ingress.t ++ stampBytes c.egress.t ++
  [b c.inPort, b c.outPort, b (c.queue + 16 * c.kind + 128 * bit (c.ingress.valid && c.egress.valid)), b c.reason] ++
  leBytes 3 c.cells ++ [b (rule + 128 * bit trig)] ++ leBytes 2 c.len ++
  leBytes 2 (match c.ctx with | some x => x + 0x8000 | none => 0) ++ leBytes 2 d.obs.entryNo ++
  [b c.egress.epoch, b (c.engine + 16 * c.cluster + 128 * bit c.express)] ++
  (c.bytes ++ List.replicate 128 0).take 128

/-- Capture takes no further entry: on-die fill mode has its 16,384 entries, or the entries after the trigger are all
taken (R489). The triggering candidate itself is not one of those. -/
def Dev.captureOver (trig : Bool) (d : Dev) : Bool :=
  (d.get F.CRG_CTRL_mode == 2 && !d.flag F.CRG_CTRL_dest &&
    decide (16384 ≤ d.get F.CRG_STATUS_count + d.obs.fifo.length)) ||
  (d.get F.CRG_STATUS_state == 2 && !trig && d.obs.postLeft == 0)

/-- An entry put into the capture FIFO, or lost when the FIFO is full or a host ring in fill mode has no room
(R487, R489). -/
def Dev.capture (c : Candidate) (rule : Nat) (trig : Bool) (d : Dev) : Dev :=
  let slot := (d.get F.CRG_HEAD + d.obs.fifo.length) % d.ringSize
  let noRoom := d.get F.CRG_CTRL_mode == 2 && d.flag F.CRG_CTRL_dest &&
    (slot + 1) % d.ringSize == d.get F.CRG_HRING_TAIL
  if d.captureOver trig then d
  else if 64 ≤ d.obs.fifo.length ∨ noRoom then
    ((d.sat F.CRG_LOST 1).count (devCtr 6) 1).when trig (Dev.put F.CRG_STATUS_trig_lost 1)
  else
    let named := d.obs.trigNext
    let e := (d.count (devCtr 5) 1).when named (Dev.put F.CRG_TRIG_IDX slot)
    { e with obs := { e.obs with
        fifo := e.obs.fifo ++ [⟨d.entryBytes c rule (trig || named), trig⟩]
        entryNo := e.obs.entryNo + 1, trigNext := false
        postLeft := if trig then e.obs.postLeft else e.obs.postLeft - 1 } }

/-- A candidate arises (R485): the lowest-numbered matching rule decides, a trigger rule captures whatever its
sampler (R490). -/
def Dev.candidate (c : Candidate) (d : Dev) : Dev :=
  if !d.capturing then d
  else
    match (List.range 8).find? (fun j => d.ruleMatches c j) with
    | none => d
    | some j =>
      let (e, sel) := d.sample j
      if d.flag (F.CRG_RULE_A_trigger j) && d.mayTrigger 0 then e.trigger.capture c j true
      else if sel then e.capture c j false
      else e

end Sys2Proof.Machine
end

