-- ==== Sys2Proof/Machine/Buffers.lean ====
section
/-! DEFINITION. The buffer pool manager's operations: allocation, low mode, frees and their checks, the cells of a
queue, copies consumed and ownership passed (R214–R237, R492). -/

namespace Sys2Proof.Machine

/-! ### Frames held -/

/-- A frame the device holds. -/
def Dev.frame? (d : Dev) (i : Nat) : Option Frame := Sparse.get? d.fwd.frames i

/-- A frame the device holds, or an empty one. -/
def Dev.frame (d : Dev) (i : Nat) : Frame := (d.frame? i).getD {}

/-- A frame changed. -/
def Dev.setFrame (i : Nat) (f : Frame) (d : Dev) : Dev :=
  { d with fwd := { d.fwd with frames := Sparse.put d.fwd.frames i f } }

/-- A frame forgotten. -/
def Dev.delFrame (i : Nat) (d : Dev) : Dev := { d with fwd := { d.fwd with frames := Sparse.del d.fwd.frames i } }

/-- A frame of which nothing remains to be done is forgotten; one that still arrives leaves a record that only waits
for its end. -/
def Dev.forget (i : Nat) (d : Dev) : Dev :=
  let f := d.frame i
  if f.complete then d.delFrame i
  else d.setFrame i { port := f.port, cls := f.cls, ring := f.ring, bytes := f.bytes, raw := f.raw, sa := f.sa, hurt := f.hurt, short := f.short, windowed := true, waits := true }

/-- The reason of a frame whose chained second buffer could not be had (R220). -/
abbrev chainFailed : Nat := 0x22

/-! ### Pools -/

/-- Pool `k`. -/
def Dev.pool (d : Dev) (k : Nat) : Pool := (Sparse.get? d.bpm.pools k).getD {}

/-- The handles in the stack of a pool, initial ones included. -/
def Pool.stackCount (p : Pool) : Nat := p.pushed.length + (p.size - p.taken.length)

/-- The handles in group `g`'s cache. -/
def Pool.cache (p : Pool) (g : Nat) : List Nat := Sparse.getD p.caches g []

/-- The handles in all caches. -/
def Pool.cacheCount (p : Pool) : Nat := ((List.range 8).map (fun g => (p.cache g).length)).sum

/-- The pool with group `g`'s cache holding `l`. -/
def Pool.setCache (g : Nat) (l : List Nat) (p : Pool) : Pool := { p with caches := Sparse.put p.caches g l }

/-- The next handle of the stack: the newest pushed, else an initial one. The order in which the rebuilt stack
holds its initial handles is open: a free value picks among those left. -/
def Pool.pop (k fresh : Nat) (p : Pool) : Option (Nat × Pool) :=
  match p.pushed with
  | i :: rest => some (i, { p with pushed := rest })
  | [] =>
    let left := (List.range p.size).filter (fun i => !p.taken.contains i)
    match left with
    | [] => none
    | _ =>
      let i := nthD left (Config.stackPick k fresh % left.length) 0
      some (i, { p with taken := p.taken ++ [i] })

/-- A pool's reports follow its contents: BPM_POOL_FREE_k counts the handles of stack and caches that are not
quarantined (R221, R492), BPM_POOL_MIN_k holds the least count (Table BPM-7). -/
def Dev.syncPool (k : Nat) (d : Dev) : Dev :=
  let p := d.pool k
  let q := (d.bpm.quarantined.filter (fun h => handlePool h == k)).length
  let n := p.stackCount + p.cacheCount - q
  (d.put (F.BPM_POOL_FREE_free k) n).put (F.BPM_POOL_MIN k) (min n (d.get (F.BPM_POOL_MIN k)))

/-- Low mode after a change of the stack (R224): entered below the threshold, left at twice the threshold; a
threshold of 0 disables it. -/
def Dev.lowMode (k : Nat) (d : Dev) : Dev :=
  let th := d.get (F.BPM_POOL_LOW_thresh k)
  let n := (d.pool k).stackCount
  if d.flag (F.BPM_POOL_FREE_low k) then
    if th = 0 ∨ 2 * th ≤ n then d.put (F.BPM_POOL_FREE_low k) 0 else d
  else if n < th then (d.put (F.BPM_POOL_FREE_low k) 1).event R.BPM_EVENT 3
  else d

/-- Pool `k` replaced, its reports and its mode following. -/
def Dev.setPool (k : Nat) (p : Pool) (d : Dev) : Dev :=
  (({ d with bpm := { d.bpm with pools := Sparse.put d.bpm.pools k p } }).syncPool k).lowMode k

/-- The state entry of a buffer. -/
def Dev.buf (d : Dev) (h : Nat) : BufState := (Sparse.get? d.bpm.bufs h).getD {}

/-- The state entry of a buffer set. -/
def Dev.setBuf (h : Nat) (b : BufState) (d : Dev) : Dev :=
  { d with bpm := { d.bpm with bufs := if b = {} then Sparse.del d.bpm.bufs h else Sparse.put d.bpm.bufs h b } }

/-! ### Packet memory -/

/-- The first cell of a buffer (R217). -/
def Dev.firstCell (d : Dev) (h : Nat) : Nat :=
  d.get (F.BPM_POOL_BASE_cell (handlePool h)) + handleIndex h * poolCells (handlePool h)

/-- The key of cell `c`: bank c mod 64, row c / 64, of 4,608 rows a bank (R214). -/
def cellKey (c : Nat) : Nat := 4608 * (c % 64) + c / 64

/-- The bytes of a cell that were written so far: those up to the last one. -/
def Dev.cell (d : Dev) (c : Nat) : List Byte := Sparse.getD d.bpm.cells (cellKey c) []

/-- The 256 bytes of a cell. -/
def Dev.wholeCell (d : Dev) (c : Nat) : List Byte :=
  let l := d.cell c
  l ++ (List.range (256 - l.length)).map (fun i => Config.packetByte c (l.length + i))

/-- Bytes written into a cell from place `off` on. A 256-bit word that is written again has lost its error (R215). -/
def Dev.writeCell (c off : Nat) (bs : List Byte) (d : Dev) : Dev :=
  let l := (d.wholeCell c).take off ++ bs ++ (d.cell c).drop (off + bs.length)
  let kept := d.bpm.spoiled.filter (fun w => w / 8 != c || decide (w % 8 < off / 32) || decide ((off + bs.length - 1) / 32 < w % 8))
  { d with bpm := { d.bpm with cells := Sparse.put d.bpm.cells (cellKey c) l, spoiled := kept } }

/-- Bytes written into a buffer from place `off` on; those beyond its end are lost. -/
def Dev.writeBuffer (h off : Nat) (bs : List Byte) (d : Dev) : Dev :=
  Dev.each (List.range (poolCells (handlePool h))) (fun j e =>
    let lo := max off (256 * j)
    let hi := min (off + bs.length) (256 * (j + 1))
    if lo < hi then e.writeCell (e.firstCell h + j) (lo - 256 * j) (slice bs (lo - off) (hi - lo)) else e) d

/-- The first `n` bytes of a buffer. -/
def Dev.readBuffer (d : Dev) (h n : Nat) : List Byte :=
  let m := min n (poolBytes (handlePool h))
  (((List.range ((m + 255) / 256)).map (fun j => d.wholeCell (d.firstCell h + j))).flatten).take m

/-- The bytes of a frame from place `from_` on written to its buffers (R214, R220). -/
def Dev.storeFrame (i from_ : Nat) (d : Dev) : Dev :=
  let f := d.frame i
  match f.buf with
  | none => d
  | some h =>
    let room := poolBytes (handlePool h)
    let first := f.bytes.take room
    let d1 := d.when (decide (from_ < first.length)) (Dev.writeBuffer h from_ (first.drop from_))
    match f.chain with
    | none => d1
    | some c =>
      let rest := f.bytes.drop room
      d1.when (decide (from_ - room < rest.length)) (Dev.writeBuffer c (from_ - room) (rest.drop (from_ - room)))

/-- A frame as its buffers hold it now: a copy reads whatever they next hold once they were freed under it (R230). -/
def Dev.stored (d : Dev) (f : Frame) : Frame :=
  match f.buf with
  | none => f
  | some h =>
    let room := poolBytes (handlePool h)
    let rest := match f.chain with | some c => d.readBuffer c (f.bytes.length - room) | none => f.bytes.drop room
    { f with bytes := d.readBuffer h f.bytes.length ++ rest }

/-- The cell and the 256-bit word of it, 8 to a cell, in which word `w` of a frame's bytes lies, where its buffers hold it. -/
def Dev.frameWord (d : Dev) (f : Frame) (w : Nat) : Option Nat :=
  if f.bytes.length ≤ 32 * w then none
  else match f.buf with
    | none => none
    | some h =>
      let words := poolBytes (handlePool h) / 32
      if w < words then some (8 * d.firstCell h + w) else f.chain.map (fun c => 8 * d.firstCell c + (w - words))

/-- The first word of a frame that holds an uncorrectable error met before (R215). -/
def Dev.badWord (d : Dev) (f : Frame) : Option Nat :=
  if d.bpm.spoiled = [] then none
  else (List.range ((f.bytes.length + 31) / 32)).find? (fun w =>
    match d.frameWord f w with | some a => d.bpm.spoiled.contains a | none => false)

/-- The owner tag of a port and stage (R227). -/
def ownerTag (port stage : Nat) : Nat := port + 128 * stage

/-- One handle taken for requester `g` from pool `k`: its own cache first, then the stack (R223, R224). A popped
handle under quarantine is discarded and another taken (R492). -/
def Dev.takeHandle (k g : Nat) : Nat → Dev → Option (Nat × Dev)
  | 0, _ => none
  | fuel + 1, d =>
    let p := d.pool k
    let got : Option (Nat × Pool × Bool) :=
      match p.cache g with
      | i :: rest => some (i, p.setCache g rest, false)
      | [] => (p.pop k d.fresh).map (fun x => (x.1, { x.2 with lastPop := g }, p.pushed.isEmpty))
    match got with
    | none => none
    | some (i, p', drew) =>
      let e := (d.when drew Dev.draw).setPool k p'
      let h := handle k i
      if h ∈ e.bpm.quarantined then
        Dev.takeHandle k g fuel ({ e with bpm := { e.bpm with quarantined := e.bpm.quarantined.erase h } }.syncPool k)
      else some (h, e)

/-- The test of a buffer under a sweep ends when an allocation pops it, and counts as skipped (R492). -/
def Dev.sweepSkip (h : Nat) (d : Dev) : Dev :=
  if h ∈ d.obs.sweep then
    { (d.wrap (F.TST_RES 1) 1) with obs := { d.obs with sweep := d.obs.sweep.erase h } }
  else d

/-- A buffer allocated for requester `g`: pool `k`, then, where spill-up is enabled, the next larger pools
(R226). Each empty pool sets pool_empty and is counted. -/
def Dev.alloc (g : Nat) (tag : Nat) (spill : Bool) : List Nat → Dev → Option Nat × Dev
  | [], d => (none, d)
  | k :: ks, d =>
    match d.takeHandle k g 65536 with
    | some (h, e) =>
      (some h, ((e.setBuf h { owned := true, tag := tag }).sweepSkip h).count (4096 + 4 * k) 1)
    | none =>
      let e := (d.fault R.BPM_EVENT 2 E.BPM_POOL_EMPTY k).count (4096 + 4 * k + 2) 1
      if spill ∧ ks ≠ [] then Dev.alloc g tag spill ks (e.count (4096 + 4 * k + 3) 1) else (none, e)

/-- The pools from `k` up to pool 3. -/
def poolsFrom (k : Nat) : List Nat := (List.range 4).filter (k ≤ ·)

/-- Spill-up is enabled for a port and class (Table BPM-8). -/
def Dev.spills (d : Dev) (p c : Nat) : Bool := hasBit (d.get (F.BPM_PCLASS_spill p)) c

/-- The default pool of a port and class (Table BPM-8). -/
def Dev.defaultPool (d : Dev) (p c : Nat) : Nat := field (d.get (F.BPM_PCLASS_default_pool p)) (2 * c) 2

/-- The pool of a frame's first buffer (R219). -/
def Dev.firstPool (d : Dev) (p c : Nat) : Option Nat → Nat
  | some n => ((List.range 4).find? (fun k => n ≤ poolBytes k)).getD 3
  | none => d.defaultPool p c

/-- The pool of a chained second buffer (R220). -/
def chainPool (first largest : Nat) : Nat :=
  ((List.range 4).find? (fun k => largest ≤ poolBytes first + poolBytes k)).getD 3

/-! ### Frees -/

/-- The groups of a mask that an arbiter grants in one core cycle: at most four of those that ask, in ascending number, starting
from the one after the last granted and wrapping from 7 to 0 (R222, R225). -/
def granted (last groups : Nat) (asks : Nat → Bool) : List Nat :=
  (((List.range 8).map (fun j => (last + 1 + j) % 8)).filter (fun g => hasBit groups g && asks g)).take 4

/-- Group `g`'s cache of pool `k` takes the handle its request was granted, while the stack holds one. -/
def Dev.cachePop (k g : Nat) (d : Dev) : Dev :=
  let p := d.pool k
  match p.pop k d.fresh with
  | none => d
  | some (i, p') =>
    (d.when p.pushed.isEmpty Dev.draw).setPool k { p'.setCache g (i :: p.cache g) with lastPop := g }

/-- Group `g`'s cache of pool `k` pushes a handle to the stack; which one is open. -/
def Dev.cachePush (k g : Nat) (d : Dev) : Dev :=
  let p := d.pool k
  let c := p.cache g
  let i := nthD c (Config.cachePick k d.fresh % c.length) 0
  d.draw.setPool k { p.setCache g (c.erase i) with pushed := i :: p.pushed, lastPush := g }

/-- A core cycle of the pop arbiter of pool `k` for the caches of `groups` (R222, R223, R225): each that holds fewer than 8
handles asks for one, and at most four are granted; no cache refills in low mode (R224). -/
def Dev.cacheRefill (k groups : Nat) (d : Dev) : Dev :=
  let p := d.pool k
  if d.flag (F.BPM_POOL_FREE_low k) then d
  else Dev.each (granted p.lastPop groups (fun g => decide ((p.cache g).length < 8))) (Dev.cachePop k) d

/-- A core cycle of the push arbiter of pool `k` for the caches of `groups` (R222–R224): each that holds more than 12 handles,
or any in low mode, asks to push one, and at most four are granted. -/
def Dev.cacheDrain (k groups : Nat) (d : Dev) : Dev :=
  let p := d.pool k
  let low := d.flag (F.BPM_POOL_FREE_low k)
  let asks := fun (g : Nat) => p.cache g != [] && (low || decide (12 < (p.cache g).length))
  Dev.each (granted p.lastPush groups asks) (Dev.cachePush k) d

/-- A handle put back for group `g`: into its cache, or onto the stack when the cache is full. -/
def Dev.giveHandle (g h : Nat) (d : Dev) : Dev :=
  let k := handlePool h
  let p := d.pool k
  let c := p.cache g
  if c.length < 16 then d.setPool k (p.setCache g (handleIndex h :: c))
  else d.setPool k { p with pushed := handleIndex h :: p.pushed, lastPush := g }

/-- A rejected free (R229): nothing of the buffer changes; it is captured, counted and raised. `kind` is 0 for a
double free, 1 for a foreign free. -/
def Dev.badFree (h tag kind : Nat) (host : Bool) (d : Dev) : Dev :=
  (((((d.put F.BPM_BAD_FREE_handle h).put F.BPM_BAD_FREE_kind kind).put F.BPM_BAD_FREE_host (bit host)).put
    F.BPM_BAD_FREE_tag tag).sat F.BPM_BAD_FREE_CNT 1).fault R.BPM_EVENT kind (E.BPM_DOUBLE_FREE + kind) h

/-- The handle leaves quarantine if no allocation has discarded it, and returns to the pool otherwise. -/
def Dev.returnHandle (g h : Nat) (d : Dev) : Dev :=
  if h ∈ d.bpm.quarantined then
    ({ d with bpm := { d.bpm with quarantined := d.bpm.quarantined.erase h } }).syncPool (handlePool h)
  else d.giveHandle g h

/-- The quarantine of a freed buffer ends: its slot of TST_QUAR and the count (R492). -/
def Dev.endQuarantine (h : Nat) (d : Dev) : Dev :=
  let d := d.put F.TST_QUAR_CNT (d.get F.TST_QUAR_CNT - 1)
  Dev.each ((List.range 16).filter (fun n => d.flag (F.TST_QUAR_valid n) && d.get (F.TST_QUAR_handle n) == h))
    (fun n => Dev.setWord (R.TST_QUAR n) 0) d

/-- The free of a handle by an owner, checked in the order of R229. The chained buffer goes with the first; a
chained buffer already free is logged as a double free. -/
def Dev.freeBuffer (h tag : Nat) (host : Bool) (d : Dev) : Dev :=
  let b := d.buf h
  if !b.owned then d.badFree h tag 0 host
  else if b.tag ≠ tag then d.badFree h tag 1 host
  else
    let g := portGroup (tag % 128)
    let release := fun (x : Nat) (e : Dev) =>
      ((e.setBuf x { owned := false, tag := (e.buf x).tag }).returnHandle g x).count (4096 + 4 * handlePool x + 1) 1
    let d1 := (release h d).when (b.tag == 0xFF) (Dev.endQuarantine h)
    match b.chain with
    | none => d1
    | some c => if (d1.buf c).owned then release c d1 else d1.badFree c tag 0 host

/-- The owner tag of a frame's buffers rewritten (R227). -/
def Dev.retag (f : Frame) (tag : Nat) (mcast : Bool) (d : Dev) : Dev :=
  let one := fun (h : Nat) (e : Dev) => e.setBuf h { e.buf h with tag := tag, mcast := mcast }
  let d1 := match f.buf with | some h => one h d | none => d
  match f.chain with | some h => one h d1 | none => d1

/-- The frame's buffers freed by a port and stage, and the frame forgotten. -/
def Dev.freeFrame (i port stage : Nat) (d : Dev) : Dev :=
  let d1 := match (d.frame i).buf with
    | some h => d.freeBuffer h (ownerTag port stage) false
    | none => d
  d1.forget i

/-- The cells a frame's buffers occupy (R235). -/
def Frame.cells (f : Frame) : Nat :=
  (match f.buf with | some h => poolCells (handlePool h) | none => 0) +
  (match f.chain with | some h => poolCells (handlePool h) | none => 0)

/-! ### Capture of frames -/

/-- The candidate a frame or copy gives (R485). -/
def frameCandidate (f : Frame) (outPort queue kind reason cells : Nat) (egress : Stamp) : Candidate :=
  { ingress := f.rx, egress := egress, inPort := f.port, outPort := outPort, queue := queue, kind := kind
    reason := reason, cells := cells, len := f.bytes.length
    ctx := (f.act.bind (·.ctx)), engine := f.engine, cluster := f.cluster, express := f.express
    bytes := f.bytes }

/-! ### Transmit stamps -/

/-- TBS_TXQ_E0 to E3 and TBS_TXQ_COUNT follow the queue (R299): the oldest entry, or zeros. -/
def Dev.syncTxq (d : Dev) : Dev :=
  let d1 := d.put F.TBS_TXQ_COUNT d.tbs.txq.length
  match d.tbs.txq with
  | [] => ((((d1.setWord R.TBS_TXQ_E0 0).setWord R.TBS_TXQ_E1 0).setWord R.TBS_TXQ_E2 0).setWord R.TBS_TXQ_E3 0)
  | e :: _ =>
    let t := e.stamp.t
    let d2 := ((d1.put F.TBS_TXQ_E0_ts_id e.id).put F.TBS_TXQ_E0_frac (fracOf t)).put F.TBS_TXQ_E1_ns (nsOf t)
    let d3 := ((d2.put F.TBS_TXQ_E1_sent (bit e.sent)).put F.TBS_TXQ_E1_time_valid (bit e.stamp.valid)).put
      F.TBS_TXQ_E2 (secOf t)
    (((d3.put F.TBS_TXQ_E3_sec (secOf t / 2 ^ 32)).put F.TBS_TXQ_E3_port e.port).put F.TBS_TXQ_E3_present 1).put
      F.TBS_TXQ_E3_epoch e.stamp.epoch

/-- An entry for the transmit timestamp queue (R299–R301). A full queue or a port at its quota drops it; port 64 has no quota (Table
TBS-4), so its entries, among them that of a frame that yields no copy, count against the queue only. -/
def Dev.pushStamp (e : TxStamp) (d : Dev) : Dev :=
  let quota := e.port != 64
  let used := d.get (F.TBS_TXQ_QUOTA_used e.port)
  let q := min 1024 (d.get (F.TBS_TXQ_QUOTA_quota e.port))
  if 1024 ≤ d.tbs.txq.length ∨ (quota ∧ q ≤ used) then
    if quota then
      ((((d.put (F.TBS_TXQ_DROP_ovf e.port) 1).put (F.TBS_TXQ_DROP_last_id e.port) e.id).sat
        (F.TBS_TXQ_DROP_CNT e.port) 1).fault R.TBS_EVENT 6 E.TBS_TXQ_OVF e.port)
    else d.fault R.TBS_EVENT 6 E.TBS_TXQ_OVF e.port
  else
    let d1 := d.when d.tbs.txq.isEmpty (Dev.event R.TBS_EVENT 5)
    let d2 := d1.when quota (Dev.put (F.TBS_TXQ_QUOTA_used e.port) (used + 1))
    { d2 with tbs := { d2.tbs with txq := d2.tbs.txq ++ [e] } }.syncTxq

/-- A copy asked for a two-step stamp (R297). -/
def Frame.wantsStamp (f : Frame) : Bool := f.tsOp == 1 || f.tsOp == 3

/-- The entry of a copy that never left: sent 0 and a stamp of zero (R301). -/
def Dev.unsentEntry (d : Dev) (f : Frame) (port : Nat) : TxStamp :=
  ⟨f.tsId, port, ⟨0, d.get F.TBS_STATUS_epoch, d.timeReady⟩, false⟩

/-- That entry made, where the frame asked for one. -/
def Dev.unsentStamp (f : Frame) (port : Nat) (d : Dev) : Dev := d.when f.wantsStamp (Dev.pushStamp (d.unsentEntry f port))

/-! ### Drops and copies -/

/-- A frame dropped before enqueue (R228, R475): counted once at its ingress port, one candidate, its buffer
freed by the ingress port, and one stamp entry for a frame of port 64. -/
def Dev.dropFrame (i reason : Nat) (d : Dev) : Dev :=
  let f := d.frame i
  let d1 := (d.countDrop f.port reason).candidate
    (frameCandidate f 0x7F f.cls 1 reason 0 (d.stampAt d.now))
  let d2 := d1.when (f.port == 64) (Dev.unsentStamp f 64)
  d2.freeFrame i f.port 0

/-- The queue's cells changed by a copy (R236). -/
def Dev.addCells (p q : Nat) (n : Int) (d : Dev) : Dev :=
  d.put (F.BPM_QCELLS p q) ((d.get (F.BPM_QCELLS p q) + n).toNat)

/-- The copies of a frame neither created nor consumed, or created and unconsumed. -/
def Frame.open_ (f : Frame) : List CopyRef := f.copies.filter (fun c => !c.consumed)

/-- The first copy of a list that satisfies `q`, changed. -/
def markFirst (q : CopyRef → Bool) (g : CopyRef → CopyRef) : List CopyRef → List CopyRef
  | [] => []
  | c :: l => if q c then g c :: l else c :: markFirst q g l

/-- A frame's open copy for a port: of two for port 64 (R231) the one in its queue, or with `made` false the one still to be created. -/
def Frame.openCopy (f : Frame) (p : Nat) (made : Bool) : Option CopyRef :=
  match f.open_.find? (fun c => c.port == p && c.created == made) with
  | some c => some c
  | none => f.open_.find? (fun c => c.port == p)

/-- That copy marked consumed. -/
def Frame.consume (f : Frame) (p : Nat) (made : Bool) : Frame :=
  match f.openCopy p made with
  | some c => { f with copies := markFirst (fun x => x == c) (fun x => { x with consumed := true }) f.copies }
  | none => f

/-- A copy of a frame is consumed (Table BPM-4): `delivered` where its last byte left, else it cannot deliver; `made` as in
`Frame.openCopy`. A consume mark from a port that holds no unconsumed copy is a foreign free (R234). -/
def Dev.consumeCopy (i p : Nat) (delivered made : Bool) (d : Dev) : Dev :=
  let f := d.frame i
  match f.openCopy p made with
  | none => match f.buf with
    | some h => d.badFree h (ownerTag p 1) 1 false
    | none => d
  | some c =>
    let d0 := d.when c.created (Dev.addCells p c.queue (-(f.cells : Int)))
    let f1 := f.consume p made
    if !f.mcast then (d0.setFrame i f1).freeFrame i p 1
    else if f.lastOwner = p then
      match f1.open_.getLast? with
      | none => (d0.setFrame i f1).freeFrame i p 1
      | some n =>
        if delivered then d0.setFrame i { f1 with freeWaits := true }
        else ((d0.retag f (ownerTag n.port 1) true).setFrame i { f1 with lastOwner := n.port })
    else if f1.freeWaits ∧ f1.open_ = [] then (d0.setFrame i f1).freeFrame i f1.lastOwner 1
    else d0.setFrame i f1

/-- A copy dropped after enqueue, or as it is to be created (`made` false) while another copy stands: counted at its egress port,
captured, its stamp entry made, and consumed as one that cannot deliver (R233, R301, R475). -/
def Dev.dropCopy (i p q reason cells : Nat) (made : Bool) (d : Dev) : Dev :=
  let f := d.frame i
  (((d.countDrop p reason).candidate (frameCandidate f p q 1 reason cells (d.stampAt d.now))).unsentStamp f
    p).consumeCopy i p false made

end Sys2Proof.Machine
end

