-- ==== Sys2Proof/Machine/Queues.lean ====
section
/-! DEFINITION. Egress queues: their contents and reports, discards, gates, the transmission guard, launch and
late copies, eligibility and the scheduler (R241–R258). -/

namespace Sys2Proof.Machine

/-- The key of a queue. -/
def queueKey (p q : Nat) : Nat := 8 * p + q

/-- The copies of a queue, head first (R241). -/
def Dev.queue (d : Dev) (p q : Nat) : List Copy := Sparse.getD d.qsc.queues (queueKey p q) []

/-- A queue replaced, QSC_QFRAMES_p_q following. -/
def Dev.setQueue (p q : Nat) (l : List Copy) (d : Dev) : Dev :=
  let m := if l = [] then Sparse.del d.qsc.queues (queueKey p q) else Sparse.put d.qsc.queues (queueKey p q) l
  { d with qsc := { d.qsc with queues := m } }.put (F.QSC_QFRAMES p q) l.length

abbrev Lane.l0 : Nat := 0
abbrev Lane.l1 : Nat := 1
abbrev Lane.l2 : Nat := 2

/-- The counters of a lane (Table CNT-1). -/
abbrev laneCtr (l o : Nat) : Nat := 4320 + 4 * l + o

/-- A lane takes a power state (Table HSL-4); the two reduced states are counted (Table CNT-1). -/
def Dev.setLaneState (l s : Nat) (d : Dev) : Dev :=
  let old := d.get (F.HSL_STATUS_pwr_state l)
  if old = s then d
  else
    let d1 := d.when (old != 0) (Dev.leaveState (laneCtr l (old - 1)))
    (d1.put (F.HSL_STATUS_pwr_state l) s).when (s != 0) (Dev.enterState (laneCtr l (s - 1)))

/-- The lanes of a port leave L1 (R133): for a frame enqueued, a launch time, a gate opening or a report. -/
def Dev.leaveL1 (p : Nat) (d : Dev) : Dev :=
  if 64 ≤ p then d
  else Dev.each (d.portLanes p) (fun l e => if e.get (F.HSL_STATUS_pwr_state l) = Lane.l1 then e.setLaneState l Lane.l0 else e) d

/-- A copy at the tail of its queue; its port's lanes leave L1 (R133). -/
def Dev.enqueue (p q : Nat) (c : Copy) (d : Dev) : Dev := (d.setQueue p q (d.queue p q ++ [c])).leaveL1 p

/-- The copy in transmission on a port. -/
def Dev.sendingOn (d : Dev) (p : Nat) : Option Sending := Sparse.get? d.qsc.sending p

/-- The copy in transmission on a port set or ended. -/
def Dev.setSending (p : Nat) (x : Option Sending) (d : Dev) : Dev :=
  let m := match x with | some t => Sparse.put d.qsc.sending p t | none => Sparse.del d.qsc.sending p
  { d with qsc := { d.qsc with sending := m } }

/-- The preempted frame of a port set or ended (R252). -/
def Dev.setSuspended (p : Nat) (x : Option Sending) (d : Dev) : Dev :=
  let m := match x with | some t => Sparse.put d.qsc.suspended p t | none => Sparse.del d.qsc.suspended p
  { d with qsc := { d.qsc with suspended := m } }

/-- One copy dropped from a queue under a reason: a placeholder is counted and captured, a frame's copy also
passes its ownership (R233, R263). -/
def Dev.discard (p q reason : Nat) (c : Copy) (d : Dev) : Dev :=
  match c.holder with
  | some bs =>
    (d.countDrop p reason).candidate
      { ingress := {}, egress := d.stampAt d.now, inPort := 0x7F, outPort := p, queue := q, kind := 1
        reason := reason, cells := 0, len := bs.length, ctx := some c.flow, engine := 0, cluster := 0
        express := false, bytes := bs }
  | none => d.dropCopy c.frame p q reason c.cells true

/-- Every copy of a queue that is not in transmission discarded (R244). -/
def Dev.flushQueue (p q reason : Nat) (d : Dev) : Dev :=
  let l := d.queue p q
  Dev.each l (Dev.discard p q reason) (d.setQueue p q [])

/-- Every copy in a port's queues discarded (R244). -/
def Dev.flushPort (p reason : Nat) (d : Dev) : Dev :=
  Dev.each (List.range 8) (fun q => Dev.flushQueue p q reason) d

/-- The queued copies of a frame, not in transmission, dropped (R255). -/
def Dev.dropQueued (i reason : Nat) (d : Dev) : Dev :=
  Dev.each (d.frame i).copies (fun c e =>
    let l := e.queue c.port c.queue
    let mine := l.filter (fun x => x.holder.isNone && x.frame == i)
    Dev.each mine (Dev.discard c.port c.queue reason)
      (e.setQueue c.port c.queue (l.filter (fun x => !(x.holder.isNone && x.frame == i))))) d

/-! ### Belay-controlled ports -/

abbrev Role.off : Nat := 0
abbrev Role.standby : Nat := 1
abbrev Role.guard : Nat := 2
abbrev Role.active : Nat := 3

/-- A port is belay-controlled (R407): its bit of RDN_PORTS_0 to RDN_PORTS_2. -/
def Dev.belayPort (d : Dev) (p : Nat) : Bool :=
  if p < 32 then d.bitAt R.RDN_PORTS_0 p else if p < 64 then d.bitAt R.RDN_PORTS_1 (p - 32)
  else decide (p ≠ 64) && d.bitAt R.RDN_PORTS_2 (p - 64)

/-- A belay-controlled port drops everything: the role is STANDBY or GUARD (Table RDN-1). -/
def Dev.standsBy (d : Dev) (p : Nat) : Bool :=
  d.belayPort p && (d.get F.RDN_STATUS_role == Role.standby || d.get F.RDN_STATUS_role == Role.guard)

/-! ### Lengths and times -/

/-- The length of a copy as the scheduler reckons it: its frame's length, the length taken at allocation, or the largest frame of
its ingress port (R218, R243, R249). -/
def Dev.copyLen (d : Dev) (c : Copy) : Nat :=
  match c.holder with
  | some bs => bs.length
  | none =>
    let f := d.frame c.frame
    if f.complete then f.bytes.length else f.lenTaken.getD (d.maxFrame f.port)

/-- The rate of a rope lane in kb/s (Table RLK-1). -/
def ropeRate (r : Nat) : Nat := 1228800 * 2 ^ r

/-- The time a copy of `n` bytes needs on a port, in units of 1/65,536 ns, rounded up (R249): with 20 B of gap and
preamble on an Ethernet port, n + 2 payload slots on a tunnel port. -/
def Dev.sendTime (d : Dev) (p n : Nat) : Nat :=
  if p < 64 then ((n + 20) * 8 * 1000 * 65536 + d.speed p - 1) / max 1 (d.speed p)
  else
    -- slots of the payload: N − 7 of the N code groups of a rope frame of 6,250/3 µs
    let r := d.get (F.RLK_STATUS_rate (p - 65))
    let slots := 256 * 2 ^ r - 7
    ((n + 2) * 6250 * 65536 + 3 * slots - 1) / (3 * slots)

/-- The limit of Table QSC-3 for a port in units of 1/65,536 ns: how far a first bit may lie from its launch
time. -/
def Dev.launchLimit (d : Dev) (p : Nat) : Nat :=
  if p < 64 then nthD [6410, 2570, 1290, 650, 330, 170] (d.get (F.MAC_CFG_speed p)) 0 * 65536 / 1000
  else 8 * 10 * 1000000 * 65536 / ropeRate (d.get (F.RLK_STATUS_rate (p - 65)))

/-! ### Gates -/

/-- The entry `e` of bank `b` of port `p` in the gate memory (Table QSC-1). -/
def gateAddr (p b e : Nat) : Nat := gateBase + 0x1000 * p + 0x800 * b + 8 * e

/-- The gate states of an entry. -/
def Dev.gateStates (d : Dev) (p b e : Nat) : Nat :=
  if d.poisoned (gateAddr p b e) then Config.spoiledGates p b e % 256 else field (d.dword (gateAddr p b e)) 0 8

/-- The operation of an entry; 3 acts as 0. -/
def Dev.gateOp (d : Dev) (p b e : Nat) : Nat := field (d.dword (gateAddr p b e)) 8 2 % 3

/-- The duration of an entry in ns, at least 2 (R245). -/
def Dev.gateInterval (d : Dev) (p b e : Nat) : Nat := max 2 (d.dword (gateAddr p b e + 4))

/-- The gates of a port: all open without an operational list, while it waits for its cycle start after a warm reset, and while the
time base is not ready (R28, R247, R266). -/
def Dev.gateMask (d : Dev) (p : Nat) : Nat :=
  if d.timeReady ∧ ((Sparse.get? d.qsc.oper p).filter (fun g => !g.held)).isSome then Sparse.getD d.qsc.gates p 0xFF else 0xFF

/-- The entries of a list with the offset from the cycle start at which each begins, those at or after the cycle
end left out (R246). -/
def Dev.gclPlan (d : Dev) (p : Nat) (g : Gcl) : List (Nat × Nat) :=
  let step := fun (acc : List (Nat × Nat) × Nat) (e : Nat) =>
    (if acc.2 < g.cycle then acc.1 ++ [(e, acc.2)] else acc.1, acc.2 + d.gateInterval p g.bank e)
  ((List.range g.len).foldl step ([], 0)).1

/-- The nanoseconds into the cycle at which the time base stands; base and cycle count in whole nanoseconds. -/
def Gcl.phase (g : Gcl) (now : Nat) : Nat := ((now : Int) - g.base) % (g.cycle : Int) |>.toNat

/-- The nanoseconds until a queue's gate next closes, counted from a phase on and across the cycle end; `none` for a gate
that no entry closes. -/
def Dev.openFor (d : Dev) (p q : Nat) (g : Gcl) (ph : Nat) : Option Nat :=
  let closes := ((d.gclPlan p g).filter (fun x => !hasBit (d.gateStates p g.bank x.1) q)).map (·.2)
  (closes.map (fun c => if ph ≤ c then c - ph else c + g.cycle - ph)).min?

/-- Some open window of a queue in a list holds `t` of 1/65,536 ns (R249). -/
def Dev.someWindow (d : Dev) (p q t : Nat) (g : Gcl) : Bool :=
  let opens := ((d.gclPlan p g).filter (fun x => hasBit (d.gateStates p g.bank x.1) q)).map (·.2)
  opens.any (fun ph => match d.openFor p q g ph with | some n => decide (t ≤ n * 65536) | none => true)

/-- The queue is preemptable and preemption is active on its port (R250, R251): no express class of the port ever is. -/
def Dev.preemptable (d : Dev) (p q : Nat) : Bool :=
  p < 64 && d.flag (F.QSC_PREEMPT_active p) && hasBit (d.get (F.QSC_PREEMPT_preemptable p)) q &&
    !hasBit (d.get (F.QSC_FWD_MODE_express p)) q

/-- The queue is express in the sense of IEEE 802.1Qbu: its frames use the express MAC (R250–R252). -/
def Dev.expressQueue (d : Dev) (p q : Nat) : Bool := p < 64 && !d.preemptable p q

/-- The length the guard reckons with: the minimum fragment where preemption applies, else the copy (R249). -/
def Dev.guardLen (d : Dev) (p q : Nat) (c : Copy) : Nat :=
  if d.preemptable p q then 64 * (1 + d.get (F.QSC_PREEMPT_add_frag p)) else d.copyLen c

/-- The operational list applies to the port: the time base is ready, and after a warm reset its next cycle start has come (R28,
R266). -/
def Dev.gcl? (d : Dev) (p : Nat) : Option Gcl :=
  if d.timeReady then (Sparse.get? d.qsc.oper p).filter (fun g => !g.held) else none

/-- The nanoseconds until a queue's gate next closes, counted from the whole nanosecond of the time base: by the operational list
until the pending one takes over at its due, by that one from then on (R247, R249). -/
def Dev.closesIn (d : Dev) (p q : Nat) : Option Nat :=
  let now := d.nowNs
  let running := (d.gcl? p).bind (fun g => d.openFor p q g (g.phase now))
  match if d.timeReady then Sparse.get? d.qsc.pend p else none with
  | none => running
  | some g =>
    let wait := g.due - now
    let pending := (d.openFor p q g (if g.due ≤ now then g.phase now else 0)).map (· + wait)
    match running with
    | some n => if n < wait then some n else pending
    | none => pending

/-- `t` of 1/65,536 ns from now on lie before a queue's gate next closes. -/
def Dev.beforeClose (d : Dev) (p q t : Nat) : Bool :=
  match d.closesIn p q with
  | some n => decide (d.now % 65536 + t ≤ n * 65536)
  | none => true

/-- The copy can end before its queue's gate next closes (R249). -/
def Dev.guardOk (d : Dev) (p q : Nat) (c : Copy) : Bool := d.beforeClose p q (d.sendTime p (d.guardLen p q c))

/-- The copy fits no open window of its queue (R249). -/
def Dev.fitsNever (d : Dev) (p q : Nat) (c : Copy) : Bool :=
  match d.gcl? p with
  | none => false
  | some g => !d.someWindow p q (d.sendTime p (d.guardLen p q c)) g

/-- An entry opens a gate that stood closed before it. -/
def opensGate (before after : Nat) : Bool := (List.range 8).any (fun q => hasBit after q && !hasBit before q)

/-- A gate of a port opens within 280 ns and one edge of the time clock, by its operational list or by the pending one that takes
over at its due (R133, R247). -/
def Dev.opensSoon (d : Dev) (p : Nat) : Bool :=
  let now := d.nowNs
  let running := match d.gcl? p with
    | none => false
    | some g =>
      let ph := g.phase now
      let l := (d.gclPlan p g).map (fun x => (d.gateStates p g.bank x.1, x.2))
      let before := (l.getLast?.map (·.1)).getD 0xFF :: l.map (·.1)
      (l.zip before).any (fun x =>
        opensGate x.2 x.1.1 && decide ((if ph ≤ x.1.2 then x.1.2 - ph else x.1.2 + g.cycle - ph) ≤ 282))
  let pending := match Sparse.get? d.qsc.pend p with
    | none => false
    | some g => d.timeReady && decide (g.due ≤ now + 282) && opensGate (d.gateMask p) (d.gateStates p g.bank 0)
  running || pending

/-! ### Launch -/

/-- The launch time of a copy where the port honours it (R244, R256). -/
def Copy.launchOn (c : Copy) (p : Nat) : Option Nat := if p = 64 then none else c.launch

/-- A copy is late at an instant: its launch time lies further back than the limit of Table QSC-3, or the time
base is not ready (R28, R258). A copy whose launch time was counted from a stamp that R28 marks invalid is measured by that time once
the time base is ready: DESIGN CHOICE (log entry 88), since R28 speaks of the time base alone. -/
def Dev.isLate (d : Dev) (p : Nat) (c : Copy) : Bool :=
  match c.launchOn p with
  | none => false
  | some t => !d.timeReady || t + d.launchLimit p < d.now

/-- A late copy counted, with its event (R258). -/
def Dev.countLate (p : Nat) (d : Dev) : Dev := (d.count (portCtr p 10) 1).fault (R.QSC_EVENT p) 0 E.QSC_LATE p

/-- The head of a queue, late, meets the queue's policy: dropped with reason 0x30, or kept as a copy without a
launch time (R258). -/
def Dev.lateHead (p q : Nat) (d : Dev) : Dev :=
  match d.queue p q with
  | [] => d
  | c :: rest =>
    let e := d.countLate p
    if hasBit (d.get (F.QSC_LAUNCH_late_send p)) q then e.setQueue p q ({ c with launch := none, late := true } :: rest)
    else (e.setQueue p q rest).discard p q 0x30 c

/-- The late heads of every queue of a port meet their policy (R258). -/
def Dev.lateHeads (p : Nat) (d : Dev) : Dev :=
  Dev.each (List.range 8) (fun q e =>
    match e.queue p q with
    | c :: _ => if e.isLate p c then e.lateHead p q else e
    | [] => e) d

/-- Heads that fit no open window are dropped with reason 0x32 (R249). -/
def Dev.oversizeHeads (p : Nat) (d : Dev) : Dev :=
  Dev.each (List.range 8) (fun q e =>
    match e.queue p q with
    | c :: rest =>
      if e.fitsNever p q c then ((e.setQueue p q rest).event (R.QSC_EVENT p) 6).discard p q 0x32 c else e
    | [] => e) d

/-- No timed head of another queue of the port would be delayed by a copy that starts now (R257). -/
def Dev.sparesTimed (d : Dev) (p q : Nat) (c : Copy) : Bool :=
  (List.range 8).all (fun r =>
    r == q ||
    match d.queue p r with
    | x :: _ => (match x.launchOn p with
        | some t => d.now + d.sendTime p (d.copyLen c) ≤ t
        | none => true)
    | [] => true)

/-- A store-and-forward copy waits for its whole frame; a cut-through copy does not (R254). -/
def Dev.arrived (d : Dev) (c : Copy) : Bool :=
  c.holder.isSome || c.ct || ((d.frame c.frame).complete && (d.frame c.frame).bad == 0)

/-! ### The scheduler -/

/-- The number of descriptors of a ring (Table HIF-6: log2 clamped to 6–16). -/
def ringLen (log2 : Nat) : Nat := 2 ^ (max 6 (min 16 log2))

/-- `k` more descriptors of a ring of port 64 are complete: transmit ring `n` under key `n`, receive ring `n` under key
`8 + n` (Table HIF-4). -/
def Dev.completed (key k : Nat) (d : Dev) : Dev :=
  { d with host := { d.host with done := Sparse.put d.host.done key (Sparse.getD d.host.done key 0 + k) } }

/-- The host advances a tail over `k` descriptors: as many completed ones are its own again. -/
def Dev.takeBack (key k : Nat) (d : Dev) : Dev :=
  let left := Sparse.getD d.host.done key 0 - k
  { d with host := { d.host with done :=
      if left = 0 then Sparse.del d.host.done key else Sparse.put d.host.done key left } }

/-- Receive ring `q` of port 64 runs and holds a descriptor for a frame (R114). -/
def Dev.ringFree (d : Dev) (q : Nat) : Bool :=
  let n := ringLen (d.get (F.HIF_RXR_SIZE_log2 q))
  d.flag (F.HIF_RXR_SIZE_enable q) && d.get (F.HIF_RXR_HEAD q) % n != d.get (F.HIF_RXR_TAIL q) % n

/-- A queue is eligible (R242): it holds a copy that has arrived, its gate is open, the guard passes, its MAC is
not held, and its head copy carries no launch time. A queue of port 64 waits for a descriptor of its receive ring. -/
def Dev.eligible (d : Dev) (p q : Nat) : Bool :=
  match d.queue p q with
  | [] => false
  | c :: _ =>
    d.arrived c && (p != 64 || d.ringFree q) && hasBit (d.gateMask p) q && d.guardOk p q c && (c.launchOn p).isNone && d.sparesTimed p q c &&
    !(d.preemptable p q && (d.qsc.heldMac.contains p || (Sparse.get? d.qsc.suspended p).isSome))

/-- The highest-numbered eligible strict queue (R242). -/
def Dev.pickStrict (d : Dev) (p : Nat) : Option Nat :=
  ((List.range 8).reverse).find? (fun q => hasBit (d.get (F.QSC_SCHED_strict p)) q && d.eligible p q)

/-- The deficit of a queue in bytes; below 0 where more was sent than its turns gave. -/
def Dev.deficit (d : Dev) (p q : Nat) : Int := Sparse.getD d.qsc.deficit (queueKey p q) 0

/-- The deficit of a queue set. -/
def Dev.setDeficit (p q : Nat) (n : Int) (d : Dev) : Dev :=
  { d with qsc := { d.qsc with deficit := Sparse.put d.qsc.deficit (queueKey p q) n } }

/-- The quantum of a queue, at least 64 bytes (Table QSC-9). -/
def Dev.quantum (d : Dev) (p q : Nat) : Nat := max 64 (d.get (F.QSC_DWRR_quantum p q))

/-- DWRR (R243): the queue whose turn runs goes on while it is eligible and its deficit covers its head; else the
turn ends and the following queues take their turns in ascending number. The turn is kept as 8 + the queue while
it runs, the queue alone when it has ended. `none` when no queue is eligible within the fuel. -/
def Dev.pickDwrr (p : Nat) : Nat → Dev → Option Nat × Dev
  | 0, d => (none, d)
  | fuel + 1, d =>
    let t := Sparse.getD d.qsc.turn p 7
    let setTurn := fun (n : Nat) (e : Dev) => { e with qsc := { e.qsc with turn := Sparse.put e.qsc.turn p n } }
    let headLen := fun (e : Dev) (q : Nat) => match e.queue p q with | c :: _ => e.copyLen c | [] => 0
    if 8 ≤ t then
      let q := t - 8
      if d.eligible p q ∧ !hasBit (d.get (F.QSC_SCHED_strict p)) q ∧ (headLen d q : Int) ≤ d.deficit p q then (some q, d)
      else Dev.pickDwrr p fuel (setTurn q d)
    else
      let q := (t + 1) % 8
      if hasBit (d.get (F.QSC_SCHED_strict p)) q then Dev.pickDwrr p fuel (setTurn q d)
      else if d.queue p q = [] then Dev.pickDwrr p fuel ((setTurn q d).setDeficit p q 0)
      else if !d.eligible p q then Dev.pickDwrr p fuel (setTurn q d)
      else Dev.pickDwrr p fuel ((setTurn (8 + q) d).setDeficit p q (d.deficit p q + d.quantum p q))

/-- Some queue without a strict bit is eligible. -/
def Dev.anyDwrr (d : Dev) (p : Nat) : Bool :=
  (List.range 8).any (fun q => !hasBit (d.get (F.QSC_SCHED_strict p)) q && d.eligible p q)

/-- The steps that DWRR can need until some queue's deficit covers its head: each round over the eight queues gives every eligible
one its quantum. -/
def Dev.dwrrFuel (d : Dev) (p : Nat) : Nat :=
  let rounds := fun (q : Nat) => match d.queue p q with
    | c :: _ => if d.eligible p q then ((d.copyLen c : Int) - d.deficit p q).toNat / d.quantum p q + 2 else 0
    | [] => 0
  18 * ((List.range 8).map rounds).foldl max 2

/-- The turn that runs on a port ends where its queue fails `holds` (R243). -/
def Dev.endTurn (p : Nat) (holds : Nat → Bool) (d : Dev) : Dev :=
  let t := Sparse.getD d.qsc.turn p 7
  if 8 ≤ t ∧ !holds (t - 8) then { d with qsc := { d.qsc with turn := Sparse.put d.qsc.turn p (t - 8) } } else d

/-- The turn of a queue that has become empty, or whose gate has closed, ends (R243). -/
def Dev.turnSync (p : Nat) (d : Dev) : Dev :=
  d.endTurn p (fun q => d.queue p q != [] && hasBit (d.gateMask p) q)

/-- The scheduler's choice at a frame boundary (R242, R243); a turn whose queue is no longer eligible has ended. -/
def Dev.schedule (p : Nat) (d₀ : Dev) : Option Nat × Dev :=
  let d := d₀.endTurn p (fun q => d₀.eligible p q)
  match d.pickStrict p with
  | some q => (some q, d)
  | none => if d.anyDwrr p then Dev.pickDwrr p (d.dwrrFuel p) d else (none, d)

end Sys2Proof.Machine
end

