-- ==== Sys2Proof/Machine/Macsec.lean ====
section
/-! DEFINITION. MACsec (R451–R455) and PTP authentication (R448–R450): channels and associations, the checks of a
received frame, the protection of a sent one, the verification of an AUTHENTICATION TLV. -/

namespace Sys2Proof.Machine

abbrev chanBase : Nat := 0x03100000
abbrev saBase : Nat := 0x03200000
abbrev ptpKeyBase : Nat := 0x03001000

/-- The secure channel entry of channel `i`, its dwords 0–7 (Table MSC-1). -/
def Dev.chanWord (d : Dev) (i k : Nat) : Nat := d.dword (chanBase + 32 * i + 4 * k)

/-- The association entry `j`, its dwords 0–15 (Table MSC-2). -/
def Dev.saWord (d : Dev) (j k : Nat) : Nat := d.dword (saBase + 64 * j + 4 * k)

/-- The PN field of an association, 64 bits. -/
def Dev.saPn (d : Dev) (j : Nat) : Nat := d.saWord j 1 + 2 ^ 32 * d.saWord j 2

/-- The PN field of an association set by the device. -/
def Dev.setSaPn (j v : Nat) (d : Dev) : Dev := d.store (saBase + 64 * j + 4) (leBytes 8 v)

/-- Channel `i` is valid for a port and a direction. -/
def Dev.chanFor (d : Dev) (i p dir : Nat) : Bool :=
  let w := d.chanWord i 2
  field w 31 1 == 1 && field w 0 6 == p && field w 8 1 == dir && !d.poisoned (chanBase + 32 * i)

/-- The association of an AN of a channel, if it is present and valid (R455). -/
def Dev.saOf (d : Dev) (i an : Nat) : Option Nat :=
  let w := d.chanWord i (4 + an)
  let j := field w 0 13
  if field w 15 1 = 1 ∧ j < 8192 ∧ field (d.saWord j 0) 31 1 = 1 ∧ !d.poisoned (saBase + 64 * j) then some j else none

/-- What an association gives the cipher for a packet number; keys and salts are strings in ascending order of address. The AN is that
under which the channel names it. -/
def Dev.saUse (d : Dev) (p i j pn : Nat) : SaUse :=
  { key := d.bytes (saBase + 64 * j + 32) 32, pn := pn
    an := ((List.range 4).find? (fun k => field (d.chanWord i (4 + k)) 0 13 == j && field (d.chanWord i (4 + k)) 15 1 == 1)).getD 0
    sci := d.chanWord i 0 + 2 ^ 32 * d.chanWord i 1, ssci := d.saWord j 3
    salt := d.bytes (saBase + 64 * j + 16) 12, xpn := field (d.saWord j 0) 16 1 == 1
    offset := nthD [0, 30, 50, 0] (d.get (F.MSC_PORT_CFG_offset p)) 0, conf := d.flag (F.MSC_PORT_CFG_conf p) }

/-- The MACsec mode of a port: 0 off, 1 protect and validate, 2 protected frames only; 3 acts as 2 (R454). Only ports
0–63 have MACsec (R451), and only while the MSC block is present. -/
def Dev.mscMode (d : Dev) (p : Nat) : Nat :=
  if p < 64 ∧ d.blockPresent 23 then min 2 (d.get (F.MSC_PORT_CFG_mode p)) else 0

/-- A MACsec event with its association (Table MSC-3). -/
def Dev.mscEvent (i : Nat) (j : Nat) (d : Dev) : Dev := (d.event R.MSC_EVENT i).put F.MSC_LAST_SA j

/-- The destination address of PHX reports (R312). -/
abbrev phxDa : Nat := 0x0180C200000E

/-- RDN_ANN_DA as 48 bits: bytes 0–3 in HI, 4–5 in LO (R6). -/
def Dev.annDa (d : Dev) : Nat := d.get F.RDN_ANN_DA_HI * 2 ^ 16 + d.get F.RDN_ANN_DA_LO

/-- The frame is a PHX report or a belay announce: EtherType 0x88B5 and the address of one (R312, R419). -/
def Dev.ownType (d : Dev) (bs : List Byte) : Bool :=
  octets bs 12 2 == 0x88B5 && (octets bs 0 6 == phxDa || (d.blockPresent 21 && octets bs 0 6 == d.annDa))

/-- The frame is one that passes unprotected: EAPOL, or a PHX report or belay announce while exempt is 1 (R454). -/
def Dev.mscExempt (d : Dev) (p : Nat) (bs : List Byte) : Bool :=
  octets bs 12 2 == 0x888E || (d.flag (F.MSC_PORT_CFG_exempt p) && d.ownType bs)

/-- What the ingress side makes of a frame's MACsec tag: nothing to do, drop with a reason, or validate with channel,
association and PN. -/
inductive RxTag where
  | plain
  | drop
  | noSa (sa : Option Nat)
  | replay (sa : Nat)
  | secure (chan sa pn : Nat)
  deriving DecidableEq, Repr

/-- The drop reason of a tag the port refuses (R454, R455). -/
def RxTag.reason : RxTag → Nat
  | .noSa _ => 0x3C
  | _ => 0x35

/-- A frame met no valid association (R455, Table MSC-3): MSC_LAST_SA takes the one its channel names, where there is a channel. -/
def Dev.noSa (p : Nat) (sa : Option Nat) (d : Dev) : Dev :=
  match sa with
  | some j => (d.mscEvent 2 j).raise E.MSC_NO_SA j
  | none => (d.event R.MSC_EVENT 2).raise E.MSC_NO_SA p

/-- The event of a tag the port refuses (R455). -/
def Dev.tagEvent (p : Nat) (tag : RxTag) (d : Dev) : Dev :=
  match tag with
  | .noSa sa => d.noSa p sa
  | .replay j => (d.mscEvent 3 j).raise E.MSC_REPLAY j
  | _ => d

/-- The full PN of a received frame from the 32 bits it carries and the lowest acceptable PN (XPN recovery of
IEEE 802.1AE). -/
def recoverPn (xpn : Bool) (lowest low : Nat) : Nat :=
  if !xpn then low
  else
    let hi := lowest / 2 ^ 32
    let l := lowest % 2 ^ 32
    if low < l ∧ 2 ^ 31 ≤ l ∧ low < 2 ^ 31 then (hi + 1) * 2 ^ 32 + low else hi * 2 ^ 32 + low

/-- The SCI of a received SecTAG (IEEE 802.1AE, R451): the one it carries, or with ES set the one its source address implies, port
identifier 1, or 0 with SCB; with neither the link is point to point and its one channel is meant. -/
def rxSci (bs : List Byte) : Option Nat :=
  let tci := octet bs 14
  if tci / 32 % 2 = 1 then some (octets bs 20 8)
  else if tci / 64 % 2 = 1 then some (octets bs 6 6 * 2 ^ 16 + (if tci / 16 % 2 = 1 then 0 else 1))
  else none

/-- The channel, association and PN of a received frame's SecTAG, or the drop it meets (R454, R455): the channel whose SCI is that of
the frame. -/
def Dev.rxTag (d : Dev) (p : Nat) (bs : List Byte) : RxTag :=
  if d.mscMode p = 0 then .plain
  else if d.mscMode p = 2 ∧ !d.flag F.TOP_READY_msc then .drop
  else if d.mscExempt p bs then .plain
  else if octets bs 12 2 ≠ 0x88E5 then (if d.mscMode p = 2 then .drop else .plain)
  else
    let tci := octet bs 14
    let sci := rxSci bs
    match (List.range 4096).find? (fun i => d.chanFor i p 1 &&
        (match sci with | some x => d.chanWord i 0 + 2 ^ 32 * d.chanWord i 1 == x | none => true)) with
    | none => .noSa none
    | some i =>
      match d.saOf i (tci % 4) with
      | none => .noSa (some (field (d.chanWord i (4 + tci % 4)) 0 13))
      | some j =>
        let lowest := d.saPn j
        let pn := recoverPn (field (d.saWord j 0) 16 1 == 1) lowest (octets bs 16 4)
        if field (d.chanWord i 2) 14 1 = 1 ∧ pn < lowest then .replay j else .secure i j pn

/-- A whole received frame fails validation: its ICV is wrong, and its channel is strict or the frame is encrypted; a
channel with validate 0 checks nothing (R452, R455). -/
def Dev.rxFails (d : Dev) (p i j pn : Nat) (bs : List Byte) : Bool :=
  let v := field (d.chanWord i 2) 12 2
  v != 0 && !macsecValid (d.saUse p i j pn) (bs.take (bs.length - 4)) && (2 ≤ v || octet bs 14 / 8 % 2 == 1)

/-- A validated frame raises the lowest acceptable PN to the replay window's foot and counts in its channel. -/
def Dev.rxAccept (i j pn : Nat) (d : Dev) : Dev :=
  let foot := pn + 1 - d.chanWord i 3
  (d.setSaPn j (max (d.saPn j) foot)).count (4640 + i) 1

/-- What the egress side makes of a frame (R454, R455): sent as it is, dropped with a reason, or protected. -/
inductive TxTag where
  | plain
  | drop (reason : Nat) (sa : Option Nat)
  | secure (chan sa pn : Nat)
  deriving DecidableEq, Repr

/-- The last PN of an association: 2^32 − 1, or 2^64 − 1 for XPN (R455). -/
def Dev.lastPn (d : Dev) (j : Nat) : Nat := if field (d.saWord j 0) 16 1 = 1 then 2 ^ 64 - 1 else 2 ^ 32 - 1

/-- The association whose last PN has been sent has stopped: its next_pn stands at 0, which no host writes to a live
association. -/
def Dev.txTag (d : Dev) (p : Nat) (bs : List Byte) : TxTag :=
  if d.mscMode p = 0 then .plain
  else if d.mscMode p = 2 ∧ !d.flag F.TOP_READY_msc then .drop 0x35 none
  else if d.mscExempt p bs ∨ !d.flag F.TOP_READY_msc then .plain
  else
    let i := d.get (F.MSC_PORT_CFG_tx_sc p)
    if !d.chanFor i p 0 then .drop 0x3C none
    else match d.saOf i (d.get (F.MSC_PORT_AN_tx_an p)) with
      | none => .drop 0x3C (some (field (d.chanWord i (4 + d.get (F.MSC_PORT_AN_tx_an p))) 0 13))
      | some j => if d.saPn j = 0 then .drop 0x3D (some j) else .secure i j (d.saPn j)

/-- A frame protected with a PN: the channel's counter, next_pn, and the events of R455. After its last PN an
association stops, with next_pn at 0. -/
def Dev.txProtect (i j pn : Nat) (d : Dev) : Dev :=
  let last := d.lastPn j
  let d1 := (d.setSaPn j (if pn = last then 0 else pn + 1)).count (4640 + i) 1
  let th := d1.pair R.MSC_PN_TH_LO R.MSC_PN_TH_HI
  let d2 := d1.when (decide (pn ≤ th ∧ th < pn + 1)) (Dev.mscEvent 0 j)
  d2.when (pn == last) (fun e => (e.mscEvent 1 j).raise E.MSC_PN_EXHAUSTED j)

/-! ### PTP authentication -/

/-- The result of a verification: 0 not checked, 1 passed, 2 failed, 3 forwarded unverified (R298, R448). -/
abbrev Auth.none : Nat := 0
abbrev Auth.passed : Nat := 1
abbrev Auth.failed : Nat := 2
abbrev Auth.unverified : Nat := 3

/-- The key of an SPP and a keyID in the PTP key table (R449). -/
def Dev.ptpKey (d : Dev) (spp keyId : Nat) : Option (List Byte) :=
  ((List.range 16).find? (fun k =>
    let a := ptpKeyBase + 64 * k
    field (d.dword (a + 4)) 31 1 == 1 && field (d.dword (a + 4)) 0 8 == spp && d.dword a == keyId &&
      !d.poisoned a)).map
    (fun k => d.bytes (ptpKeyBase + 64 * k + 32) 32)

/-- Verification of the AUTHENTICATION TLV at `t` of the PTP message at `o` (R448): SPP in its fifth byte, the
security parameters after it, the keyID, and a 16-byte ICV at the TLV's end, over the message up to the ICV. A TLV that
requests delayed processing carries a disclosed key or a sequence number, so its length differs from 22. -/
def Dev.verifyTlv (d : Dev) (bs : List Byte) (o t : Nat) : Nat :=
  let len := octets bs (t + 2) 2
  let indicator := octet bs (t + 5)
  match d.ptpKey (octet bs (t + 4)) (octets bs (t + 6) 4) with
  | none => Auth.failed
  | some k =>
    let icv := t + 4 + len - 16
    if len < 22 ∨ indicator % 4 ≠ 0 then Auth.failed
    else if (hmacSha256 k (slice bs o (icv - o))).take 16 == slice bs icv 16 then Auth.passed
    else Auth.failed

end Sys2Proof.Machine
end

