-- ==== Sys2Proof/Machine/Engines.lean ====
section
/-! DEFINITION. The marten engines: buckets and their owners, dispatch, the lookup and its action, eCPRI contexts,
stealing, recall and retirement (R180–R213). -/

namespace Sys2Proof.Machine

/-! ### Engines and buckets -/

/-- The key of engine `e` of cluster `k`. -/
def engineKey (k e : Nat) : Nat := 12 * k + e

/-- The express engine of a cluster. -/
def Dev.expressEngine (d : Dev) (k : Nat) : Nat := d.get (F.FWD_CL_CFG_express k)

/-- Engine `e` of cluster `k` is retired. -/
def Dev.retired (d : Dev) (k e : Nat) : Bool := hasBit (d.get (F.FWD_ENG_STATUS_retired k)) e

/-- Engine `e` of cluster `k` retires: its bit is set and it is not yet retired (R205). -/
def Dev.retiringEng (d : Dev) (k e : Nat) : Bool := d.fwd.retiring.contains (engineKey k e)

/-- The engine is in service: neither the express engine nor retired (R181), nor retiring. DESIGN CHOICE (log entry 98): R206 has an
engine return to service when its retirement is called off, so a retiring engine is out of service from the write on. -/
def Dev.inService (d : Dev) (k e : Nat) : Bool := e != d.expressEngine k && !d.retired k e && !d.retiringEng k e

/-- The engines in service of a cluster, ascending. -/
def Dev.servants (d : Dev) (k : Nat) : List Nat := (List.range 12).filter (fun e => d.inService k e)

/-- The engine of rank `b` mod the number of engines in a list. -/
def rankOwner (l : List Nat) (b : Nat) : Nat := nthD l (b % max 1 l.length) 0

/-- The owner of a bucket that no entry lists: its default owner at the last clear of its cluster (R181, R213). -/
def Dev.defaultOwner (d : Dev) (k b : Nat) : Nat :=
  rankOwner (Sparse.getD d.fwd.ranks k ((List.range 12).filter (· != d.expressEngine k))) b

/-- The default owner of bucket `b` of cluster `k` (R181): by the ranks of the engines now in service. -/
def Dev.homeOwner (d : Dev) (k b : Nat) : Nat := rankOwner (d.servants k) b

/-- The key of bucket `b` of cluster `k`. -/
def bucketKey (k b : Nat) : Nat := 4096 * k + b

/-- Bucket `b` of cluster `k`. -/
def Dev.bucket (d : Dev) (k b : Nat) : Bucket :=
  (Sparse.get? d.fwd.buckets (bucketKey k b)).getD { owner := d.defaultOwner k b, ownerCl := k }

/-- Bucket `b` of cluster `k` set. -/
def Dev.setBucket (k b : Nat) (x : Bucket) (d : Dev) : Dev :=
  let m := if x = { owner := d.defaultOwner k b, ownerCl := k } then Sparse.del d.fwd.buckets (bucketKey k b)
    else Sparse.put d.fwd.buckets (bucketKey k b) x
  { d with fwd := { d.fwd with buckets := m } }

/-- Every bucket of the device changed by `f`, which is given its cluster and number. -/
def Dev.mapBuckets (f : Nat → Nat → Bucket → Bucket) (d : Dev) : Dev :=
  let row := fun (k b : Nat) =>
    let x := f k b (d.bucket k b)
    if x = { owner := d.defaultOwner k b, ownerCl := k } then none else some (bucketKey k b, x)
  { d with fwd := { d.fwd with
      buckets := ((List.range 8).map (fun k => (List.range 4096).filterMap (row k))).flatten } }

/-- The buckets an engine owns, as pairs of home cluster and number. -/
def Dev.owned (d : Dev) (k e : Nat) : List (Nat × Nat) :=
  let near := [(k + 7) % 8, k, (k + 1) % 8]
  (near.map (fun j => ((List.range 4096).filter (fun b =>
    let x := d.bucket j b
    x.ownerCl == k && x.owner == e)).map (fun b => (j, b)))).flatten

/-- FWD_CL_BORROW_k follows the owners of the buckets: lent are cluster k's buckets held elsewhere, held the buckets of
adjacent clusters held here. -/
def Dev.syncBorrow (d : Dev) : Dev :=
  let foreign := d.fwd.buckets.filter (fun x => x.2.ownerCl != x.1 / 4096)
  Dev.each (List.range 8) (fun k e =>
    (e.put (F.FWD_CL_BORROW_lent k) (foreign.filter (fun x => x.1 / 4096 == k)).length).put (F.FWD_CL_BORROW_held k)
      (foreign.filter (fun x => x.2.ownerCl == k)).length) d

/-- The headers in an engine's queue. -/
def Dev.engQueue (d : Dev) (k e : Nat) : List Nat := Sparse.getD d.fwd.engQ (engineKey k e) []

/-- A gated engine wakes, and its cluster with it (R463). -/
def Dev.ungate (k e : Nat) (d : Dev) : Dev := (d.setBit (R.PWR_ENG_GATED k) e false).setBit R.PWR_CL_GATED k false

/-- An engine's queue set: FWD_ENG_DEPTH follows, and a header restarts the idle count (R200). -/
def Dev.setEngQueue (k e : Nat) (l : List Nat) (d : Dev) : Dev :=
  let key := engineKey k e
  let q := if l = [] then Sparse.del d.fwd.engQ key else Sparse.put d.fwd.engQ key l
  let d1 := { d with fwd := { d.fwd with engQ := q, idle := if l = [] then d.fwd.idle else Sparse.del d.fwd.idle key } }
  let d2 := d1.put (F.FWD_ENG_DEPTH k (e / 4) (e % 4)) l.length
  d2.when (l != []) (fun x => (x.put ⟨R.FWD_ENG_STATUS k, 16 + e, 1⟩ 0).ungate k e)

/-- A port's header FIFO (R185). -/
def Dev.headerFifo (d : Dev) (p : Nat) : List Nat := Sparse.getD d.fwd.fifo p []

/-- A port's header FIFO set, FWD_PORT_HDR_DEPTH_p following; a header wakes a gated dispatcher (Table PWR-2). -/
def Dev.setHeaderFifo (p : Nat) (l : List Nat) (d : Dev) : Dev :=
  let q := if l = [] then Sparse.del d.fwd.fifo p else Sparse.put d.fwd.fifo p l
  ({ d with fwd := { d.fwd with fifo := q } }.put (F.FWD_PORT_HDR_DEPTH p) l.length).when (l != [])
    (Dev.setBit R.PWR_CL_GATED (portGroup p) false)

/-! ### Dispatch -/

/-- A header enters an engine's queue for its bucket: activity and in-flight count rise (R182, R200), a header that
leaves its cluster is counted, and the frame remembers its engine. -/
def Dev.enterEngine (i k b : Nat) (d : Dev) : Dev :=
  let x := d.bucket k b
  let d1 := d.setBucket k b { x with activity := min 255 (x.activity + 1), inflight := x.inflight + 1 }
  let f := d1.frame i
  let d2 := d1.setFrame i { f with cluster := x.ownerCl, engine := x.owner }
  let d3 := d2.when (x.ownerCl != k) (Dev.count (4080 + 2 * k + 1) 1)
  d3.setEngQueue x.ownerCl x.owner (d3.engQueue x.ownerCl x.owner ++ [i])

/-- The headers that wait in the dispatcher for bucket `b` of cluster `k`, in arrival order (R204). -/
def Dev.waitingFor (d : Dev) (k b : Nat) : List Nat :=
  d.fwd.waiting.filter (fun i => portGroup (d.frame i).port == k && (d.frame i).bucket == b)

/-- The waiting headers of a bucket that moves no more enter its owner's queue in arrival order, as far as its 24 places go (R185,
R204). -/
def Dev.releaseWaiting (k b : Nat) (d : Dev) : Dev :=
  let x := d.bucket k b
  if x.moving then d
  else
    let mine := (d.waitingFor k b).take (24 - (d.engQueue x.ownerCl x.owner).length)
    let d1 := { d with fwd := { d.fwd with waiting := d.fwd.waiting.filter (fun i => !mine.contains i) } }
    Dev.each mine (fun i => Dev.enterEngine i k b) d1

/-- A place has come free in the queue of engine `e` of cluster `k`: the oldest header that waits for a bucket of it enters. -/
def Dev.refillQueue (k e : Nat) (d : Dev) : Dev :=
  match d.fwd.waiting.find? (fun i =>
      let x := d.bucket (portGroup (d.frame i).port) (d.frame i).bucket
      !x.moving && x.ownerCl == k && x.owner == e) with
  | some i => d.releaseWaiting (portGroup (d.frame i).port) (d.frame i).bucket
  | none => d

/-- A header waits in the dispatcher: its bucket moves, or earlier headers of it still wait (R183, R204). -/
def Dev.headWaits (d : Dev) (k b : Nat) : Bool := (d.bucket k b).moving || !(d.waitingFor k b).isEmpty

/-- The head header of a port can be dispatched in this cycle: its target queue is not full, or the header waits in the
dispatcher (R185, R204). -/
def Dev.headReady (d : Dev) (p : Nat) : Bool :=
  match d.headerFifo p with
  | [] => false
  | i :: _ =>
    let f := d.frame i
    let k := portGroup p
    if f.express then (d.engQueue k (d.expressEngine k)).length < 24
    else
      let x := d.bucket k f.bucket
      d.headWaits k f.bucket || (d.engQueue x.ownerCl x.owner).length < 24

/-- The head header of a port dispatched (R180, R184, R185, R204). -/
def Dev.dispatchHead (p : Nat) (d : Dev) : Dev :=
  match d.headerFifo p with
  | [] => d
  | i :: rest =>
    let f := d.frame i
    let k := portGroup p
    let d1 := (d.setHeaderFifo p rest).count (4080 + 2 * k) 1
    if f.express then
      let e := d1.expressEngine k
      (d1.setFrame i { f with cluster := k, engine := e }).setEngQueue k e (d1.engQueue k e ++ [i])
    else if d1.headWaits k f.bucket then { d1 with fwd := { d1.fwd with waiting := d1.fwd.waiting ++ [i] } }
    else d1.enterEngine i k f.bucket

/-- The ports of a cluster, ascending (R33). -/
def clusterPorts (k : Nat) : List Nat := (List.range 81).filter (fun p => portGroup p == k)

/-- The ports a cluster's dispatcher serves in one core cycle, at most two, in the order of its rotating priority: a port whose head
header finds its queue full, be it by the port served before it, is passed over (R185). -/
def Dev.served (d : Dev) (k : Nat) : List Nat :=
  let ports := clusterPorts k
  let last := Sparse.getD d.fwd.lastServed k 81
  let order := ports.filter (last < ·) ++ ports.filter (· ≤ last)
  match order.find? (fun p => d.headReady p) with
  | none => []
  | some p =>
    let d1 := d.dispatchHead p
    p :: ((order.filter (· != p)).find? (fun q => d1.headReady q)).toList

/-- One core cycle of a cluster's dispatcher: at most two headers, one from any one port, under the rotating priority
of R185; the two enter in ascending port order. -/
def Dev.dispatchCycle (k : Nat) (d : Dev) : Dev :=
  match d.served k with
  | [] => d
  | [p] => let d1 := d.dispatchHead p
    { d1 with fwd := { d1.fwd with lastServed := Sparse.put d1.fwd.lastServed k p } }
  | p :: q :: _ => let d1 := (d.dispatchHead (min p q)).dispatchHead (max p q)
    { d1 with fwd := { d1.fwd with lastServed := Sparse.put d1.fwd.lastServed k q } }

/-! ### The lookup -/

/-- A hit bit set (R194). -/
def Dev.setHit (i : Nat) (d : Dev) : Dev :=
  let a := hitBase + i / 8
  d.store a [(d.byte a) ||| BitVec.ofNat 8 (2 ^ (i % 8))]

/-- The keys of a frame as its ingress port's configuration forms them (R174–R179, R196). -/
def Dev.parsed (d : Dev) (f : Frame) : Parsed :=
  parse (f.bytes.take 128) (d.get (F.FWD_PORT_CFG_pvid f.port)) (d.get (F.FWD_PORT_CFG_default_pcp f.port))
    (if d.flag F.FWD_ECPRI_UDP_enable then some (d.get F.FWD_ECPRI_UDP_port) else none)

/-- The action index a lookup gives (R188, R192–R195), with the hit bit and the duplicate event. While TOP_READY.fwd
is 0 every lookup misses (R66). -/
def Dev.resolve (f : Frame) (d : Dev) : Nat × Dev :=
  let miss := d.get (F.FWD_PORT_MISS_action f.port)
  if !d.flag F.TOP_READY_fwd then (miss, d)
  else
    let q := d.parsed f
    let tcam := d.tcamHit f.ktype (q.tcamKey (f.bytes.take 128) f.ktype f.port)
    let em := match d.emSet f.ktype f.hash with
      | some first => d.emMatches f.ktype f.key first
      | none => []
    let d1 := match em with
      | [] => d
      | [i] => d.setHit i
      | i :: _ => ((d.setHit i).put F.FWD_DUP_IDX i).fault R.FWD_EVENT 0 E.FWD_EM_DUP i
    let tcamWord := fun (t : Nat) => d.dword (tcamBase + 128 * t + 124)
    match tcam, em with
    | some t, i :: _ => (if field (tcamWord t) 20 1 = 1 then field (tcamWord t) 0 17
        else field (d.dword (emBase + 64 * i + 60)) 0 17, d1)
    | some t, [] => (field (tcamWord t) 0 17, d1)
    | none, i :: _ => (field (d.dword (emBase + 64 * i + 60)) 0 17, d1)
    | none, [] => (miss, d1)

/-- What a lookup returns to the BPM and QSC: a drop with its reason and whether act_invalid sets, or an action with
its ports; `dropped` is the reason under which an action of type drop also drops the frame whose mirror copy goes to port 64. -/
inductive Verdict where
  | drop (reason : Nat) (invalid : Bool)
  | send (act : Action) (ports : List Nat) (badLaunch : Bool) (dropped : Option Nat)
  deriving DecidableEq, Repr

/-- The launch time of R198; `none` with the flag where launch_val of mode 2 is too large. A frame without a valid
ingress stamp has none to count from and every timed copy of it is late (R28). -/
def launchTime (mode val rx : Nat) : Option Nat × Bool :=
  if mode = 1 then (some (rx + val * 4096), false)
  else if mode = 2 then
    if 1000000000 ≤ val then (none, true)
    else
      let t := instant (secOf rx) val 0
      (some (if rx < t then t else instant (secOf rx + 1) val 0), false)
  else (none, false)

/-- The reason of an action's reason field: 0x00–0x3F act as 0x10 for a drop and as 0x40 otherwise (Table FWD-7). -/
def actReason (drop : Bool) (r : Nat) : Nat := if 0x40 ≤ r then r else if drop then 0x10 else 0x40

/-- The ports of a multicast group, ascending and present, the pruned ingress port left out (R199). -/
def Dev.groupPorts (d : Dev) (g ingress : Nat) : List Nat :=
  let a := mcBase + 16 * g
  let mask := leNat (d.bytes a 12)
  let prune := field (d.dword (a + 8)) 24 1 == 1
  (List.range 81).filter (fun p => hasBit mask p && d.portPresent p && !(prune && p == ingress))

/-- The context to which action entry `idx` binds its frames, whatever becomes of them (R208, R209). -/
def Dev.boundTo (d : Dev) (idx : Nat) : Option Nat :=
  let a := actBase + 16 * idx
  let w1 := d.dword (a + 4)
  if field (d.dword (a + 12)) 31 1 = 0 ∨ d.poisoned a then none
  else if field w1 28 1 = 1 then some (field w1 16 12) else none

/-- The verdict of an action entry for a frame (R189, R197–R199). mirror_cpu asks for a copy to port 64 of its own, beside one that the
action sends there already (R231). An action of type drop with mirror_cpu 1 drops the frame and sends
its mirror copy to port 64: DEDUCED (log entry 89). -/
def Dev.verdict (d : Dev) (f : Frame) (idx : Nat) : Verdict :=
  let a := actBase + 16 * idx
  let w0 := d.dword a
  let w1 := d.dword (a + 4)
  if field (d.dword (a + 12)) 31 1 = 0 ∨ d.poisoned a then .drop 0x11 true
  else
    let t := field w0 0 2
    let mirror := field w0 2 1 == 1
    let target := field w0 4 12
    let cls := if field w0 19 1 = 1 then field w0 16 3 else f.cls
    let (launch, badLaunch) := launchTime (field w1 30 2) (d.dword (a + 8)) f.rx.t
    let act : Action :=
      { vlanOp := field w0 20 2, vid := field w1 0 12, pcp := field w1 12 3, cls := cls
        reason := if t = 3 ∨ mirror then actReason false (field w0 24 8) else 0
        ctx := if field w1 28 1 = 1 then some (field w1 16 12) else none, launch := launch }
    let withCpu := fun (l : List Nat) => if mirror then (l.filter (· ≤ 64)) ++ [64] ++ (l.filter (64 < ·)) else l
    if t = 0 then
      if mirror then .send act [64] badLaunch (some (actReason true (field w0 24 8)))
      else .drop (actReason true (field w0 24 8)) badLaunch
    else if t = 3 then .send act (withCpu [64]) badLaunch none
    else if t = 1 then
      if 80 < target ∨ !d.portPresent target then .drop 0x14 true
      else .send act (withCpu [target]) badLaunch none
    else if field (d.dword (mcBase + 16 * target + 12)) 31 1 = 0 ∨ d.poisoned (mcBase + 16 * target) then .drop 0x12 true
    else
      match withCpu (d.groupPorts target f.port) with
      | [] => .drop 0x12 badLaunch
      | l => .send act l badLaunch none

/-- The trap of Pdelay messages at a port in P2P mode (R295). -/
def Dev.pdelayTrap (d : Dev) (f : Frame) : Bool :=
  f.port != 64 && d.get (F.TBS_PTP_CFG_tc_mode f.port) == 2 &&
    (match (d.parsed f).ptpAt f.bytes (d.flag (F.TBS_PTP_CFG_eth f.port)) (d.flag (F.TBS_PTP_CFG_udp f.port)) with
    | some o => ptpType f.bytes o == 2 || ptpType f.bytes o == 3
    | none => false)

/-- The address of eCPRI context `n`. -/
def ctxAddr (n : Nat) : Nat := ctxBase + 64 * n

/-- A saturating 32-bit field of a context raised. -/
def Dev.ctxAdd (n k v : Nat) (d : Dev) : Dev :=
  d.storeDword (ctxAddr n + 4 * k) (min (2 ^ 32 - 1) (d.dword (ctxAddr n + 4 * k) + v))

/-- The ingress update of an eCPRI context (R209). -/
def Dev.ctxIngress (n : Nat) (q : Parsed) (d : Dev) : Dev :=
  let w := d.dword (ctxAddr n)
  if field w 31 1 = 0 ∨ d.poisoned (ctxAddr n) then d
  else
    let d1 := d.ctxAdd n 1 1
    match q.seqId with
    | none => d1
    | some s =>
      if q.subseq ≠ 0 then d1
      else
        let base := w / 512 * 512
        let setNext := fun (x : Nat) (e : Dev) => e.storeDword (ctxAddr n) (base + 256 + x % 256)
        if field w 8 1 = 0 then setNext (s + 1) d1
        else
          let df := (s + 256 - w % 256) % 256
          if df = 0 then setNext (w % 256 + 1) d1
          else if df < 128 then setNext (s + 1) (d1.ctxAdd n 2 df)
          else d1.ctxAdd n 3 1

/-- The header of a frame leaves its bucket: the in-flight count falls (R182). -/
def Dev.leaveBucket (k b : Nat) (d : Dev) : Dev :=
  let x := d.bucket k b
  d.setBucket k b { x with inflight := x.inflight - 1 }

/-- The lookup behind a verdict met an invalid action, group, target or launch value (R197–R199). -/
def Verdict.invalid : Verdict → Bool
  | .drop _ invalid => invalid
  | .send _ _ badLaunch _ => badLaunch

/-- A frame's action handed over (R189, R227–R229): a chain failure or a lookup drop ends it before enqueue; else its
copies wait for the BPM. The frame of a header whose buffer was refused is forgotten (R226). -/
def Dev.handOver (i : Nat) (v : Verdict) (d : Dev) : Dev :=
  let f := d.frame i
  let d1 := d.when v.invalid (Dev.fault R.FWD_EVENT 4 E.FWD_ACT_INVALID f.port)
  if f.dropped.isSome then d1.forget i
  else if f.bad = chainFailed then d1.dropFrame i f.bad
  else
    match v with
    | .drop r _ => d1.dropFrame i r
    | .send act ports _ dropped =>
      let d2 := match dropped with
        | some r => d1.countDrop f.port r
        | none => d1.when (act.reason != 0) (Dev.countReason act.reason)
      let f2 := { f with
        act := some act, looked := true, mcast := decide (1 < ports.length)
        copies := ports.map (fun p => { port := p, queue := act.cls })
        lastOwner := ports.getLast?.getD 0 }
      let d3 := d2.setFrame i f2
      { d3 with bpm := { d3.bpm with handed := d3.bpm.handed ++ [i] } }

/-- An engine takes the head of its queue and returns its action (R187–R190, R194, R209): the header leaves its
bucket, and what the lookup read decides the frame. -/
def Dev.engineLookup (k e : Nat) (d : Dev) : Dev :=
  match d.engQueue k e with
  | [] => d
  | i :: rest =>
    let f := d.frame i
    let d0 := (d.setEngQueue k e rest).count (3888 + 24 * k + 2 * e) 1
    let d1 := ((d0.enterState (3888 + 24 * k + 2 * e + 1)).leaveState (3888 + 24 * k + 2 * e + 1))
    let (idx, d2) := d1.resolve f
    let trap := d2.pdelayTrap f
    let v := if trap then Verdict.send { reason := 0x40, cls := f.cls } [64] false none else d2.verdict f idx
    let d3 := match (if trap then none else d2.boundTo idx) with | some n => d2.ctxIngress n (d2.parsed f) | none => d2
    let d4 := d3.when (!f.express) (Dev.leaveBucket (portGroup f.port) f.bucket)
    (d4.handOver i v).refillQueue k e

/-! ### Stealing -/

/-- Adjacent stealing is allowed between clusters `k` and `j` for a thief of `k` (R202). -/
def Dev.adjacent (d : Dev) (k j : Nat) : Bool :=
  (j == (k + 1) % 8 || j == (k + 7) % 8) && d.flag (F.FWD_CL_CFG_adj_allowed k) && d.flag (F.FWD_CL_CFG_adj_allowed j) &&
    d.flag (F.FWD_STEAL_CFG_adj k) && !d.flag (F.FWD_STEAL_CFG_recall j)

/-- The idle cycles a thief of cluster `k` needs; 0 acts as 1 (Table FWD-12). -/
def Dev.idleNeed (d : Dev) (k : Nat) : Nat := max 1 (d.get (F.FWD_STEAL_CFG_idle_cycles k))

/-- The idle count of an engine. -/
def Dev.idleOf (d : Dev) (k e : Nat) : Nat := Sparse.getD d.fwd.idle (engineKey k e) 0

/-- The idle counts of a cluster after `n` more core cycles with the queues as they stand; FWD_ENG_STATUS.idle
follows. -/
def Dev.idleCycles (k n : Nat) (d : Dev) : Dev :=
  Dev.each (List.range 12) (fun e x =>
    if x.engQueue k e = [] then
      let c := min 65535 (x.idleOf k e + n)
      { x with fwd := { x.fwd with idle := Sparse.put x.fwd.idle (engineKey k e) c } }.put
        ⟨R.FWD_ENG_STATUS k, 16 + e, 1⟩ (bit (decide (x.idleNeed k ≤ c)))
    else x) d

/-- The thief of cluster `k` (R200). -/
def Dev.thief (d : Dev) (k : Nat) : Option Nat :=
  if !d.flag (F.FWD_STEAL_CFG_enable k) then none
  else (List.range 12).find? (fun e =>
    d.inService k e && d.engQueue k e == [] && decide (d.idleNeed k ≤ d.idleOf k e))

/-- `a` comes before `b` among victims of a thief of cluster `k`: greater depth, then cluster `k`, then the lower
cluster, then the lower engine. -/
def victimBefore (k : Nat) (a b : Nat × Nat × Nat) : Bool :=
  let rank := fun (x : Nat × Nat × Nat) => (if x.2.1 = k then 0 else 1 + x.2.1) * 16 + x.2.2
  a.1 > b.1 || (a.1 == b.1 && rank a < rank b)

/-- The victims of a thief of cluster `k`, in the order of R200, as depth, cluster, engine. -/
def Dev.victims (d : Dev) (k : Nat) : List (Nat × Nat × Nat) :=
  let need := max 1 (min 24 (d.get (F.FWD_STEAL_CFG_min_depth k)))
  let cls := (List.range 8).filter (fun j => j == k || d.adjacent k j)
  let all := (cls.map (fun j => (d.servants j).map (fun e => ((d.engQueue j e).length, j, e)))).flatten
  (all.filter (fun x => need ≤ x.1)).foldl (fun l x => insertBy (victimBefore k) x l) []

/-- The bucket a thief of cluster `k` takes from a victim (R200). -/
def Dev.candidateBucket (d : Dev) (k : Nat) (v : Nat × Nat × Nat) : Option (Nat × Nat) :=
  let c := (d.owned v.2.1 v.2.2).filter (fun x =>
    let y := d.bucket x.1 x.2
    y.inflight == 0 && 0 < y.activity && !y.moving && (x.1 == k || x.1 == (k + 1) % 8 || x.1 == (k + 7) % 8))
  let better := fun (a b : Nat × Nat) =>
    let aa := (d.bucket a.1 a.2).activity
    let ab := (d.bucket b.1 b.2).activity
    decide (ab < aa) || (aa == ab && decide (bucketKey a.1 a.2 < bucketKey b.1 b.2))
  (c.foldl (fun l x => insertBy better x l) []).head?

/-- A steal that the steal unit of a cluster selects: the thief's cluster and engine, the bucket's home cluster and number. -/
structure Theft where
  cluster : Nat
  thief : Nat
  home : Nat
  bucket : Nat
  deriving DecidableEq, Repr

/-- One evaluation of the steal unit of cluster `k` (R200–R202). -/
def Dev.stealEval (d : Dev) (k : Nat) : Option Theft :=
  match d.thief k with
  | none => none
  | some t => ((d.victims k).findSome? (fun v => d.candidateBucket k v)).map (fun x => ⟨k, t, x.1, x.2⟩)

/-- The steals that commit of those selected in one core cycle (R201): one for each home cluster, that of the home cluster's own
thief, else that of the lowest cluster. -/
def winners (l : List Theft) : List Theft :=
  (List.range 8).filterMap (fun j =>
    let mine := l.filter (fun x => x.home == j)
    match mine.find? (fun x => x.cluster == j) with
    | some x => some x
    | none => mine.head?)

/-- A steal commits (R200): the bucket changes its owner, and the thief's idle count starts anew; headers of the bucket that waited for
the victim's full queue enter the thief's (R185). -/
def Dev.commitSteal (x : Theft) (d : Dev) : Dev :=
  let b := d.bucket x.home x.bucket
  let d1 := (d.setBucket x.home x.bucket { b with owner := x.thief, ownerCl := x.cluster }).sat (F.FWD_CL_STEALS x.cluster) 1
  (({ d1 with fwd := { d1.fwd with idle := Sparse.del d1.fwd.idle (engineKey x.cluster x.thief) } }.put
    ⟨R.FWD_ENG_STATUS x.cluster, 16 + x.thief, 1⟩ 0).ungate x.cluster x.thief).syncBorrow.releaseWaiting x.home x.bucket

/-- One core cycle of the steal units of some clusters, given in ascending number (R200–R203): each evaluates the state at its start,
and the winners of R201 commit. -/
def Dev.stealCycle (ks : List Nat) (d : Dev) : Dev := Dev.each (winners (ks.filterMap d.stealEval)) Dev.commitSteal d

/-- `n` core cycles pass at some clusters with their queues as they stand, and their steal units evaluate in the last of them. -/
def Dev.steal (ks : List Nat) (n : Nat) (d : Dev) : Dev := (Dev.each ks (fun k e => e.idleCycles k n) d).stealCycle ks

/-! ### Moves, recall, retirement -/

/-- The number of buckets an engine owns. -/
def Dev.ownedCount (d : Dev) (k e : Nat) : Nat := (d.owned k e).length

/-- The engine in service of a cluster with the fewest owned buckets, ties to the lower index (R205). -/
def Dev.leastLoaded (d : Dev) (k : Nat) : Nat :=
  let counts := (d.servants k).map (fun e => (d.ownedCount k e, e))
  ((counts.foldl (fun acc x => insertBy (fun a b => a.1 < b.1) x acc) []).head?.map (·.2)).getD 0

/-- recall clears once no bucket of the cluster moves (R204). -/
def Dev.recallEnds (k : Nat) (d : Dev) : Dev :=
  d.when (d.flag (F.FWD_STEAL_CFG_recall k) &&
      !(d.fwd.buckets.any (fun x => x.1 / 4096 == k && x.2.moving)))
    (Dev.put (F.FWD_STEAL_CFG_recall k) 0)

/-- A moving bucket with nothing in flight passes on: to the least loaded engine of its home cluster where its owner
retires, else to its default owner (R204, R205). -/
def Dev.moveBucket (k b : Nat) (d : Dev) : Dev :=
  let x := d.bucket k b
  if !x.moving ∨ x.inflight ≠ 0 then d
  else
    let owner := if x.away then d.leastLoaded k else d.homeOwner k b
    let d1 := d.setBucket k b { x with owner := owner, ownerCl := k, moving := false, away := false }
    ((d1.releaseWaiting k b).syncBorrow).recallEnds k

/-- A recall of cluster `k` (R204): every bucket of the cluster or held by one of its engines becomes moving. -/
def Dev.recall (k : Nat) (d : Dev) : Dev :=
  (d.put (F.FWD_STEAL_CFG_recall k) 1).mapBuckets (fun j _ x =>
    if j = k ∨ x.ownerCl = k then { x with moving := true, away := false } else x)

/-- The start of an engine's retirement, or its refusal (R205, R206). An engine that retires counts no more when the last engine in
service is judged, and the bits of one write start in ascending order: DESIGN CHOICE (log entry 98). -/
def Dev.retireStart (k e : Nat) (d : Dev) : Dev :=
  let left := (d.servants k).filter (· != e)
  if e = d.expressEngine k ∨ (left = [] ∧ d.inService k e) then
    (d.setBit (R.FWD_ENG_CTRL k) e false).event R.FWD_EVENT 2
  else if d.retired k e ∨ d.retiringEng k e then d
  else
    let d1 := { d.setBit (R.FWD_ENG_CTRL k) e true with fwd :=
      { d.fwd with retiring := addOnce (engineKey k e) d.fwd.retiring } }
    Dev.each (d.owned k e) (fun x y => y.setBucket x.1 x.2 { y.bucket x.1 x.2 with moving := true, away := true }) d1

/-- A retiring engine that owns no bucket and holds no header is retired (R205). -/
def Dev.retireDone (k e : Nat) (d : Dev) : Dev :=
  if d.retiringEng k e ∧ d.owned k e = [] ∧ d.engQueue k e = [] then
    ({ d with fwd := { d.fwd with retiring := d.fwd.retiring.erase (engineKey k e) } }.setBit (R.FWD_ENG_STATUS k) e
      true).event R.FWD_EVENT 1
  else d

/-- A 0 written to a retire bit (R206, R207): the engine returns to service. -/
def Dev.unretire (k e : Nat) (d : Dev) : Dev :=
  ({ d with fwd := { d.fwd with retiring := d.fwd.retiring.erase (engineKey k e) } }.setBit (R.FWD_ENG_CTRL k) e
    false).setBit (R.FWD_ENG_STATUS k) e false

/-- An engine that holds a header for more than 1.0 µs (R502): the header is dropped with reason 0x11, the in-flight
count falls, and the engine retires. -/
def Dev.engineHang (k e : Nat) (d : Dev) : Dev :=
  match d.engQueue k e with
  | [] => d
  | i :: rest =>
    let f := d.frame i
    let d1 := (d.setEngQueue k e rest).raise E.FWD_ENGINE_HANG (16 * k + e)
    let d2 := d1.when (!f.express) (Dev.leaveBucket (portGroup f.port) f.bucket)
    let d3 := if f.dropped.isSome then d2.forget i else d2.dropFrame i 0x11
    (d3.refillQueue k e).retireStart k e

/-- A reset of the engines' side (R75, R181, R213): the headers in flight and their frames are gone without a count,
every bucket is with its default owner and none moves, so no recall runs. An engine whose retirement was under way owns no bucket then
and has only to be found empty. -/
def Dev.clearEngines (k : Nat) (d : Dev) : Dev :=
  { d with fwd := { d.fwd with
      ranks := Sparse.put d.fwd.ranks k (d.servants k)
      buckets := d.fwd.buckets.filter (fun x => x.1 / 4096 != k)
      idle := d.fwd.idle.filter (fun x => x.1 / 12 != k)
      engQ := d.fwd.engQ.filter (fun x => x.1 / 12 != k)
      waiting := d.fwd.waiting.filter (fun i => portGroup (d.frame i).port != k)
      lastServed := Sparse.del d.fwd.lastServed k } }.put (F.FWD_STEAL_CFG_recall k) 0

/-- The engines of every cluster cleared, with the borrowed buckets counted anew (R212). Retirements go on while their retire bits
stand (R207, R213). -/
def Dev.clearAllEngines (d : Dev) : Dev :=
  let on := d.fwd.retiring.filter (fun x => d.bitAt (R.FWD_ENG_CTRL (x / 12)) (x % 12))
  (Dev.each (List.range 8) Dev.clearEngines { d with fwd := { d.fwd with retiring := on } }).syncBorrow

/-- The buckets of cluster `k` return to their default owners among its engines, the express engine perhaps a new one (R57, R181): with
nothing in flight, the headers that waited for a moving bucket go to it in arrival order, and no recall runs any more, nor one of a
cluster whose last moving buckets were held here (R204). Headers in the queues stay where they are. A bucket's activity count starts
anew at 0 with its default owner: DESIGN CHOICE (log entry 20). -/
def Dev.returnBuckets (k : Nat) (d : Dev) : Dev :=
  let away := d.fwd.buckets.filter (fun x => x.1 / 4096 != k && x.2.ownerCl == k)
  let d1 := { d with fwd := { d.fwd with
      ranks := Sparse.put d.fwd.ranks k (d.servants k)
      buckets := d.fwd.buckets.filter (fun x => x.1 / 4096 != k)
      lastServed := Sparse.del d.fwd.lastServed k } }
  let d2 := Dev.each away (fun x e => e.setBucket (x.1 / 4096) (x.1 % 4096)
    { x.2 with owner := e.homeOwner (x.1 / 4096) (x.1 % 4096), ownerCl := x.1 / 4096, moving := false, away := false }) d1
  let stuck := ((d2.fwd.waiting.map (fun i => (portGroup (d2.frame i).port, (d2.frame i).bucket))).eraseDups)
  let d3 := (Dev.each stuck (fun x e => e.releaseWaiting x.1 x.2) d2).syncBorrow.put (F.FWD_STEAL_CFG_recall k) 0
  Dev.each ((away.map (fun x => x.1 / 4096)).eraseDups) Dev.recallEnds d3

end Sys2Proof.Machine
end

