-- ==== Sys2Proof/Machine/Egress.lean ====
section
/-! DEFINITION. Egress: stamps, the rewriting of a copy as it leaves, preemption, stomping, the start and the end of a
transmission, timed launch, gates (R210, R215, R233, R242–R258, R288–R303, R455, R541). -/

namespace Sys2Proof.Machine

/-! ### Stamps -/

/-- The fixed transmit latency, residual and adjustment of a port in 1/65,536 ns (R288, R293). -/
def Dev.txDelay (d : Dev) (p : Nat) : Int :=
  (d.get (F.TBS_TX_FIXED p) : Int) + (if p < 64 then (d.get (F.MAC_TX_RESID p) : Int) else 0) + d.sget (F.TBS_TX_ADJ p)

/-- The bits of an Ethernet lane in one period of its 156.25 MHz reference, by the rate code of Table HSL-1 (R117). -/
def refBits (rate : Nat) : Nat := nthD [66, 165, 340, 680] rate 680

/-- t_tx_sfd (R290): the SFD's first bit is `bits` bit periods after the last edge of the lane synthesizer's reference, whose place
before the present time-clock edge the phase accumulator tells. A tunnel port counts from the rope reference of its lane; port 64 has
no line. -/
def Dev.txSfd (d : Dev) (p bits : Nat) : Nat :=
  if p < 64 then
    let r := refBits (d.get (F.HSL_CFG_rate p))
    -- a reference period of 6.4 ns is 2,097,152 / 5 units of 1/65,536 ns
    ((d.now : Int) + roundDiv (((bits : Int) * 12288 - d.lanes.synth * r) * 2097152) (5 * 12288 * r)).toNat
  else if p = 64 then d.now
  else
    let r := d.get (F.RLK_STATUS_rate (p - 65))
    -- a fifth of the rope reference lasts a bit of rate code 0, 625/768 ns
    ((d.now : Int) + roundDiv (625 * 65536 * ((bits : Int) - d.lanes.ropeSynth * 2 ^ r)) (768 * 2 ^ r)).toNat

/-- The egress stamp of a copy whose SFD is `bits` bits after the last edge of its lane's reference (R288, R290). -/
def Dev.txStamp (d : Dev) (p bits : Nat) : Stamp := d.stampAt ((d.txSfd p bits + d.txDelay p).toNat)

/-! ### The rewriting of a copy -/

/-- The PTP message of a frame that its ingress port recognises (R294). -/
def Dev.ptpOf (d : Dev) (f : Frame) : Option Nat :=
  if f.port = 64 then none
  else (d.parsed f).ptpAt f.bytes (d.flag (F.TBS_PTP_CFG_eth f.port)) (d.flag (F.TBS_PTP_CFG_udp f.port))

/-- The transparent-clock mode of a port: 0 off, 1 E2E, 2 P2P; 3 acts as 0 (Table TBS-5). -/
def Dev.tcMode (d : Dev) (p : Nat) : Nat := if p = 64 then 0 else d.get (F.TBS_PTP_CFG_tc_mode p) % 3

/-- A copy of an event message that leaves a port which corrects (R295). -/
def Dev.corrects (d : Dev) (f : Frame) (p : Nat) : Option Nat :=
  if d.tcMode p = 0 then none else d.ptpOf f

/-- The message carries an AUTHENTICATION TLV and the port's tc_auth is 0 (R298). -/
def Dev.keepsAuth (d : Dev) (f : Frame) (p o : Nat) : Bool := (authTlv f.bytes o).isSome && !d.flag (F.TBS_PTP_CFG_tc_auth p)

/-- The correction is skipped: a stamp is invalid, or the message is one R298 leaves unchanged (R295, R298). -/
def Dev.skipsCorrection (d : Dev) (f : Frame) (p o : Nat) (tx : Stamp) : Bool := !f.rx.valid || !tx.valid || d.keepsAuth f p o

/-- The PTP event message of a frame of port 64 that asks for a one-step stamp (R297). -/
def oneStepOf (f : Frame) : Option Nat :=
  if f.tsOp < 2 then none else (parse f.bytes 0 0 none).ptpAt f.bytes true true

/-- A copy leaves with its message unchanged where it was to be corrected, and counts as a skipped correction (R295, R298). -/
def Dev.skipped (d : Dev) (f : Frame) (p : Nat) (tx : Stamp) : Bool :=
  match d.corrects f p, oneStepOf f with
  | some o, _ => d.skipsCorrection f p o tx
  | none, some o => d.keepsAuth f p o
  | none, none => false

/-- The correctionField of the PTP message at `o` raised by `n`. -/
def raiseCorrection (q : Parsed) (bs : List Byte) (o : Nat) (n : Int) : List Byte :=
  patchUdp q bs (o + 8) (beBytes 8 (correct (octets bs (o + 8) 8) n))

/-- The bytes of a copy without FCS, in the order of R296: VLAN operation, mark, PTP update, each at the place the parse of the frame
as received found and the VLAN operation moved. -/
def Dev.rewrite (d : Dev) (f : Frame) (p q : Nat) (c : Copy) (tx : Stamp) (whole : Bool) : List Byte :=
  let body := if whole then f.bytes.take (f.bytes.length - 4) else f.bytes
  let act := f.act.getD {}
  let n := vlanShift act body
  let g := (parse f.bytes 0 0 none).move n
  let tagged := vlanOp act body
  let shaped := if whole then padShort act tagged else tagged
  let marked := if c.marked then
      markFrame (d.flag (F.BPM_QMARK_ecn_en p q)) (d.flag (F.BPM_QMARK_dei_en p q)) g shaped else shaped
  match d.corrects f p, oneStepOf f with
  | some o, _ =>
    if d.skipsCorrection f p o tx then marked
    else
      let peer := if ptpType f.bytes o = 0 ∧ d.tcMode f.port = 2 then d.get (F.TBS_P2P_DELAY f.port) else 0
      raiseCorrection g marked ((o : Int) + n).toNat ((tx.t : Int) - f.rx.t + peer)
  | none, some o =>
    if !d.keepsAuth f p o then
      let o2 := ((o : Int) + n).toNat
      let stamped := patchUdp g marked (o2 + 34) (beBytes 6 (secOf tx.t) ++ beBytes 4 (nsOf tx.t))
      raiseCorrection g stamped o2 (fracOf tx.t)
    else marked
  | none, none => marked

/-- What a copy puts on the wire without its FCS: the frame as its buffers hold it, rewritten, or the placeholder, protected where its
association says so (R230, R296, R455). `upTo` names the byte of the frame before which the reading ended (R255). -/
def Dev.wireBytes (d : Dev) (p : Nat) (s : Sending) (whole : Bool) (upTo : Option Nat) : List Byte :=
  let clear := match s.copy.holder with
    | some bs => bs.take (bs.length - 4)
    | none =>
      let f := d.stored (d.frame s.copy.frame)
      match upTo with
      | none => d.rewrite f p s.queue s.copy s.tx whole
      | some n => d.rewrite { f with bytes := f.bytes.take n } p s.queue s.copy s.tx false
  match s.sa with
  | none => clear
  | some (i, j, pn) => macsecSeal (d.saUse p i j pn) (d.flag (F.MSC_PORT_CFG_sci p)) clear

/-- The FCS with every bit inverted (R255). -/
def badFcs (bs : List Byte) : List Byte := (fcs bs).map (fun b => ~~~b)

/-! ### The line -/

/-- What a port puts on its line; nothing of it reaches the line of a lane in far-end loopback (R140). -/
def Dev.onLine (p : Nat) (x : Sent) (d : Dev) : Dev :=
  if decide (p < 64) && (d.portLanes p).any (fun l => d.get (F.HSL_CTRL_loopback l) == 2) then d else d.emit x

/-- A whole frame leaves a port other than 64; a tunnel port's goes to the payload slots of its rope lane (R168). -/
def Dev.sendOut (p : Nat) (bs : List Byte) (d : Dev) : Dev :=
  (d.onLine p (.frame p bs)).when (decide (64 < p)) (Dev.tunnelOut (p - 65) bs true)

/-- A frame ends in an error code (R70), on a tunnel port in K30.7 (R168). -/
def Dev.sendCut (p : Nat) (bs : List Byte) (d : Dev) : Dev :=
  (d.onLine p (.cut p bs)).when (decide (64 < p)) (Dev.tunnelOut (p - 65) bs false)

/-- A frame that went bad as it left ends (R168, R255): with the inverted FCS, on a tunnel port with K30.7. The host gets nothing of a
copy of port 64 that went bad. -/
def Dev.sendBad (p : Nat) (body : List Byte) (d : Dev) : Dev :=
  if p = 64 then d else if 64 < p then d.sendCut p body else d.sendOut p (body ++ badFcs body)

/-! ### Preemption -/

/-- A copy in transmission can be set aside: it uses the preemptable MAC, and IEEE 802.3br can cut it into a first fragment of
64 × (1 + add_frag) B and a last one of 64 B, each with its 4-byte check (R250, R252). -/
def Dev.mayPreempt (d : Dev) (p : Nat) (s : Sending) : Bool :=
  s.pmac && d.preemptable p s.queue && decide (124 + 64 * d.get (F.QSC_PREEMPT_add_frag p) ≤ d.copyLen s.copy)

/-- A preemptable copy in transmission is set aside (R252). -/
def Dev.preempt (p : Nat) (d : Dev) : Dev :=
  match d.sendingOn p with
  | none => d
  | some s => if d.mayPreempt p s then (d.setSending p none).setSuspended p (some s) else d

/-- An express queue is eligible (R252). -/
def Dev.expressWaits (d : Dev) (p : Nat) : Bool := (List.range 8).any (fun q => d.expressQueue p q && d.eligible p q)

/-- An express queue that has become eligible preempts a preemptable copy (R252). -/
def Dev.preemptCheck (p : Nat) (d : Dev) : Dev := d.when (p < 64 && d.expressWaits p) (Dev.preempt p)

/-- The preempted copy may resume: its gate is open and its MAC is not held (R249, R251, R252). -/
def Dev.mayResume (d : Dev) (p : Nat) : Option Sending :=
  (Sparse.get? d.qsc.suspended p).filter (fun s => hasBit (d.gateMask p) s.queue && !d.qsc.heldMac.contains p)

/-! ### The end of a transmission -/

/-- The counters of a copy that left: transmitted, bytes, its queue (Table CNT-2). -/
def Dev.countSent (p q n : Nat) (d : Dev) : Dev :=
  ((d.count (portCtr p 2) 1).count (portCtr p 3) n).count (portCtr p (15 + q)) 1

/-- The candidate of a placeholder (R485, R486). -/
def holderCandidate (p q kind reason flow : Nat) (tx : Stamp) (bs : List Byte) : Candidate :=
  { ingress := {}, egress := tx, inPort := 0x7F, outPort := p, queue := q, kind := kind, reason := reason, cells := 0
    len := bs.length, ctx := some flow, engine := 0, cluster := 0, express := false, bytes := bs }

/-- What a copy was debited beyond the length it turned out to have is credited back, or the rest is debited (R243). -/
def Dev.settleDebit (p : Nat) (s : Sending) (len : Nat) (d : Dev) : Dev :=
  d.when (s.debit != 0) (fun e => e.setDeficit p s.queue (e.deficit p s.queue + ((s.debit : Int) - len)))

/-- The copy in transmission on a port ends stomped (R255): what is held of it, `upTo` a fault, with the inverted FCS; counted under
its reason, captured, consumed. -/
def Dev.stomp (p reason : Nat) (upTo : Option Nat) (d : Dev) : Dev :=
  match d.sendingOn p with
  | none => d
  | some s =>
    let f := d.frame s.copy.frame
    let body := d.wireBytes p s (f.complete && !f.short) upTo
    let d1 := ((d.setSending p none).sendBad p body).settleDebit p s f.bytes.length
    let d2 := ((d1.countSent p s.queue (body.length + 4)).count (portCtr p 9) 1).countDrop p reason
    let d3 := (d2.put (F.QSC_STOMP_reason p) reason).fault (R.QSC_EVENT p) 1 E.QSC_STOMP p
    (d3.candidate (frameCandidate f p s.queue 2 reason s.copy.cells s.tx)).consumeCopy s.copy.frame p true true

/-- The preempted copy of a port ends stomped. -/
def Dev.stompSuspended (p reason : Nat) (upTo : Option Nat) (d : Dev) : Dev :=
  match Sparse.get? d.qsc.suspended p with
  | none => d
  | some s =>
    let running := d.sendingOn p
    let d1 := ((d.setSuspended p none).setSending p (some s)).stomp p reason upTo
    d1.setSending p running

/-- A frame turns out bad, from byte `upTo` on (R254, R255): its copies in transmission are stomped, its queued copies dropped under
the reason, which may bare an express copy (R252); a frame whose action is still out is dropped when the action comes. -/
def Dev.frameBadAt (i reason : Nat) (upTo : Option Nat) (d : Dev) : Dev :=
  let f := d.frame i
  let d1 := d.setFrame i { f with bad := reason }
  let d2 := Dev.each (f.copies.map (·.port)) (fun p e =>
    let a := match e.sendingOn p with
      | some s => if s.copy.holder.isNone ∧ s.copy.frame = i then e.stomp p reason upTo else e
      | none => e
    match Sparse.get? a.qsc.suspended p with
    | some s => if s.copy.holder.isNone ∧ s.copy.frame = i then a.stompSuspended p reason upTo else a
    | none => a) d1
  let d3 := if (d2.frame? i).isSome then d2.dropQueued i reason else d2
  Dev.each (f.copies.map (·.port)) Dev.preemptCheck d3

/-- A frame turns out bad at its end. -/
def Dev.frameBad (i reason : Nat) (d : Dev) : Dev := d.frameBadAt i reason none

/-! ### The receive rings of port 64 -/

/-- The 16-byte stamp header of R303. -/
def stampHeader (f : Frame) : List Byte :=
  let flags := bit f.rx.valid + 2 * bit (f.auth == Auth.passed || f.auth == Auth.failed) + 4 * bit (f.auth == Auth.passed)
  leBytes 2 (fracOf f.rx.t) ++ leBytes 4 (nsOf f.rx.t) ++ leBytes 6 (secOf f.rx.t) ++
    [BitVec.ofNat 8 f.port, BitVec.ofNat 8 f.rx.epoch, BitVec.ofNat 8 flags, 0]

/-- A frame's bytes spread over the buffers of receive descriptors, each filled before the next is begun (R114). -/
def spread : List Desc → List Byte → List (Desc × List Byte)
  | [], _ => []
  | x :: xs, bs => if bs.length ≤ x.len then [(x, bs)] else (x, bs.take x.len) :: spread xs (bs.drop x.len)

/-- Delivery to receive ring `q` of port 64 (R114, R303): the bytes with their stamp header go to the buffers of the descriptors from
the head on, of which the ring has a frame take as many as it needs; each gets the bytes written, done, start, end and error marks,
the ingress port and the reason, and the head advances. What the ring's descriptors cannot hold is lost, and the last bears the error
mark. -/
def Dev.deliver (q : Nat) (descs : List Desc) (f : Frame) (bs : List Byte) (d : Dev) : Dev :=
  let n := ringLen (d.get (F.HIF_RXR_SIZE_log2 q))
  let head := d.get (F.HIF_RXR_HEAD q) % n
  let room := (d.get (F.HIF_RXR_TAIL q) % n + n - head) % n
  let hdr := if d.flag F.TBS_CTRL_rx_hdr then stampHeader f else []
  let parts := spread (descs.take room) (hdr ++ bs)
  if !d.ringFree q then d
  else
    let lost := decide ((parts.map (·.2.length)).sum < (hdr ++ bs).length)
    let word := f.port + 65536 * (f.act.getD {}).reason
    let one := fun (j : Nat) (e : Dev) =>
      let x := nthD parts j ({}, [])
      let ends := j + 1 == parts.length
      let flags := 1 + 2 * bit (ends && lost) + 4 * bit (j == 0) + 8 * bit ends
      (e.emit (.dma x.1.addr x.2)).emit (.descriptor q ((head + j) % n) (leBytes 2 x.2.length ++ leBytes 2 flags ++ leBytes 4 word))
    ((Dev.each (List.range parts.length) one d).put (F.HIF_RXR_HEAD q) ((head + parts.length) % n)).completed (8 + q) parts.length

/-- The delay sample of a copy (R210). It is cut to whole 1/256 ns, and a negative difference gives 0: DESIGN CHOICE (log entry 98). -/
def Dev.delaySample (f : Frame) (tx : Stamp) (d : Dev) : Dev :=
  match f.act.bind (·.ctx) with
  | none => d
  | some n =>
    if !f.rx.valid ∨ !tx.valid ∨ field (d.dword (ctxAddr n)) 31 1 = 0 ∨ d.poisoned (ctxAddr n) then d
    else
      let v := min (2 ^ 32 - 1) ((tx.t - f.rx.t) / 256)
      let a := ctxAddr n
      let d1 := ((d.storeDword (a + 16) v).storeDword (a + 20) (min v (d.dword (a + 20)))).storeDword (a + 24)
        (max v (d.dword (a + 24)))
      let sum := min (2 ^ 64 - 1) (leNat (d.bytes (a + 32) 8) + v)
      (d1.ctxAdd n 7 1).store (a + 32) (leBytes 8 sum)

/-- The last byte of the copy in transmission leaves (R210, R233, R243, R475): what was debited too much is credited, the
copy is counted, sampled, captured, delivered to the descriptors fetched or sent, and consumed. A copy whose frame has not all
arrived goes on. -/
def Dev.transmitDone (p : Nat) (descs : List Desc) (d : Dev) : Dev :=
  match d.sendingOn p with
  | none => d
  | some s =>
    match s.copy.holder with
    | some bs =>
      let body := d.wireBytes p s true none
      let d1 := (d.setSending p none).sendOut p (body ++ fcs body)
      ((d1.countSent p s.queue (body.length + 4)).candidate
        (holderCandidate p s.queue 4 0 s.copy.flow s.tx bs))
    | none =>
      let f := d.frame s.copy.frame
      if !f.complete ∨ f.bad ≠ 0 then d
      else
        let body := d.wireBytes p s true none
        let out := body ++ fcs body
        let d1 := d.setSending p none
        let d2 := if p = 64 then d1.deliver s.queue descs f out else d1.sendOut p out
        let d3 := d2.settleDebit p s f.bytes.length
        let d4 := (d3.countSent p s.queue out.length).delaySample f s.tx
        let kind := if s.copy.late then 3 else 0
        (d4.candidate (frameCandidate f p s.queue kind 0 s.copy.cells s.tx)).consumeCopy s.copy.frame p true true

/-! ### The start of a transmission -/

/-- A packet-memory error met as a copy is read (R215): a corrected one is counted, an uncorrectable one is captured
and raised. -/
def Dev.packetError (cell : Nat) (double : Bool) (d : Dev) : Dev :=
  if double then
    ((d.put F.BPM_MEM_UNCORR_CELL cell).event R.BPM_EVENT 5).raise (E.MEM_UNCORR 0) cell
  else ((d.sat F.BPM_MEM_CORR_CNT 1).event R.BPM_EVENT 4).raise (E.MEM_CORR 0) cell

/-- The copy starts on the port: deficit, stamp, PTP correction count, stamp entry, MACsec (R243, R295, R297, R299, R455). -/
def Dev.startCopy (p q : Nat) (c : Copy) (bits : Nat) (d : Dev) : Dev :=
  let len := d.copyLen c
  let debit := if hasBit (d.get (F.QSC_SCHED_strict p)) q then 0 else len
  let tx := d.txStamp p bits
  let s0 : Sending := { copy := c, queue := q, tx := tx, debit := debit, pmac := d.preemptable p q }
  let d0 := d.setDeficit p q (d.deficit p q - debit)
  let clear := match c.holder with
    | some bs => bs
    | none => (d.frame c.frame).bytes
  match d0.txTag p clear with
  | .drop r sa =>
    let d1 := d0.when (r == 0x3C) (Dev.noSa p sa)
    (d1.setDeficit p q (d1.deficit p q + debit)).discard p q r c
  | tag =>
    let s := match tag with | .secure i j pn => { s0 with sa := some (i, j, pn) } | _ => s0
    let d1 := match tag with | .secure i j pn => d0.txProtect i j pn | _ => d0
    match c.holder with
    | some _ => d1.setSending p (some s)
    | none =>
      let f := d1.frame c.frame
      let d2 := (d1.setSending p (some s)).when (d1.skipped f p tx) (Dev.count (portCtr p 11) 1)
      d2.when f.wantsStamp (Dev.pushStamp ⟨f.tsId, p, tx, true⟩)

/-- The largest frame the device sends on a tunnel port (R170): the lesser of RLK_TUN_MAX_n and 64 times the partner's
capability byte 3. -/
def Dev.tunnelLimit (d : Dev) (p : Nat) : Nat := min (d.maxFrame p) (64 * ((d.word (R.RLK_PARTNER_CAP (p - 65))).toNat % 256))

/-- What protection adds to a frame (R455): a SecTAG of 8 B, or 16 B with its SCI, and an ICV of 16 B. -/
def Dev.secLen (d : Dev) (p : Nat) (bs : List Byte) : Nat :=
  match d.txTag p bs with
  | .secure _ _ _ => if d.flag (F.MSC_PORT_CFG_sci p) then 32 else 24
  | _ => 0

/-- The length a copy has as it is sent (R170, R541): with the tag its action pushes or without the one it pops, at least 64 B, and with
the SecTAG and the ICV of its protection. -/
def Dev.sentLen (d : Dev) (p : Nat) (c : Copy) : Nat :=
  let f := d.frame c.frame
  let clear := match c.holder with
    | some bs => bs
    | none => f.bytes
  let n := match c.holder with
    | some bs => bs.length
    | none => max 64 ((d.copyLen c : Int) + vlanShift (f.act.getD {}) f.bytes).toNat
  n + d.secLen p clear

/-- A copy's buffers are read as it starts (R215): `ecc` is an error met, in the frame's 256-bit word of that number, `true` for two
bits. A word once found uncorrectable stays so for every other copy; the frame is bad from there on. -/
def Dev.readCopy (i : Nat) (ecc : Option (Nat × Bool)) (d : Dev) : Dev :=
  let f := d.frame i
  let d1 := match ecc.bind (fun x => (d.frameWord f x.1).map (fun a => (a, x.2))) with
    | some (a, true) => { d with bpm := { d.bpm with spoiled := addOnce a d.bpm.spoiled } }
    | some (a, false) => d.packetError (a / 8) false
    | none => d
  match d1.badWord f with
  | none => d1
  | some w => (d1.packetError ((d1.frameWord f w).getD 0 / 8) true).frameBadAt i 0x28 (some (32 * w))

/-- A copy leaves its queue and starts (R242), or meets a drop as it does: a tunnel frame too long (R170), an
uncorrectable packet-memory error (R215). -/
def Dev.launchHead (p q bits : Nat) (ecc : Option (Nat × Bool)) (d : Dev) : Dev :=
  match d.queue p q with
  | [] => d
  | c :: rest =>
    let d0 := (d.setQueue p q rest).turnSync p
    if 64 < p ∧ d.tunnelLimit p < d.sentLen p c then (d0.count (portCtr p 6) 1).discard p q 0x34 c
    else
      let d1 := d0.startCopy p q c bits
      if c.holder.isSome ∨ (d1.sendingOn p).isNone then d1 else d1.readCopy c.frame ecc

/-- A frame the device inserts ahead of its queues (R313, R419): sent as it is, protected, or dropped, as R454 has it. -/
def Dev.insertFrame (p : Nat) (bs : List Byte) (d : Dev) : Dev :=
  match d.txTag p bs with
  | .plain => (d.onLine p (.report p bs)).when (decide (64 < p)) (Dev.tunnelOut (p - 65) bs true)
  | .drop r sa => (d.when (r == 0x3C) (Dev.noSa p sa)).countDrop p r
  | .secure i j pn =>
    let body := macsecSeal (d.saUse p i j pn) (d.flag (F.MSC_PORT_CFG_sci p)) (bs.take (bs.length - 4))
    (d.txProtect i j pn).onLine p (.report p (body ++ fcs body))

/-! ### The frame boundary -/

/-- Late heads and heads that fit no window meet their policies until none is left (R249, R258). -/
def Dev.settleLate (p : Nat) : Nat → Dev → Dev
  | 0, d => d
  | n + 1, d =>
    if (List.range 8).any (fun q => match d.queue p q with | c :: _ => d.isLate p c || d.fitsNever p q c | [] => false)
    then Dev.settleLate p n ((d.lateHeads p).oversizeHeads p)
    else d

/-- The copies waiting on a port. -/
def Dev.waitingOn (d : Dev) (p : Nat) : Nat := ((List.range 8).map (fun q => (d.queue p q).length)).sum

/-- The queues of a port before a copy is chosen: a port that stands by drops every copy with reason 0x38 (R407), else late heads and
heads that fit no window meet their policies. -/
def Dev.settleHeads (p : Nat) (d : Dev) : Dev :=
  if d.standsBy p then d.flushPort p 0x38 else d.settleLate p (d.waitingOn p)

/-- A frame boundary of a port (R242, R243, R252): with no copy in transmission, the scheduler's queue sends its head;
with none eligible, a preempted copy resumes. -/
def Dev.frameBoundary (p bits : Nat) (ecc : Option (Nat × Bool)) (d : Dev) : Dev :=
  if (d.sendingOn p).isSome ∨ !d.portReady p ∨ !d.flag F.TOP_READY_qsc then d
  else
    let d0 := d.settleHeads p
    let (pick, d1) := d0.schedule p
    match pick with
    | some q => d1.launchHead p q bits ecc
    | none =>
      match d1.mayResume p with
      | some s => (d1.setSuspended p none).setSending p (some s)
      | none => d1

/-! ### Timed launch -/

/-- The queues of a port whose head carries a launch time that is not yet late, with that time. -/
def Dev.timedHeads (d : Dev) (p : Nat) : List (Nat × Nat) :=
  (List.range 8).filterMap (fun q =>
    match d.queue p q with
    | c :: _ => if d.isLate p c then none else (c.launchOn p).map (fun t => (t, q))
    | [] => none)

/-- The timed copy to start (Table QSC-4), as launch time and queue: the earliest launch time, ties to the higher queue. -/
def Dev.timedPick (d : Dev) (p : Nat) : Option (Nat × Nat) :=
  ((d.timedHeads p).foldl (fun l x => insertBy (fun a b => a.1 < b.1 || (a.1 == b.1 && b.2 < a.2)) x l) []).head?

/-- A copy at the head of queue `q` can start now (R249, R251, R254): the port is free and has link, the copy has arrived, its gate is
open, the guard passes, and its MAC is not held. -/
def Dev.canStart (d : Dev) (p q : Nat) (c : Copy) : Bool :=
  (d.sendingOn p).isNone && d.portReady p && d.arrived c && hasBit (d.gateMask p) q && d.guardOk p q c &&
    !(d.preemptable p q && (d.qsc.heldMac.contains p || (Sparse.get? d.qsc.suspended p).isSome))

/-- How far before its launch time the first bit of a copy may leave (Table QSC-3): not at all on a tunnel port. -/
def Dev.launchEarly (d : Dev) (p : Nat) : Nat := if p < 64 then d.launchLimit p else 0

/-- The instant at which the first preamble bit of a frame that starts now is at the egress balls: 56 bits before its SFD; on a
tunnel port that of its K27.7 (R256, R288). -/
def Dev.firstBit (d : Dev) (p bits : Nat) : Nat :=
  (d.txStamp p bits).t - (if p < 64 then 56 * 1000 * 65536 / max 1 (d.speed p) else 0)

/-- The earliest launch time among the heads of a port arrives (R256–R258): once the first bit would lie within the limit of Table
QSC-3, the copy starts if it can, a preemptable copy yielding to an express queue; if it cannot as its time comes, or its first bit
would lie beyond the limit, it is late. Heads past their limit are late; without TOP_READY.time every timed copy is. A head kept
without its launch time may preempt (R252). -/
def Dev.timedLaunch (p bits : Nat) (ecc : Option (Nat × Bool)) (d : Dev) : Dev :=
  let d0 := d.settleHeads p
  match d0.timedPick p with
  | none => d0.preemptCheck p
  | some (t, q) =>
    let first := d0.firstBit p bits
    if first + d0.launchEarly p < t then d0.preemptCheck p
    else if t + d0.launchLimit p < first then (d0.lateHead p q).preemptCheck p
    else
      let d1 := (d0.leaveL1 p).when (d0.expressQueue p q) (Dev.preempt p)
      match d1.queue p q with
      | [] => d1
      | c :: _ =>
        if d1.canStart p q c then d1.launchHead p q bits ecc
        else if first < t then d0.preemptCheck p
        else (d0.lateHead p q).preemptCheck p

/-! ### Gates -/

/-- The entry of a list in force at the present instant: the last that has begun in the cycle (R246). -/
def Dev.entryNow (d : Dev) (p : Nat) (g : Gcl) : Option Nat :=
  (((d.gclPlan p g).filter (fun x => decide (x.2 ≤ g.phase d.nowNs))).getLast?).map (·.1)

/-- The operational list of a port that runs or, held since a warm reset, has come to its cycle start (R266). -/
def Dev.runningList (d : Dev) (p : Nat) : Option Gcl :=
  if d.timeReady then (Sparse.get? d.qsc.oper p).filter (fun g => !g.held || decide (g.due ≤ d.nowNs)) else none

/-- Entry `e` of the operational list takes effect, if it is the one in force at this instant of the time base (R246, R249, R251): gate
states, the hold or release of the preemptable MAC, and the preemption that follows. The lanes of the port leave L1 (R133). -/
def Dev.gateEntry (p e : Nat) (d : Dev) : Dev :=
  match d.runningList p with
  | none => d
  | some g =>
    if d.entryNow p g ≠ some e then d
    else
      let states := d.gateStates p g.bank e
      let op := d.gateOp p g.bank e
      let held := if op = 1 then addOnce p d.qsc.heldMac else if op = 2 then d.qsc.heldMac.filter (· != p)
        else d.qsc.heldMac
      let d1 := { d with qsc := { d.qsc with
        oper := Sparse.put d.qsc.oper p { g with held := false }, gates := Sparse.put d.qsc.gates p states, heldMac := held } }
      let d2 := (d1.put (F.QSC_GCL_STATUS_entry p) e).leaveL1 p
      let closed := match d2.sendingOn p with | some s => !hasBit states s.queue | none => false
      ((d2.turnSync p).when (op == 1 || closed) (Dev.preempt p)).preemptCheck p

/-- The first cycle start of a list at or after an instant in ns, of all cycle starts base + n × cycle with n any integer (R246,
R247). -/
def cycleStart (base cycle now : Nat) : Nat :=
  if now ≤ base then base - (base - now) / cycle * cycle else base + ((now - base) + cycle - 1) / cycle * cycle

/-- The present instant in whole nanoseconds, rounded up: a cycle start at or after an edge lies at or after it (R247). -/
def Dev.nowNsUp (d : Dev) : Nat := (d.tbs.tb + unitsPerNs - 1) / unitsPerNs

/-- After a warm reset the operational list of a port waits for its next cycle start (R266). -/
def Dev.resumeList (p : Nat) (d : Dev) : Dev :=
  match Sparse.get? d.qsc.oper p with
  | none => d
  | some g => { d with qsc := { d.qsc with
      oper := Sparse.put d.qsc.oper p { g with due := cycleStart g.base g.cycle d.nowNsUp, held := true }
      gates := Sparse.del d.qsc.gates p } }

/-- A firing that reaches a port's gate registers (R247). -/
def Dev.gclFire (p : Nat) (d : Dev) : Dev :=
  let enable := d.flag (F.QSC_GCL_CTRL_enable p)
  let len := min 256 (d.get (F.QSC_GCL_CTRL_len p))
  let ns := d.get (F.QSC_GCL_BASE_NS p)
  let sec := d.get (F.QSC_GCL_BASE_SEC_LO p) + 2 ^ 32 * d.get (F.QSC_GCL_BASE_SEC_HI p)
  let cycle := d.get (F.QSC_GCL_CYCLE p)
  if !enable then
    let d1 := { d with qsc := { d.qsc with oper := Sparse.del d.qsc.oper p, pend := Sparse.del d.qsc.pend p
                                           gates := Sparse.del d.qsc.gates p
                                           heldMac := d.qsc.heldMac.filter (· != p) } }
    (((d1.put (F.QSC_GCL_STATUS_pending p) 0).put (F.QSC_GCL_STATUS_running p) 0).leaveL1 p).preemptCheck p
  else if len = 0 ∨ cycle < 100 ∨ 1000000000 ≤ ns then d.fault (R.QSC_EVENT p) 3 E.QSC_GCL_ERR p
  else
    let base := sec * 1000000000 + ns
    let g : Gcl := { bank := d.get (F.QSC_GCL_CTRL_admin_bank p), len := len, base := base, cycle := cycle
                     due := cycleStart base cycle d.nowNsUp }
    { d with qsc := { d.qsc with pend := Sparse.put d.qsc.pend p g } }.put (F.QSC_GCL_STATUS_pending p) 1

/-- The pending list becomes operational once its first cycle start has come (R247), and its first entry takes
effect. -/
def Dev.gclSwitch (p : Nat) (d : Dev) : Dev :=
  match Sparse.get? d.qsc.pend p with
  | none => d
  | some g =>
    if !d.timeReady ∨ d.nowNs < g.due then d
    else
      let d1 := { d with qsc := { d.qsc with oper := Sparse.put d.qsc.oper p g, pend := Sparse.del d.qsc.pend p } }
      let d2 := ((d1.put (F.QSC_GCL_STATUS_pending p) 0).put (F.QSC_GCL_STATUS_running p) 1).put
        (F.QSC_GCL_STATUS_oper_bank p) g.bank
      (d2.event (R.QSC_EVENT p) 2).gateEntry p ((d2.entryNow p g).getD 0)

/-- Preemption is active on an Ethernet port while enable is 1 and verify_state reads succeeded or disabled (R250). -/
def Dev.syncPreempt (p : Nat) (d : Dev) : Dev :=
  let v := d.get (F.QSC_PREEMPT_verify_state p)
  d.put (F.QSC_PREEMPT_active p) (bit (decide (p < 64) && d.flag (F.QSC_PREEMPT_enable p) && (v == 2 || v == 4)))

/-- QSC_PREEMPT_p as a write, an image or a reset leaves it (R250, R251): the procedure starts, is skipped, or is off. -/
def Dev.preemptWrite (p : Nat) (d : Dev) : Dev :=
  let v := if 64 ≤ p then 0
    else if !d.flag (F.QSC_PREEMPT_enable p) then 0
    else if d.flag (F.QSC_PREEMPT_verify_dis p) then 4
    else if d.get (F.QSC_PREEMPT_verify_state p) = 0 ∨ d.get (F.QSC_PREEMPT_verify_state p) = 4 then 1
    else d.get (F.QSC_PREEMPT_verify_state p)
  (d.put (F.QSC_PREEMPT_verify_state p) v).syncPreempt p

/-- The verify procedure runs and ends (R250). -/
def Dev.preemptVerify (p : Nat) (ok : Bool) (d : Dev) : Dev :=
  if 64 ≤ p ∨ !d.flag (F.QSC_PREEMPT_enable p) ∨ d.flag (F.QSC_PREEMPT_verify_dis p) ∨ !d.portReady p then d
  else ((d.put (F.QSC_PREEMPT_verify_state p) (if ok then 2 else 3)).when (!ok) (Dev.event (R.QSC_EVENT p) 4)).syncPreempt p

end Sys2Proof.Machine
end

