-- ==== Sys2Proof/Machine/Admit.lean ====
section
/-! DEFINITION. Admission of copies to their queues (R227, R231–R237, R253, R259, R475) and the stream keeper
(R260–R264). -/

namespace Sys2Proof.Machine

/-! ### The stream keeper -/

/-- The address of stream keeper flow `n` (Table QSC-5). -/
def flowAddr (n : Nat) : Nat := flowBase + 32 * n

/-- A dword of a flow entry. -/
def Dev.flowWord (d : Dev) (n k : Nat) : Nat := d.dword (flowAddr n + 4 * k)

/-- A dword of a flow entry set by the device. -/
def Dev.setFlowWord (n k v : Nat) (d : Dev) : Dev := d.storeDword (flowAddr n + 4 * k) v

abbrev Sk.idle : Nat := 0
abbrev Sk.running : Nat := 1
abbrev Sk.filling : Nat := 2
abbrev Sk.ramped : Nat := 3

/-- The state of a flow. -/
def Dev.skState (d : Dev) (n : Nat) : Nat := field (d.flowWord n 0) 28 2

/-- The state of a flow set; QSC_SK_FILLING counts the flows in filling. -/
def Dev.setSkState (n s : Nat) (d : Dev) : Dev :=
  let old := d.skState n
  let w := d.flowWord n 0
  let d1 := d.setFlowWord n 0 (w - old * 2 ^ 28 + s * 2 ^ 28)
  let c := d.get F.QSC_SK_FILLING
  d1.put F.QSC_SK_FILLING (c + bit (s == Sk.filling) - bit (old == Sk.filling))

/-- A keeper event, with the flow in QSC_SK_LAST. -/
def Dev.skEvent (i n : Nat) (d : Dev) : Dev := (d.event R.QSC_SK_EVENT i).put F.QSC_SK_LAST n

/-- The due time of a flow in units of 1/16 ns, of the 32 bits of seconds it holds. -/
def Dev.skDue (d : Dev) (n : Nat) : Nat :=
  (d.flowWord n 5 * 1000000000 + field (d.flowWord n 4) 0 30) * 16 + field (d.flowWord n 6) 28 4

/-- The due time of a flow set. -/
def Dev.setSkDue (n t : Nat) (d : Dev) : Dev :=
  let ns := t / 16
  let w6 := d.flowWord n 6
  ((d.setFlowWord n 4 (ns % 1000000000)).setFlowWord n 5 (ns / 1000000000 % 2 ^ 32)).setFlowWord n 6
    (w6 % 2 ^ 28 + t % 16 * 2 ^ 28)

/-- The flow may run: its entry and the keeper are enabled, its port has link and the time base is ready
(Table QSC-6). -/
def Dev.skMayRun (d : Dev) (n : Nat) : Bool :=
  let w := d.flowWord n 0
  field w 31 1 == 1 && !d.poisoned (flowAddr n) && d.flag F.QSC_SK_CTRL_enable && d.timeReady &&
    d.portReady (field w 0 7)

/-- The time base in units of 1/16 ns, of the low 32 bits of its seconds. -/
def Dev.skNow (d : Dev) : Nat := (secOf d.now % 2 ^ 32 * 1000000000 + nsOf d.now) * 16 + fracOf d.now / 4096

/-- A real frame of flow `n` enqueued on the watched queue (R261). -/
def Dev.skReal (n p q : Nat) (f : Frame) (d : Dev) : Dev :=
  let w := d.flowWord n 0
  if field w 0 7 ≠ p ∨ field w 8 3 ≠ q ∨ !d.skMayRun n then d
  else
    let rx := (secOf f.rx.t % 2 ^ 32 * 1000000000 + nsOf f.rx.t) * 16 + fracOf f.rx.t / 4096
    let d1 := d.setSkDue n (rx + max 16 (d.flowWord n 1))
    let w6 := d1.flowWord n 6
    let seq := (d.parsed f).seqId
    -- fill_count counts since the last real frame (Table QSC-5)
    let d2 := match seq with
      | some s => d1.setFlowWord n 6 (w6 / 2 ^ 25 * 2 ^ 25 + 2 ^ 24 + (s + 1) % 256 * 2 ^ 16)
      | none => d1.setFlowWord n 6 (w6 / 2 ^ 16 * 2 ^ 16)
    let resumed := d.skState n == Sk.filling || d.skState n == Sk.ramped
    (d2.when resumed (Dev.skEvent 2 n)).setSkState n Sk.running

/-- The placeholder of a flow (R264), or none where its template is not valid or its length out of range. -/
def Dev.placeholder (d : Dev) (n : Nat) : Option (List Byte) :=
  let t := field (d.flowWord n 0) 16 8
  let desc := tmplBase + 16 * t
  let len := field (d.dword desc) 0 12
  if field (d.dword (desc + 12)) 31 1 = 0 ∨ len < 64 ∨ 2048 < len ∨ d.poisoned desc then none
  else
    let bs := d.bytes (tmplData + 0x800 * t) len
    let seqOff := field (d.dword desc) 16 12
    let cntOff := field (d.dword (desc + 4)) 0 12
    let step := field (d.dword (desc + 4)) 16 16
    let w6 := d.flowWord n 6
    let b1 := if seqOff ≠ 0xFFF ∧ field w6 24 1 = 1 then patch bs seqOff [BitVec.ofNat 8 (field w6 16 8)] else bs
    let b2 := if cntOff ≠ 0xFFF then
        patch b1 cntOff (beBytes 2 ((octets b1 cntOff 2 + field w6 0 16 * step) % 65536)) else b1
    some (withFcs b2)

/-- A launch time in 1/65,536 ns from a due time in 1/16 ns whose seconds are those of the entry: the seconds above
them are the time base's. -/
def Dev.skLaunch (d : Dev) (t : Nat) : Nat := secOf d.now / 2 ^ 32 * 2 ^ 32 * 1000000000 * 65536 + t * 4096

/-- A launch time lies further ahead than the horizon of a port (R259); while the time base is not ready every timed copy is late
instead (R28). -/
def Dev.beyondHorizon (d : Dev) (p : Nat) (launch : Option Nat) : Bool :=
  let horizon := d.get (F.QSC_LAUNCH_horizon p) * 8000 * 65536
  match launch with
  | some t => p != 64 && horizon != 0 && d.timeReady && decide (d.now + horizon < t)
  | none => false

/-- A placeholder meets its queue as any copy does (R259, R262, R263): dropped on a port that stands by (R407) and beyond the
horizon, else at the tail, where it may make an express queue eligible (R252). -/
def Dev.placeCopy (p q : Nat) (c : Copy) (d : Dev) : Dev :=
  if d.standsBy p then d.discard p q 0x38 c
  else if d.beyondHorizon p c.launch then d.discard p q 0x31 c else (d.enqueue p q c).preemptCheck p

/-- The flows that may no longer run go to idle (Table QSC-6). -/
def Dev.skSettle (d : Dev) : Dev :=
  let busy := d.mem.filterMap (fun c =>
    if flowBase ≤ c.1 ∧ c.1 < flowBase + 32 * 4096 ∧ c.1 % 32 = 3 then some ((c.1 - flowBase) / 32) else none)
  Dev.each (busy.filter (fun n => d.skState n != Sk.idle && !d.skMayRun n)) (fun n e => e.setSkState n Sk.idle) d

/-- A visit of the keeper to flow `n` (R261, R262). -/
def Dev.skVisitFlow (n : Nat) (d : Dev) : Dev :=
  let s := d.skState n
  if !d.skMayRun n then (if s = Sk.idle then d else d.setSkState n Sk.idle)
  else if s ≠ Sk.running ∧ s ≠ Sk.filling then d
  else
    let due := d.skDue n
    let count := field (d.flowWord n 6) 0 16
    let maxFill := field (d.flowWord n 2) 16 16
    let grace := field (d.flowWord n 2) 0 16
    if maxFill ≤ count ∧ due ≤ d.skNow then (d.setSkState n Sk.ramped).fault R.QSC_SK_EVENT 1 E.QSC_SK_EXHAUSTED n
      |>.put F.QSC_SK_LAST n
    else if d.skNow < due + 16 * grace ∨ maxFill ≤ count then d
    else
      match d.placeholder n with
      | none => ((d.setSkState n Sk.ramped).fault R.QSC_SK_EVENT 3 E.QSC_SK_TEMPLATE_ERR n).put F.QSC_SK_LAST n
      | some bs =>
        let w := d.flowWord n 0
        let p := field w 0 7
        let q := field w 8 3
        let off := d.flowWord n 3
        let c : Copy := { holder := some bs, flow := n, launch := if off = 0 then none else some (d.skLaunch (due + off)) }
        let d1 := (d.placeCopy p q c).count (devCtr 0) 1
        let d2 := d1.setSkDue n (due + max 16 (d1.flowWord n 1))
        let w6 := d2.flowWord n 6
        let w6' := w6 / 2 ^ 24 * 2 ^ 24 + (field w6 16 8 + 1) % 256 * 2 ^ 16 + (count + 1) % 65536
        let d3 := (d2.setFlowWord n 6 w6').setFlowWord n 7 (min (2 ^ 32 - 1) (d2.flowWord n 7 + 1))
        if s = Sk.running then (d3.setSkState n Sk.filling).skEvent 0 n else d3

/-- The keeper visits its next flow, each in ascending order (R262), while TOP_READY.qsc is 1 (R66). -/
def Dev.skVisit (d : Dev) : Dev :=
  if !d.flag F.TOP_READY_qsc then d
  else
    let n := d.qsc.skVisit % 4096
    let d1 := d.skVisitFlow n
    { d1 with qsc := { d1.qsc with skVisit := (n + 1) % 4096 } }

/-- The flows a port watches, set idle (R422, Table QSC-6). -/
def Dev.skIdlePort (p : Nat) (d : Dev) : Dev :=
  Dev.each (List.range 4096) (fun n e =>
    if e.skState n ≠ Sk.idle ∧ field (e.flowWord n 0) 0 7 = p then e.setSkState n Sk.idle else e) d

/-! ### Admission -/

/-- The action is enqueued with its first admitted copy (R227): the tag goes to the egress owner, and the copies refused
before it count at their own ports (R235, R475). -/
def Dev.enqueueAction (i : Nat) (d : Dev) : Dev :=
  let f := d.frame i
  if f.enq then d
  else
    let d1 := (d.retag f (ownerTag f.lastOwner 1) f.mcast).setFrame i { f with enq := true, refused := [] }
    Dev.each f.refused (fun p e =>
      ((e.countDrop p 0x23).candidate (frameCandidate f p (f.act.getD {}).cls 1 0x23 0 (e.stampAt e.now))).unsentStamp f
        p) d1

/-- A copy refused for its queue's limit (R235): once a copy of the frame stands it is dropped at its own port; before
that it is set down as refused, and ownership passes on. -/
def Dev.refuse (i p q : Nat) (d : Dev) : Dev :=
  let f := d.frame i
  if f.enq then d.dropCopy i p q 0x23 0 false
  else
    let f1 := f.consume p false
    let owner := (f1.open_.getLast?.map (·.port)).getD f.lastOwner
    d.setFrame i { f1 with refused := f.refused ++ [p], lastOwner := if f.lastOwner = p then owner else f.lastOwner }

/-- The mode of a copy (R253): cut-through only where each of its conditions holds. -/
def Dev.isCutThrough (d : Dev) (f : Frame) (p : Nat) : Bool :=
  f.port < 64 && p < 64 && (f.express || hasBit (d.get (F.QSC_FWD_MODE_ct f.port)) f.cls) &&
    d.speed p ≤ d.speed f.port && !f.fragments && !f.ptpHold &&
    !(match d.ptpOf f with
      | some o => ptpType f.bytes o ≤ 3 && !d.flag (F.TBS_PTP_CFG_tc_auth p) && decide (128 < o + ptpLength f.bytes o)
      | none => false)

/-- The limit of a queue in cells, larger values acting as 294,912 (Table BPM-8). -/
def Dev.queueLimit (d : Dev) (p q : Nat) : Nat := min 294912 (d.get (F.BPM_QLIM_limit p q))

/-- One copy created: refused, dropped, or admitted to its queue (R56, R235–R237, R244, R253, R259, R407). A copy of a frame that
has turned out bad is dropped with the frame's reason as it is admitted (R254, R255). -/
def Dev.createCopy (i : Nat) (c : CopyRef) (d : Dev) : Dev :=
  let f := d.frame i
  let p := c.port
  let q := c.queue
  let drop := fun (r : Nat) (e : Dev) => (e.enqueueAction i).dropCopy i p q r 0 false
  if d.quiescing (portGroup p) then drop 0x24 d
  else if d.queueLimit p q < d.get (F.BPM_QCELLS p q) + f.cells then d.refuse i p q
  else if !d.portReady p then drop (if p = 64 then 0x27 else 0x25) d
  else if d.standsBy p then drop 0x38 d
  else
    let act := f.act.getD {}
    if d.beyondHorizon p act.launch then drop 0x31 d
    else if f.bad ≠ 0 then drop f.bad d
    else
      let d1 := d.enqueueAction i
      let f1 := d1.frame i
      let made := markFirst (fun x => x.port == p && !x.created && !x.consumed) (fun x => { x with created := true }) f1.copies
      let d2 := (d1.setFrame i { f1 with copies := made })
        |>.addCells p q f.cells
      let cells := d2.get (F.BPM_QCELLS p q)
      let copy : Copy := { frame := i, launch := act.launch, ct := d2.isCutThrough f p
                           marked := decide (d2.get (F.BPM_QMARK_thresh p q) < cells), cells := cells }
      let d3 := d2.enqueue p q copy
      let d4 := match act.ctx with | some n => d3.skReal n p q f | none => d3
      d4.preemptCheck p

/-- A frame every copy of which was refused (R228, R235): dropped before enqueue with reason 0x23, its buffer freed by
its ingress port, each stamp request answered (R301). -/
def Dev.allRefused (i : Nat) (d : Dev) : Dev :=
  let f := d.frame i
  let d1 := (d.countDrop f.port 0x23).candidate (frameCandidate f 0x7F f.cls 1 0x23 0 (d.stampAt d.now))
  (Dev.each f.refused (fun p e => e.unsentStamp f p) d1).freeFrame i f.port 0

/-- Up to sixteen further copies of a frame created in consume order (R232); with none left uncreated the frame leaves
the list of those being created. -/
def Dev.createCopies (i : Nat) (d : Dev) : Dev :=
  let todo := (d.frame i).copies.filter (fun c => !c.created && !c.consumed)
  let d1 := Dev.each (todo.take 16) (fun c e => if (e.frame? i).isSome then e.createCopy i c else e) d
  let rest := { d1 with bpm := { d1.bpm with creating := d1.bpm.creating.filter (· != i) } }
  if (d1.frame? i).isNone then rest
  else if 16 < todo.length then { rest with bpm := { rest.bpm with creating := rest.bpm.creating ++ [i] } }
  else rest.when (!(d1.frame i).enq) (Dev.allRefused i)

/-- The oldest frame handed over is taken up (R232, R235), once every copy of the frames before it is created (R183). While
TOP_READY.qsc is 0 no frame is enqueued (R66). -/
def Dev.admitNext (d : Dev) : Dev :=
  if !d.flag F.TOP_READY_qsc ∨ d.bpm.creating ≠ [] then d
  else
    match d.bpm.handed with
    | [] => d
    | i :: rest =>
      let d1 := { d with bpm := { d.bpm with handed := rest } }
      if (d1.frame? i).isNone then d1
      else if (d1.frame i).bad = chainFailed then d1.dropFrame i (d1.frame i).bad
      else d1.createCopies i

/-- The oldest frame whose copies one cycle could not hold goes on (R232). -/
def Dev.createMore (d : Dev) : Dev :=
  if !d.flag F.TOP_READY_qsc then d
  else
    match d.bpm.creating with
    | [] => d
    | i :: rest =>
      if (d.frame? i).isNone then { d with bpm := { d.bpm with creating := rest } } else d.createCopies i

end Sys2Proof.Machine
end

