-- ==== Sys2Proof/Machine/TimeBase.lean ====
section
/-! DEFINITION. The time base and its adjustment (R267–R276), the transmit timestamp queue's pop (R299, R302) and the
TDC channels (R277–R287). -/

namespace Sys2Proof.Machine

/-! ### The grid of a PHX link (R307) -/

/-- Exact units of the grid in 1/65,536 ns. -/
abbrev gridUnits : Nat := 9600

/-- The period G of a link's grid in exact units (R307, Tables HSL-2 and RLK-1). -/
def Dev.gridPeriod (d : Dev) (k : Nat) : Nat :=
  if k < 64 then 65536 * nthD [61440, 24576, 12288, 6144, 6144, 6144] (d.get (F.MAC_CFG_speed k)) 6144
  else 65536 * 78125 / 2 ^ (d.get (F.RLK_STATUS_rate (k - 64)))

/-- The grid phase φ of a link, in exact units below G (R307). -/
def Dev.phi (d : Dev) (k : Nat) : Nat := Sparse.getD d.tbs.phi k 0

/-- The grid phase of a link set, PHX_GRID_k reporting it. -/
def Dev.setPhi (k v : Nat) (d : Dev) : Dev :=
  { d with tbs := { d.tbs with phi := Sparse.put d.tbs.phi k v } }.put (F.PHX_GRID k) (v / gridUnits)

/-- The grid phase of a link moves by `s` of 1/65,536 ns of the time base (R307). -/
def Dev.shiftGrid (s : Int) (k : Nat) (d : Dev) : Dev :=
  d.setPhi k (((d.phi k : Int) + s * gridUnits) % (d.gridPeriod k : Int)).toNat

/-- The grid phase of a link taken anew (R307): a remainder the spec leaves to the instant, so a free value below G. -/
def Dev.regrid (k : Nat) (d : Dev) : Dev :=
  (d.setPhi k (Config.gridPhase d.freshTime % d.gridPeriod k)).drawTime

/-- The links that are not OFF. -/
def Dev.liveLinks (d : Dev) : List Nat := (List.range 80).filter (fun k => d.get (F.PHX_STATUS_state k) != 0)

/-- The links whose grid phase follows the time base (R307): those of enabled ports, and rope lanes in RUN, whatever PHX makes of them. -/
def Dev.gridLinks (d : Dev) : List Nat :=
  (List.range 80).filter (fun k => if k < 64 then d.flag (F.MAC_CFG_enable k) else d.get (F.RLK_STATUS_state (k - 64)) == 5)

/-- A link's state. -/
def Dev.phxOf (d : Dev) (k : Nat) : Phx := Sparse.getD d.phx k {}

/-- A link's state set. -/
def Dev.setPhx (k : Nat) (x : Phx) (d : Dev) : Dev :=
  { d with phx := if x = {} then Sparse.del d.phx k else Sparse.put d.phx k x }

/-- A step of `s` of 1/65,536 ns reaches every link (R307, R308, R314, R318): compensated in its next sample, and the arrival of the last
accepted report moves with it; the grids move. -/
def Dev.stepLinks (s : Int) (d : Dev) : Dev :=
  let d1 := Dev.each d.liveLinks (fun k e =>
    let x := e.phxOf k
    e.setPhx k { x with step := x.step + s * gridUnits, lastAcc := x.lastAcc.map (fun t => ((t : Int) + s).toNat) }) d
  Dev.each d1.gridLinks (Dev.shiftGrid s) d1

/-- A value of an instant brought into (−P/2, P/2] (R331). -/
def wrapHalf (v : Int) (p : Nat) : Int :=
  let r := v % p
  if (p : Int) < 2 * r then r - p else r

/-- The period of a pulse input in ns (R330, Table REF-7). -/
def Dev.pulsePeriod (d : Dev) (i : Nat) : Nat :=
  if d.get (F.REF_IN_CFG_type i) = 2 then max 1000 (min 1000000000 (d.get (F.REF_IN_PERIOD i))) else 1000000000

/-- A step of the time base moves the instants and phases the reference monitors compare (R331, R339, R355), so that a step of the
local time base is no jump of a reference, and the end of a running pulse (R402). DEDUCED: an interval between two events is
not changed by it. -/
def Dev.stepRefs (s : Int) (d : Dev) : Dev :=
  let move := fun (t : Nat) => ((t : Int) + s).toNat
  let r := { d.refs with
    pulses := d.refs.pulses.map (fun p => (p.1, { p.2 with
      last := move p.2.last, times := p.2.times.map move, o := wrapHalf (p.2.o + s) (d.pulsePeriod p.1 * 65536) }))
    lastPost := d.refs.lastPost.map (fun p => (p.1 + s, move p.2))
    posts := d.refs.posts.map (fun p => (p.1 + s, move p.2)) }
  let o := d.pps.map (fun p => (p.1, { p.2 with
    from_ := move p.2.from_, busyTo := p.2.busyTo.map move, realign := p.2.realign.map (fun x => (x.1, move x.2)) }))
  { d with refs := r, pps := o }

/-- The instants the TDC channels measured last, on the time base as a step of `s` of 1/65,536 ns leaves it, so that stamps counted from
them are of the new time (R289, R29); the time-clock edges at which they were measured do not move. -/
def Dev.stepTdc (s : Int) (d : Dev) : Dev :=
  let move := fun (t : Nat) => ((t : Int) + s).toNat
  { d with tdc := d.tdc.map (fun x => (x.1, { x.2 with last := x.2.last.map move, prev := x.2.prev.map move })) }

/-! ### The time base -/

/-- One time-clock period in units of the time base under the feed-forward value, rounded to the nearest unit (R268). -/
def Dev.increment (d : Dev) : Nat := (roundDiv (unitsPerEdge * (10 ^ 12 + d.sget F.TBS_FF)) (10 ^ 12)).toNat

/-- The time base moves by `u` of its units apart from the root (R307): the grid phases follow by whole 1/65,536 ns, the rest is kept. -/
def Dev.moveApart (u : Int) (d : Dev) : Dev :=
  let all := d.tbs.apart + u
  let s := all / (unitsPerNs / 65536 : Nat)
  let d1 := { d with tbs := { d.tbs with apart := all % (unitsPerNs / 65536 : Nat) } }
  if s = 0 then d1 else Dev.each d1.gridLinks (Dev.shiftGrid s) d1

/-- The time base at a value, kept within its 2^48 seconds. -/
def Dev.setTb (v : Nat) (d : Dev) : Dev := { d with tbs := { d.tbs with tb := v % timeWrap } }

/-- Units of the time base in an instant of 1/65,536 ns. -/
abbrev unitsPerFrac : Nat := unitsPerNs / 65536

/-- The remaining slew, TBS_SLEW_LEFT following in whole ns towards 0. -/
def Dev.setSlew (v : Int) (d : Dev) : Dev :=
  { d with tbs := { d.tbs with slew := v } }.put F.TBS_SLEW_LEFT (unsigned 32 (v.tdiv unitsPerNs))

/-- A slew's offset is used up (R276). -/
def Dev.slewEnds (d : Dev) : Dev := ((d.setSlew 0).event R.TBS_EVENT 1).put F.TBS_STATUS_slewing 0

/-- The slew rate, 1–50,000 ns/s (Table TBS-4). -/
def Dev.slewRate (d : Dev) : Nat := max 1 (min 50000 (d.get F.TBS_SLEW_RATE))

/-- The rate's part of a slew at the next edge, the remainder of the edges before it added, in units of 1/1,600,000. -/
def Dev.slewPart (d : Dev) : Nat := d.tbs.slewAcc.toNat + d.slewRate * 2 ^ 40

/-- One edge's share of a slew (R276): the rate's share, its remainder carried, the last part whole. -/
def Dev.slewEdge (d : Dev) : Dev :=
  if !d.flag F.TBS_STATUS_slewing then d
  else
    let acc := d.slewPart
    let share := acc / 1600000
    let left := d.tbs.slew.natAbs
    let step := min share left
    let v : Int := if d.tbs.slew < 0 then -(step : Int) else step
    let d1 := { d with tbs := { d.tbs with slewAcc := (acc % 1600000 : Nat) } }
    let d2 := ((d1.setTb ((d1.tbs.tb : Int) + v).toNat).moveApart v).setSlew (d.tbs.slew - v)
    if step = left then d2.slewEnds else d2

/-- f stops applying (R269). -/
def Dev.ffStop (d : Dev) : Dev :=
  d.when (d.flag F.TBS_STATUS_ff_active) (fun e => ((e.put F.TBS_STATUS_ff_active 0).put F.TBS_FF 0).event R.TBS_EVENT 4)

/-- One edge of the ramp of R374: with the root locked, f moves towards 0 at 100 ppb/s, which is 1 ppt in 6,144 periods of
the time clock. -/
def Dev.rampEdge (d : Dev) : Dev :=
  if !(d.flag F.TBS_STATUS_ff_active && d.flag F.SYN_STATUS_root_lock && d.tbs.edges % 6144 == 0) then d
  else
    let f := d.sget F.TBS_FF
    let d1 := d.sput F.TBS_FF (f - f.sign)
    if f - f.sign = 0 then d1.ffStop else d1

/-- The phase accumulators of the lane synthesizers at one edge of the time clock (R290, R389): 625/384 ns of the 6.4 ns of a 156.25 MHz
reference, two fifths of a 245.76 MHz one. -/
def Dev.synthEdge (d : Dev) : Dev :=
  { d with lanes := { d.lanes with synth := (d.lanes.synth + 3125) % 12288, ropeSynth := (d.lanes.ropeSynth + 2) % 5 } }

/-- One rising edge of the time clock while the time base counts (R268, R271); what feed-forward and a slew move it by, it moves apart
from the root (R307). -/
def Dev.timeEdge (d : Dev) : Dev :=
  let d0 := { d with tbs := { d.tbs with edges := d.tbs.edges + 1 } }
  if !d0.flag F.TBS_STATUS_counting then d0.rampEdge
  else (((d0.setTb (d0.tbs.tb + d0.increment)).moveApart ((d0.increment : Int) - unitsPerEdge)).slewEdge).rampEdge

/-- The whole time base copied to the snapshot registers (R272). -/
def Dev.snap (d : Dev) : Dev :=
  let t := d.now
  let d1 := ((d.put F.TBS_SNAP_FRAC (fracOf t)).put F.TBS_SNAP_NS (nsOf t)).put F.TBS_SNAP_SEC_LO (secOf t)
  ((d1.put F.TBS_SNAP_SEC_HI_sec (secOf t / 2 ^ 32)).put F.TBS_SNAP_SEC_HI_epoch (d1.get F.TBS_STATUS_epoch)).put
    F.TBS_SNAP_snap 0

/-- A calibration ends or is refused with a reason. -/
def Dev.calReason (state reason : Nat) (d : Dev) : Dev :=
  (d.put F.PHX_CAL_STATUS_state state).put F.PHX_CAL_STATUS_reason reason

/-- A running calibration fails with a reason (R323). -/
def Dev.calFail (reason : Nat) (d : Dev) : Dev := (d.calReason 3 reason).event R.PHX_EVENT 1

/-- A running calibration fails as soon as its link leaves TRACK or an epoch changes (R323). -/
def Dev.calCheck (d : Dev) : Dev :=
  if d.get F.PHX_CAL_STATUS_state ≠ 1 then d
  else
    let k := d.phxCal.link
    if d.get (F.PHX_STATUS_state k) ≠ 4 then d.calFail 4
    else if d.get F.TBS_STATUS_epoch ≠ d.phxCal.epoch ∨ d.get (F.PHX_STATUS_partner_epoch k) ≠ d.phxCal.partnerEpoch then
      d.calFail 5
    else d

/-- The armed time of an arm slot in nanoseconds from the zero of the time base (R101). -/
def Dev.armTime (d : Dev) (k : Nat) : Nat :=
  (d.get (F.HIF_ARM_SEC_LO k) + 2 ^ 32 * d.get (F.HIF_ARM_SEC_HI k)) * 1000000000 + d.get (F.HIF_ARM_NS k)

/-- A step to `v` passes the times of some armed slots, which then fire late (R103). -/
def Dev.stepArms (v : Nat) (d : Dev) : Dev :=
  let passed := (List.range 4).filter (fun k =>
    d.flag (F.HIF_ARM_CTRL_enable k) && decide (d.nowNs < d.armTime k) && decide (d.armTime k ≤ v % timeWrap / unitsPerNs))
  { d with host := { d.host with lateArms := passed.foldl (fun l k => addOnce k l) d.host.lateArms } }

/-- A step of the time base (R103, R275, R276): the new value, the epoch, the event; a slew in progress ends with its
remainder discarded; the next snapshot instant is the first after the new value (R481). -/
def Dev.stepTime (v : Nat) (d : Dev) : Dev :=
  let delta := ((v : Int) - d.tbs.tb).tdiv (unitsPerNs / 65536)
  let d0 := (((d.stepLinks delta).stepTdc delta).stepRefs delta).stepArms v
  let d1 := (d0.setTb v).put F.TBS_STATUS_epoch (d.get F.TBS_STATUS_epoch + 1)
  let d2 := d1.fault R.TBS_EVENT 0 E.TBS_STEP 0
  (d2.when (d2.flag F.TBS_STATUS_slewing) (fun e => (e.setSlew 0).put F.TBS_STATUS_slewing 0)).calCheck.markSnap

/-- The value of TBS_ADJ in units of the time base, without its sign. -/
def Dev.adjUnits (d : Dev) : Nat :=
  ((d.get F.TBS_ADJ_SEC_LO + 2 ^ 32 * d.get F.TBS_ADJ_SEC_HI) * 1000000000 + d.get F.TBS_ADJ_NS_ns) * unitsPerNs +
    d.get F.TBS_ADJ_FRAC * unitsPerFrac

/-- The signed value of TBS_ADJ. -/
def Dev.adjSigned (d : Dev) : Int := if d.flag F.TBS_ADJ_NS_neg then -(d.adjUnits : Int) else d.adjUnits

/-- A DPLL follows a reference: its state is ACQUIRE or LOCKED (Table DPL-1). -/
def Dev.dpllFollows (d : Dev) (x : Nat) : Bool :=
  let s := d.get (F.DPL_STATUS_state x)
  s == 2 || s == 3

/-- An operation is refused at its firing edge (R274). -/
def Dev.adjRefused (op : Nat) (d : Dev) : Bool :=
  let far := let v := (d.tbs.tb : Int) + d.adjSigned
    decide (v < 0) || decide ((timeWrap : Int) ≤ v)
  (d.dpllFollows 0 && !d.flag F.TBS_CTRL_allow_host_step) || !d.timeReady ||
    ((op == 1 || op == 2) && decide (1000000000 ≤ d.get F.TBS_ADJ_NS_ns)) ||
    (op == 3 && (d.get F.TBS_ADJ_SEC_LO != 0 || d.get F.TBS_ADJ_SEC_HI != 0)) || (2 ≤ op && far)

/-- A host adjustment at its firing (R273–R276); the active op then returns to 0. -/
def Dev.adjust (op : Nat) (d : Dev) : Dev :=
  let done := fun (e : Dev) => e.put F.TBS_ADJ_CTRL_op 0
  if op = 0 ∨ 3 < op then done d
  else if d.adjRefused op then done (d.fault R.TBS_EVENT 2 E.TBS_ADJ_REFUSED 0)
  else if op = 1 then done (d.stepTime d.adjUnits)
  else if op = 2 then done (d.stepTime ((d.tbs.tb : Int) + d.adjSigned).toNat)
  else
    let d1 := { d with tbs := { d.tbs with slewAcc := 0 } }.setSlew d.adjSigned
    done (if d.adjSigned = 0 then d1.slewEnds else d1.put F.TBS_STATUS_slewing 1)

/-- The edge that completes a slew (R276): the last part, no more than one edge's share, is added and the slew ends; before that edge the
slew only goes on. -/
def Dev.slewDone (d : Dev) : Dev :=
  if d.flag F.TBS_STATUS_slewing && decide (d.tbs.slew.natAbs ≤ d.slewPart / 1600000) then ((d.setTb ((d.tbs.tb : Int) + d.tbs.slew).toNat).moveApart d.tbs.slew).slewEnds else d

/-- The oldest entry of the transmit timestamp queue removed (R299, R300); the entry of a frame without a copy held no
quota (R301). -/
def Dev.popStamp (d : Dev) : Dev :=
  match d.tbs.txq with
  | [] => d
  | e :: rest =>
    let d1 := { d with tbs := { d.tbs with txq := rest } }
    (d1.when (e.port != 64) (fun x =>
      x.put (F.TBS_TXQ_QUOTA_used e.port) (x.get (F.TBS_TXQ_QUOTA_used e.port) - 1))).syncTxq

/-! ### TDC channels -/

/-- The channels that exist are present with the time region, whatever lane or link indexes them (R33, R51, R277). -/
def Dev.tdcPresent (d : Dev) (c : Nat) : Bool := d.blockPresent 7 && d.regionPresent Region.time && decide (c < 92)

/-- The domain that holds a channel is on: those of the Ethernet lanes, the rope lanes, or PD_TIME (Table PWR-1, R459). -/
def Dev.tdcPowered (d : Dev) (c : Nat) : Bool :=
  if c < 64 then d.domainOn (4 + c / 16) else if c < 80 then d.domainOn 8 else true

/-- The present channels. -/
def Dev.tdcChannels (d : Dev) : List Nat := (List.range 92).filter (fun c => d.tdcPresent c)

/-- A channel. -/
def Dev.tdcOf (d : Dev) (c : Nat) : Tdc := Sparse.getD d.tdc c {}

/-- A channel set. -/
def Dev.setTdc (c : Nat) (t : Tdc) (d : Dev) : Dev :=
  { d with tdc := if t = {} then Sparse.del d.tdc c else Sparse.put d.tdc c t }

/-- A TDC event with its channel (Table TDC-3). -/
def Dev.tdcEvent (i c : Nat) (d : Dev) : Dev := (d.event R.TDC_EVENT i).put F.TDC_LAST_CH c

/-- The time base starts to count from 0 (R271, Table TOP-1). -/
def Dev.timeStarts (d : Dev) : Dev := ((d.setTb 0).put F.TBS_STATUS_counting 1).put F.TOP_READY_time 1

/-- TOP_READY.tdc sets when every present channel has passed trim or faulted, one whose domain is off left aside (R287, R458); at the first time after power-on or cold
reset the time base starts with it (Table TOP-1). In a time-less plan neither ever sets (R391). -/
def Dev.tdcReady (d : Dev) : Dev :=
  let cs := d.tdcChannels
  let done := (cs.filter d.tdcPowered).all (fun c => (d.flag (F.TDC_STATUS_trimmed c) || d.flag (F.TDC_STATUS_fault c)) &&
    !d.flag (F.TDC_STATUS_trimming c))
  if cs != [] && done && !d.flag F.SYN_PLAN_time_less then
    let d1 := d.put F.TOP_READY_tdc 1
    if d1.flag F.TBS_STATUS_counting then d1 else d1.timeStarts
  else d

/-- A channel faults (R280): its status, its bit, the event; its lane's phase_valid reads 0 (R287). -/
def Dev.tdcFault (c : Nat) (d : Dev) : Dev :=
  let d1 := ((d.put (F.TDC_STATUS_fault c) 1).setBit (R.TDC_FAULT (c / 32)) (c % 32) true).tdcEvent 0 c
  let d2 := d1.raise E.TDC_CH_FAULT c
  (d2.when (decide (c < 64)) (Dev.put (F.HSL_STATUS_phase_valid c) 0)).tdcReady

/-- Trim starts on a channel (R284–R286): four pairs of runs at most. -/
def Dev.trimStart (c : Nat) (d : Dev) : Dev :=
  if !d.tdcPresent c then d
  else (d.put (F.TDC_STATUS_trimming c) 1).setTdc c { d.tdcOf c with run1 := none, pairs := 0 }

/-- The bits of TDC_TRIM_REQ_i that name channels: bits 31:28 of the third are reserved. -/
def Dev.trimRequest (i : Nat) (data : Word) (d : Dev) : Dev :=
  let cs := (bitList 32 data.toNat).map (32 * i + ·)
  Dev.each (cs.filter (fun c => c < 92 && d.tdcPresent c)) (fun c e => (e.setBit (R.TDC_TRIM_REQ i) (c % 32) true).trimStart c) d

/-- The trim of a channel ends: its request bit clears. -/
def Dev.trimEnds (c : Nat) (d : Dev) : Dev :=
  (d.put (F.TDC_STATUS_trimming c) 0).setBit (R.TDC_TRIM_REQ (c / 32)) (c % 32) false

/-- Two numbers lie within 2 of each other. -/
def near2 (a b : Nat) : Bool := a ≤ b + 2 && b ≤ a + 2

/-- The `n` places of a list whose values lie nearest its median (R284), ascending; of values equally near the lower place is taken. The
median of an even number of values is the mean of the middle two. -/
def nearestMedian (n : Nat) (l : List Nat) : List Nat :=
  let s := l.mergeSort
  let k := l.length
  -- twice the median
  let m := nthD s ((k - 1) / 2) 0 + nthD s (k / 2) 0
  let dist := fun (i : Nat) => let v := 2 * nthD l i 0; (v - m) + (m - v)
  let by_ := ((List.range k).foldl (fun acc i => insertBy (fun a b => dist a < dist b) i acc) []).take n
  (List.range k).filter (fun i => by_.contains i)

/-- A list of places as a mask. -/
def maskOf (l : List Nat) : Nat := l.foldl (fun a i => a + 2 ^ i) 0

/-- What a trim run selects and forms from what it measured (R284): 32 of the 36 cells and 27 of the 30 vernier steps, and the nominals
of its calibration pairs. How the nominals are formed from the pairs is open. -/
def trimResult (r : Trim) : TrimResult :=
  { cells := maskOf (nearestMedian 32 r.cells), steps := maskOf (nearestMedian 27 r.steps)
    c1 := Config.trimNominal (r.pairs.map (·.1)), c2 := Config.trimNominal (r.pairs.map (·.2)) }

/-- Two runs of a pair agree (R285). -/
def TrimResult.agrees (a r : TrimResult) : Bool := a.cells == r.cells && a.steps == r.steps && near2 a.c1 r.c1 && near2 a.c2 r.c2

/-- A trim run ends (R284–R287): the second of a pair that agrees is applied, and an Ethernet lane whose phase measurement had come to
serve has phase_valid again (R318); the fourth pair that disagrees faults the channel. -/
def Dev.trimRun (c : Nat) (q : Trim) (d : Dev) : Dev :=
  if !d.flag (F.TDC_STATUS_trimming c) ∨ !d.tdcPowered c then d
  else
    let t := d.tdcOf c
    let r := trimResult q
    match t.run1 with
    | none => d.setTdc c { t with run1 := some r }
    | some a =>
      if a.agrees r then
        let d1 := (d.setTdc c { t with run1 := none, pairs := 0 }).trimEnds c
        let d2 := (((d1.put (F.TDC_TRIM_c1_nom c) r.c1).put (F.TDC_TRIM_c2_nom c) r.c2).put (F.TDC_TRIM_CM_LO c) r.cells).put
          (F.TDC_TRIM_CM_HI c) (r.cells / 2 ^ 32)
        let d3 := ((d2.put (F.TDC_TRIM_VM c) r.steps).put (F.TDC_STATUS_trimmed c) 1).wrap (F.TDC_STATUS_trim_epoch c) 1
        let d4 := ((d3.put (F.TDC_STATUS_fault c) 0).put (F.TDC_STATUS_fails c) 0).setBit (R.TDC_FAULT (c / 32)) (c % 32) false
        let d5 := d4.when (d4.lanes.measured.contains c) (Dev.put (F.HSL_STATUS_phase_valid c) 1)
        (d5.tdcEvent 1 c).tdcReady
      else if t.pairs + 1 < 4 then d.setTdc c { t with run1 := none, pairs := t.pairs + 1 }
      else
        let d1 := (d.setTdc c { t with run1 := none, pairs := 0 }).trimEnds c
        ((d1.tdcEvent 2 c).raise E.TDC_TRIM_FAIL c).tdcFault c

/-- A calibration pair is taken (R279, R280): kept where it lies within 3 of the trimmed nominals, else discarded and
counted; the third failure in a row faults the channel. -/
def Dev.calPair (c c1 c2 : Nat) (d : Dev) : Dev :=
  if d.flag (F.TDC_STATUS_fault c) ∨ !d.tdcPresent c ∨ !d.tdcPowered c then d
  else
    let d0 := (d.put (F.TDC_CAL_c1 c) c1).put (F.TDC_CAL_c2 c) c2
    let near := fun (a b : Nat) => decide (a ≤ b + 3) && decide (b ≤ a + 3)
    let t := d0.tdcOf c
    if near c1 (d0.get (F.TDC_TRIM_c1_nom c)) ∧ near c2 (d0.get (F.TDC_TRIM_c2_nom c)) then
      (d0.put (F.TDC_STATUS_fails c) 0).setTdc c { t with c1 := c1, c2 := c2, paired := true }
    else
      let n := d0.get (F.TDC_STATUS_fails c) + 1
      let d1 := ((d0.sat (F.TDC_RETRY_CNT c) 1).put (F.TDC_STATUS_fails c) n).setTdc c { t with retried := true }
      if 3 ≤ n then d1.tdcFault c else d1

/-- The interval from the event edge to the stop edge in units of the time base (R279), scaled by 1 + f (R269). -/
def Dev.tdcInterval (d : Dev) (t : Tdc) (cm : Nat) : Int :=
  let num : Int := (cm : Int) - (2 * t.c1 - t.c2)
  let den := t.c2 - t.c1
  if den = 0 then 0 else roundDiv (num * unitsPerEdge * (10 ^ 12 + d.sget F.TBS_FF)) (den * 10 ^ 12)

/-- The event time a capture gives, in 1/65,536 ns: the time base at the stop edge less the interval (R278). -/
def Dev.eventTime (d : Dev) (c cm : Nat) : Nat :=
  ((d.tbs.tb : Int) - d.tdcInterval (d.tdcOf c) cm).toNat / unitsPerFrac

/-- The interval in units of 1/65,536 ns of the time clock, x of R279: not scaled by f. -/
def tdcX (t : Tdc) (cm : Nat) : Int :=
  let num : Int := (cm : Int) - (2 * t.c1 - t.c2)
  let den := t.c2 - t.c1
  if den = 0 then 0 else roundDiv (num * unitsPerEdge) (den * unitsPerFrac)

/-- The instant of an event on the scale of the time clock's edges, in 1/65,536 ns since reset: it runs whether the time base counts or
steps, so that the spacing of edges is measured on it (R281). -/
def Dev.edgeTime (d : Dev) (c cm : Nat) : Int :=
  ((d.tbs.edges * unitsPerEdge / unitsPerFrac : Nat) : Int) - tdcX (d.tdcOf c) cm

/-- A result written (R66, R282). -/
def Dev.tdcResult (c t : Nat) (d : Dev) : Dev :=
  let x := d.tdcOf c
  let d1 := ((d.put (F.TDC_RES_LO_frac c) (fracOf t)).put (F.TDC_RES_LO_sec c) (secOf t)).put (F.TDC_RES_LO_epoch c)
    (d.get F.TBS_STATUS_epoch)
  let d2 := ((d1.put (F.TDC_RES_HI_ns c) (nsOf t)).put (F.TDC_RES_HI_retried c) (bit x.retried)).put (F.TDC_RES_HI_valid c)
    (bit (d.timeReady && d.flag F.TOP_READY_tdc))
  (d2.wrap (F.TDC_RES_CNT c) 1).setTdc c { x with retried := false, last := some t, prev := x.last, seen := some d.tbs.edges }

/-- The channel of an enabled REFIN input, which REF runs (R330). -/
def Dev.tdcByRef (d : Dev) (c : Nat) : Bool := decide (80 ≤ c) && decide (c < 88) && d.flag (F.REF_IN_CFG_enable (c - 80))

/-- A REFIN input is a pulse input: 1PPS or frame pulse (R330). -/
def Dev.isPulse (d : Dev) (i : Nat) : Bool :=
  let t := d.get (F.REF_IN_CFG_type i)
  t == 1 || t == 2

/-- The mode of a channel in use (R283, R330). -/
def Dev.tdcMode (d : Dev) (c : Nat) : Nat :=
  if d.tdcByRef c then (if d.isPulse (c - 80) then 1 else 2) else d.get (F.TDC_CFG_mode c)

/-- The interval in use, in units of 100 ns: 1.0 µs on channels 0–79 and on those REF runs (R283, R330). -/
def Dev.tdcStep (d : Dev) (c : Nat) : Nat := if c < 80 ∨ d.tdcByRef c then 10 else max 1 (d.get (F.TDC_CFG_interval c))

/-- The interval in which an instant lies. -/
def Dev.tdcSlot (d : Dev) (c t : Nat) : Nat := t / (d.tdcStep c * 100 * 65536)

/-- The lane of a channel has CDR lock (R283); channels 80–91 need none. -/
def Dev.tdcLocked (d : Dev) (c : Nat) : Bool :=
  if c < 64 then d.flag (F.HSL_STATUS_cdr_lock c) else if c < 80 then (Sparse.getD d.ropes (c - 64) {}).link.cdr else true

/-- The channel takes one event in each interval, as channels 0–79 do and mode 2 does (R283). -/
def Dev.tdcSlotted (d : Dev) (c : Nat) : Bool := decide (c < 80) || d.tdcMode c == 2

/-- Whether an edge on a channel is measured, and its event time (R281, R283): the channel is not faulted, has a pair, its lane has CDR
lock, it and its domain are not off, and the edge is not too near the last; where the channel takes one event an interval, it is the first of its
interval. The second component says that the edge is skipped and counted. -/
def Dev.tdcAccepts (d : Dev) (c cm : Nat) : Option Nat × Bool :=
  let x := d.tdcOf c
  if d.flag (F.TDC_STATUS_fault c) ∨ !d.tdcPresent c ∨ !d.tdcPowered c ∨ !x.paired ∨ !d.tdcLocked c ∨ (80 ≤ c ∧ d.tdcMode c = 0) then (none, false)
  else
    let t := d.eventTime c cm
    let e := d.edgeTime c cm
    let apart : Int := (if d.flag (F.TDC_STATUS_trimming c) then 100 else 50) * 65536
    let near := match x.onEdges with | some l => decide (e < l + apart) | none => false
    let same := match x.last with | some l => d.tdcSlotted c && d.tdcSlot c t == d.tdcSlot c l | none => false
    if (x.retried && d.get (F.TDC_STATUS_fails c) != 0) || near then (none, true)
    else if same then (none, false)
    else (some t, false)

/-- An event edge measured against the time base (R278, R282, R283). -/
def Dev.tdcMeasure (c cm : Nat) (d : Dev) : Dev :=
  match d.tdcAccepts c cm with
  | (none, true) => d.sat (F.TDC_SKIP_CNT c) 1
  | (none, false) => d
  | (some t, _) =>
    let d0 := d.tdcResult c t
    let d1 := d0.setTdc c { d0.tdcOf c with onEdges := some (d.edgeTime c cm) }
    let d2 := d1.when (decide (80 ≤ c) && d1.tdcMode c == 3) (Dev.put (F.TDC_CFG_mode c) 0)
    d2.when (decide (88 ≤ c)) (Dev.tdcEvent 3 c)

end Sys2Proof.Machine
end

