-- ==== Sys2Proof/Machine/Ingress.lean ====
section
/-! DEFINITION. Ingress: what a port takes from an arriving frame at its header window, at each further segment and at
its end; the frames of port 64 (R22, R114, R121, R122, R169–R171, R174–R186, R218–R220, R226, R288–R298, R407, R420,
R448–R455, R468, R469, R540). -/

namespace Sys2Proof.Machine

/-! ### Stamps -/

/-- The receive delay of a port in 1/65,536 ns (R288, R289, R293): the fixed part, the residual of an Ethernet port or
the fill and slip of a tunnel port's lane, the board adjustment. -/
def Dev.rxDelay (d : Dev) (p : Nat) : Int :=
  let var : Nat :=
    if p < 64 then d.get (F.MAC_RX_RESID p)
    else
      let n := p - 65
      let r := d.get (F.RLK_STATUS_rate n)
      let bits := d.get (F.RLK_RX_FILL_rx_slip n) + 10 * d.get (F.RLK_RX_FILL_fill n)
      -- a bit lasts 625/768 ns at rate code 0
      (bits * 65536 * 625 + 384 * 2 ^ r) / (768 * 2 ^ r)
  (d.get (F.TBS_RX_FIXED p) : Int) + var + d.sget (F.TBS_RX_ADJ p)

/-- The receive reference lane of a port (R124): its lowest-numbered lane whose rx_deskew is 0. -/
def Dev.refLane (d : Dev) (p : Nat) : Nat :=
  ((d.portLanes p).find? (fun l => d.get (F.HSL_RX_ALIGN_rx_deskew l) == 0)).getD p

/-- The TDC channel of a port's receive reference lane (R277, R288). -/
def Dev.rxChannel (d : Dev) (p : Nat) : Nat := if p < 64 then d.refLane p else p - 1

/-- A lane word of a channel: its bits, and its nominal period in units of 1/65,536 ns as numerator and denominator (R116, R143): 80 bits
of an Ethernet lane, a code group of a rope lane. -/
def Dev.laneWord (d : Dev) (c : Nat) : Nat × Nat × Nat :=
  if c < 64 then (80, 80 * 65536 * nthD [1360, 544, 264, 132] (d.get (F.HSL_CFG_rate c)) 132, 14025)
  else (10, 10 * 65536 * 625, 768 * 2 ^ (d.get (F.RLK_STATUS_rate (c - 64))))

/-- t_rx_sfd (R289, R291): the SFD or K27.7 comes `bits` lane bits after the latest measured event of the reference lane, each word at
the period the last two measurements give, or the nominal one where there are not two. Without a measurement, or while the channel is
faulted, it is the clock edge that receives the word. -/
def Dev.rxSfd (d : Dev) (p bits : Nat) : Nat :=
  let c := d.rxChannel p
  let x := d.tdcOf c
  let (w, num, den) := d.laneWord c
  match x.last with
  | none => d.now
  | some t =>
    if p = 64 ∨ d.flag (F.TDC_STATUS_fault c) then d.now
    else
      let gap := match x.prev with | some u => t - u | none => 0
      let n := (2 * gap * den + num) / (2 * num)
      if n = 0 then t + bits * num / (w * den) else t + bits * gap / (w * n)

/-- The ingress stamp of a frame whose SFD or K27.7 comes `bits` lane bits after the latest event of its lane (R288). -/
def Dev.rxStamp (d : Dev) (p bits : Nat) : Stamp := d.stampAt (((d.rxSfd p bits : Int) - d.rxDelay p).toNat)

/-! ### What a port consumes or turns away -/

/-- The frame is a belay announce that a member consumes on any port (R420). -/
def Dev.isAnnounce (d : Dev) (bs : List Byte) : Bool :=
  d.blockPresent 21 && d.flag F.RDN_CTRL_enable && octets bs 12 2 == 0x88B5 && octets bs 0 6 == d.annDa

/-- The frame is a PHX report that its port consumes (R314). -/
def Dev.isReport (d : Dev) (p : Nat) (bs : List Byte) : Bool :=
  p < 64 && d.blockPresent 12 && d.flag (F.PHX_CFG_enable p) && octets bs 12 2 == 0x88B5 && octets bs 0 6 == phxDa

/-- Ingress takes frames on a port: the port is present and has link, no reset holds it (R67, R540). -/
def Dev.takesFrames (d : Dev) (p : Nat) : Bool :=
  d.portPresent p && d.portReady p && !d.busy && !d.portInReset p

/-- The time-only state stops ingress and the rings of port 64 (R468, R469). -/
def Dev.timeOnly (d : Dev) : Bool := d.get F.PWR_STATE_mode == 1 || d.get F.PWR_STATE_mode == 2

/-- The datapath domains the image enables are on (R464). -/
def Dev.datapathOn (d : Dev) : Bool := [0, 1, 2].all (fun k => !d.domainEnabled k || d.domainOn k)

/-- The reason under which a port turns a frame away before its header is dispatched: the time-only state, a datapath domain not yet
on, belay standby, restructure (R56, R407, R464, R469). -/
def Dev.turnsAway (d : Dev) (p : Nat) : Option Nat :=
  if d.timeOnly ∨ !d.datapathOn then some 0x20
  else if d.standsBy p then some 0x38
  else if d.quiescing (portGroup p) then some 0x24
  else none

/-! ### The header window -/

/-- A frame that ends at ingress without a header dispatched: counted, captured, forgotten. -/
def Dev.dropAtIngress (i reason : Nat) (d : Dev) : Dev := d.dropFrame i reason

/-- The header of a frame enters its port's header FIFO. -/
def Dev.queueHeader (i : Nat) (d : Dev) : Dev :=
  let p := (d.frame i).port
  d.setHeaderFifo p (d.headerFifo p ++ [i])

/-- The header window of a frame is parsed (R174–R179, R218, R219, R226): its header goes to the FIFO, or overruns it
(R185); its first buffer is allocated, or the frame is dropped while its header completes its lookup. `ended` is the
length of a frame that ended within the window. -/
def Dev.window (i : Nat) (ended : Option Nat) (d : Dev) : Dev :=
  let f := d.frame i
  let p := f.port
  let hdr := f.bytes.take 128
  let q := d.parsed f
  let kt := q.keyType (d.get (F.FWD_PORT_CFG_key_mode p))
  let key := q.flowKey hdr kt
  let hash := flowHash (d.get F.FWD_HASH_SEED) kt key
  let cls := q.pcp
  let len := q.lengthTaken hdr ended (d.maxFrame p)
  let held := p != 64 && d.get (F.SEC_PTP_POLICY_mode p) != 0 && (d.ptpOf f).isSome
  let f1 := { f with
    windowed := true, cls := cls, express := hasBit (d.get (F.QSC_FWD_MODE_express p)) cls
    cluster := portGroup p, bucket := hash % 4096, ktype := kt, key := key, hash := hash, lenTaken := len
    ptpHold := held }
  let d1 := d.setFrame i f1
  let pass := f.bypass.isSome
  if !pass ∧ 16 ≤ (d1.headerFifo p).length then
    ((d1.sat (F.FWD_PORT_HDR_DROP p) 1).fault R.FWD_EVENT 3 E.FWD_HDR_OVERRUN p).dropAtIngress i 0x13
  else
    let d2 := d1.when (!pass) (Dev.queueHeader i)
    let lose := fun (r : Nat) (e : Dev) =>
      let e1 := (e.countDrop p r).candidate (frameCandidate f1 0x7F cls 1 r 0 (e.stampAt e.now))
      let e2 := e1.when (p == 64) (Dev.unsentStamp f1 64)
      if pass then e2.forget i else e2.setFrame i { f1 with dropped := some r }
    if !d2.flag F.TOP_READY_bpm then lose 0x20 d2
    else
      let k := d2.firstPool p cls len
      match d2.alloc (portGroup p) (ownerTag p 0) (d2.spills p cls) (if d2.spills p cls then poolsFrom k else [k]) with
      | (none, e) => lose 0x21 e
      | (some h, e) => (e.setFrame i { f1 with buf := some h }).storeFrame i 0

/-! ### Chaining -/

/-- The bytes a frame's buffers hold. -/
def Frame.room (f : Frame) : Nat :=
  (match f.buf with | some h => poolBytes (handlePool h) | none => 0) +
  (match f.chain with | some h => poolBytes (handlePool h) | none => 0)

/-- The frame has overrun its first buffer and has no second. -/
def Frame.overruns (f : Frame) : Bool := f.buf.isSome && f.chain.isNone && f.bad == 0 && decide (f.room < f.bytes.length)

/-- A chained second buffer for a frame that overran its first (R220, R236), or the end of the frame with reason 0x22
(R226, R228); what it holds is what its first buffer holds. -/
def Dev.chainAlloc (i : Nat) (d : Dev) : Dev :=
  let f := d.frame i
  match f.buf with
  | none => d
  | some h =>
    if !f.overruns then d
    else
      let p := f.port
      let k := chainPool (handlePool h) (d.maxFrame p)
      match d.alloc (portGroup p) (d.buf h).tag (d.spills p f.cls) (if d.spills p f.cls then poolsFrom k else [k]) with
      | (some c, e) =>
        let e1 := (e.setBuf h { e.buf h with chain := some c }).setBuf c { e.buf c with mcast := (e.buf h).mcast }
        let e2 := (e1.setFrame i { f with chain := some c }).storeFrame i f.room
        Dev.each (f.copies.filter (fun x => x.created && !x.consumed))
          (fun x y => y.addCells x.port x.queue (poolCells (handlePool c))) e2
      | (none, e) => (e.setFrame i { f with short := true }).frameBadAt i chainFailed (some f.room)

/-! ### The end of a frame -/

/-- The verification of a frame's AUTHENTICATION TLV at its end (R298, R448, R450): the result, counted at its port, and
whether the policy drops the frame. Without PD_SEC no TLV is verified (R459). -/
def Dev.authenticate (f : Frame) (overRate : Bool) (d : Dev) : Nat × Bool × Dev :=
  if f.port = 64 then (Auth.none, false, d)
  else
    let mode := min 2 (d.get (F.SEC_PTP_POLICY_mode f.port))
    match d.ptpOf f with
    | none => (Auth.none, false, d)
    | some o =>
      match authTlv f.bytes o with
      | none => (Auth.none, mode == 2, d)
      | some t =>
        if !d.domainEnabled 3 then (Auth.unverified, mode != 0, d.count (portCtr f.port (if mode = 0 then 14 else 13)) 1)
        else if overRate then (Auth.unverified, false, d.count (portCtr f.port 14) 1)
        else
          let r := d.verifyTlv f.bytes o t
          if r = Auth.passed then (r, false, d.count (portCtr f.port 12) 1)
          else (r, mode != 0, d.count (portCtr f.port 13) 1)

/-- A frame as it stood on the line. -/
def Frame.wire (f : Frame) : List Byte := if f.raw.isEmpty then f.bytes else f.raw

/-- The frame is lost to a bad end or to a policy before its copies: it turns bad under a reason, unless a chain failure has marked it
(R220), and is forgotten once nothing refers to it. -/
def Dev.endBad (i reason : Nat) (d : Dev) : Dev :=
  let f := d.frame i
  let r := if f.bad = chainFailed then chainFailed else reason
  if f.dropped.isSome then d.setFrame i { f with complete := true, bad := r }
  else (d.setFrame i { f with complete := true }).frameBad i r

/-- The received counters of a frame at its end, with its MAC error (R121, R122); a tunnel
frame that ends bad counts at its rope lane too. -/
def Dev.countReceived (p : Nat) (wire : List Byte) (cut codeErr : Bool) (d : Dev) : Dev :=
  let bad := cut || codeErr || !fcsOk wire
  let d1 := ((d.count (portCtr p 0) 1).count (portCtr p 1) wire.length).when (decide (64 < p) && bad)
    (Dev.count (4576 + 4 * (p - 65) + 3) 1)
  if cut then (d1.when (decide (p < 64)) (Dev.event (R.MAC_EVENT p) 4)).count (portCtr p 6) 1
  else if p ≠ 64 ∧ (codeErr ∨ !fcsOk wire) then d1.count (portCtr p 4) 1
  else d1

/-- The MACsec validation of a frame that has arrived whole (R455): whether it passes, and the state with its PN accepted, or with the
event of the check it fails. -/
def Dev.validate (f : Frame) (d : Dev) : Bool × Dev :=
  match f.sa, d.rxTag f.port f.raw with
  | none, _ => (true, d)
  | some j, .secure ch _ pn => if d.rxFails f.port ch j pn f.raw then (false, d) else (true, d.rxAccept ch j pn)
  | some _, tag => (false, d.tagEvent f.port tag)

/-- Ports on which a completed frame may have made an express queue eligible (R252, R254). -/
def Dev.preemptChecks (i : Nat) (d : Dev) : Dev := Dev.each (d.frame i).copies (fun c e => e.preemptCheck c.port) d

/-- The frame's last byte has arrived (R121, R122, R170, R254, R450, R455): received and byte counters, the checks in
order, the PTP verification. -/
def Dev.finish (i : Nat) (codeErr cut overRate : Bool) (d : Dev) : Dev :=
  let f := d.frame i
  let p := f.port
  let d1 := d.countReceived p f.wire cut codeErr
  if cut then d1.endBad i 0x34
  else if p ≠ 64 ∧ (codeErr ∨ !fcsOk f.wire) then d1.endBad i 0x33
  else
    match d1.validate f with
    | (false, d2) => d2.endBad i 0x35
    | (true, d2) =>
      let (auth, drop, d3) := d2.authenticate f overRate
      if drop then d3.endBad i 0x3A
      else (d3.setFrame i { f with complete := true, auth := auth }).preemptChecks i

/-- A frame that its port consumes, or that is already dropped, has arrived: it counts, and a protected one is validated (R314, R420,
R455); a report or an announce that fails is dropped with reason 0x35, as R454 has it of any frame. -/
def Dev.finishWaiting (i : Nat) (codeErr cut : Bool) (d : Dev) : Dev :=
  let f := d.frame i
  let d1 := d.countReceived f.port f.wire cut codeErr
  if cut || codeErr || !fcsOk f.wire then d1.delFrame i
  else
    match d1.validate f with
    | (true, d2) => d2.delFrame i
    | (false, d2) =>
      if d2.isAnnounce f.bytes || d2.isReport f.port f.bytes then (d2.setFrame i { f with complete := true }).dropFrame i 0x35
      else d2.delFrame i

/-! ### Arrival -/

/-- A new frame record. -/
def Dev.newFrame (f : Frame) (d : Dev) : Nat × Dev :=
  let i := d.fwd.nextFrame
  (i, { d with fwd := { d.fwd with nextFrame := i + 1, frames := Sparse.put d.fwd.frames i f } })

/-- The frame a port receives. -/
def Dev.current (d : Dev) (p : Nat) : Option Nat := Sparse.get? d.fwd.rxCur p

/-- The frame a port receives set or ended. -/
def Dev.setCurrent (p : Nat) (i : Option Nat) (d : Dev) : Dev :=
  let m := match i with | some j => Sparse.put d.fwd.rxCur p j | none => Sparse.del d.fwd.rxCur p
  { d with fwd := { d.fwd with rxCur := m } }

/-- The plain view of what has arrived of a frame with a SecTAG: the last 20 bytes so far may yet be the ICV and the FCS. -/
def Dev.openBytes (d : Dev) (p : Nat) (raw : List Byte) (whole : Bool) : List Byte :=
  match d.rxTag p raw with
  | .secure i j pn =>
    let plain := macsecOpen (d.saUse p i j pn) (raw.take (raw.length - 4))
    if whole then plain ++ fcs plain else plain
  | _ => raw

/-- The first look at a frame, once its header window or the whole of it is there: a report or an announce that the port's MACsec
policy admits is consumed (R314, R420), a turned-away frame or one MACsec refuses is dropped, any other gets its header dispatched and
its buffer. -/
def Dev.firstLook (i : Nat) (ended : Option Nat) (d : Dev) : Dev :=
  let f := d.frame i
  let p := f.port
  let tag := d.rxTag p f.bytes
  let f0 := { f with windowed := true }
  let f1 := match tag with
    | .secure _ j _ => { f0 with raw := f.bytes, sa := some j, bytes := d.openBytes p f.bytes (ended.isSome && !f.short) }
    | _ => f0
  let admitted := match tag with | .secure _ _ _ => true | .plain => true | _ => false
  if admitted && (d.isAnnounce f1.bytes || d.isReport p f1.bytes) then d.setFrame i { f1 with waits := true }
  else
    match d.turnsAway p with
    | some r => (d.setFrame i f0).dropAtIngress i r
    | none =>
      match tag with
      | .plain | .secure _ _ _ => (d.setFrame i f1).window i ended
      | bad => ((d.tagEvent p bad).setFrame i f0).dropAtIngress i bad.reason

/-- A segment joins the frame its port receives: the frame is cut at the port's largest (R122, R170), its buffers take the bytes, its
window is looked at once it is there, a second buffer is taken when the first is overrun, and the last segment ends it; with `lost` the
frame ends there short of its own end (R255). An uncorrectable codeword on any segment marks the whole frame (R121). A frame
below 64 B is a runt and leaves only its count. -/
def Dev.takeSegment (i : Nat) (s : Seg) (lost : Bool) (d : Dev) : Dev :=
  let f := d.frame i
  let p := f.port
  let raw0 := f.wire ++ s.bytes
  let largest := d.maxFrame p
  let cut := decide (largest < raw0.length)
  let raw := raw0.take largest
  let ends := s.last || cut
  let short := cut || lost
  let hurt := f.hurt || s.codeErr
  let bytes := if f.raw.isEmpty then raw else d.openBytes p raw (ends && !short)
  let f1 := { f with bytes := bytes, raw := if f.raw.isEmpty then [] else raw, hurt := hurt, short := short }
  let d1 := (d.setFrame i f1).storeFrame i (if f.raw.isEmpty then f.bytes.length else 0)
  if ends ∧ raw.length < 64 ∧ p ≠ 64 then ((d1.count (portCtr p 5) 1).when (decide (64 < p)) (Dev.count (4576 + 4 * (p - 65) + 3) 1)).delFrame i
  else
    let d2 := if f.windowed then d1
      else if ends then d1.firstLook i (if raw.length ≤ 128 then some raw.length else none)
      else if 128 ≤ raw.length then d1.firstLook i none
      else d1
    let d3 := d2.when (d2.frame i).overruns (Dev.chainAlloc i)
    if !ends then d3
    else if (d3.frame i).waits then d3.finishWaiting i hurt cut
    else d3.finish i hurt cut s.overRate

/-- The frame a port receives ends without its last byte: its link was lost, or the next frame began (R169, R255); it counts as one with
an FCS error. -/
def Dev.cutOff (p : Nat) (d : Dev) : Dev :=
  match d.current p with
  | none => d
  | some i =>
    let d1 := d.setCurrent p none
    if (d1.frame? i).isNone then d1
    else d1.takeSegment i { bytes := [], last := true, codeErr := true, overRate := false } true

/-- A first segment on a port (R22): a new frame with its stamp. -/
def Dev.receiveAt (p : Nat) (rx : Stamp) (fragments : Bool) (s : Seg) (d : Dev) : Dev :=
  if !d.takesFrames p then d
  else
    let d0 := d.cutOff p
    let (i, d1) := d0.newFrame { port := p, rx := rx, fragments := fragments }
    let d2 := (d1.setCurrent p (some i)).takeSegment i s false
    if s.last ∨ d.maxFrame p < s.bytes.length then d2.setCurrent p none else d2

/-- A first segment from the line, its SFD `bits` lane bits after its lane's latest event (R289). -/
def Dev.receiveFirst (p bits : Nat) (fragments : Bool) (s : Seg) (d : Dev) : Dev := d.receiveAt p (d.rxStamp p bits) fragments s

/-- A further segment of the frame a port receives. -/
def Dev.receiveMore (p : Nat) (s : Seg) (d : Dev) : Dev :=
  match d.current p with
  | none => d
  | some i =>
    if !d.takesFrames p then d.setCurrent p none
    else if (d.frame? i).isNone then d.setCurrent p none
    else
      let long := decide (d.maxFrame p < (d.frame i).wire.length + s.bytes.length)
      let d1 := d.takeSegment i s false
      if s.last ∨ long then d1.setCurrent p none else d1

/-! ### Frames of port 64 -/

/-- The key under which the frame that transmit ring `n` brings is current. -/
def ringKey (n : Nat) : Nat := 128 + n

/-- The descriptors a frame takes: from the start mark to the end mark (R114). -/
def frameDescs (l : List Desc) : List Desc :=
  let before := l.takeWhile (fun x => !hasBit x.flags 3)
  before ++ (l.drop before.length).take 1

/-- A frame's data arrive from host memory (R218, R297, R420), while the ring runs (R114, R468): the first 128 B or the whole frame start it under its
descriptor's requests; its end completes it and takes its descriptors off the ring. Host bytes carry no FCS: the
device pads the frame to 60 B and appends it. -/
def Dev.fetchFrame (n : Nat) (s : Seg) (d : Dev) : Dev :=
  let l := if d.flag (F.HIF_TXR_SIZE_enable n) && !d.timeOnly then Sparse.getD d.host.descs n [] else []
  match l with
  | [] => d
  | x :: _ =>
    let key := ringKey n
    let (i, d1) := match d.current key with
      | some i => (i, d)
      | none =>
        let bypass := if x.word.testBit 31 then some (x.word % 128) else none
        let (i, e) := d.newFrame { port := 64, cls := n, ring := n, rx := d.stampAt d.now, bypass := bypass
                                   tsId := field x.word 8 16, tsOp := field x.word 24 2 }
        (i, (e.setCurrent key (some i)))
    let f := d1.frame i
    let body := f.bytes ++ s.bytes
    let padded := if s.last then body ++ List.replicate (60 - body.length) 0 else body
    let data := if s.last then padded ++ fcs padded else padded
    let cut := decide (9728 < data.length)
    let d2 := (d1.setFrame i { f with bytes := data.take 9728, short := cut }).storeFrame i f.bytes.length
    let d3 := if !f.windowed ∧ (s.last ∨ 128 ≤ body.length) then
        if d2.isAnnounce data then d2.setFrame i { d2.frame i with windowed := true, waits := true }
        else match d2.turnsAway 64 with
        | some r => (d2.setFrame i { d2.frame i with windowed := true }).dropAtIngress i r
        | none =>
          (d2.window i (if s.last ∧ data.length ≤ 128 then some data.length else none)).when f.bypass.isSome
            (fun e => { e with host := { e.host with
              bypassQ := Sparse.put e.host.bypassQ n (Sparse.getD e.host.bypassQ n [] ++ [i]) } })
      else d2
    let d4 := d3.when (d3.frame i).overruns (Dev.chainAlloc i)
    if !s.last then d4
    else
      let d5 := if (d4.frame i).waits then d4.finishWaiting i false cut
        else d4.finish i false cut s.overRate
      let used := frameDescs l
      let size := ringLen (d5.get (F.HIF_TXR_SIZE_log2 n))
      let d6 := (d5.put (F.HIF_TXR_HEAD n) ((d5.get (F.HIF_TXR_HEAD n) + used.length) % size)).completed n used.length
      ({ d6 with host := { d6.host with descs := Sparse.put d6.host.descs n (l.drop used.length) } }).setCurrent key none

/-- Descriptors fetched after a tail write (R114): as many as the ring holds between head and tail. -/
def Dev.ringTail (n tail : Nat) (descs : List Desc) (d : Dev) : Dev :=
  let size := ringLen (d.get (F.HIF_TXR_SIZE_log2 n))
  let step := (tail % size + size - d.get (F.HIF_TXR_TAIL n) % size) % size
  let d1 := (d.put (F.HIF_TXR_TAIL n) tail).takeBack n step
  if !d1.flag (F.HIF_TXR_SIZE_enable n) ∨ !d1.flag F.TOP_READY_hif ∨ d1.timeOnly then d1
  else
    let have_ := Sparse.getD d1.host.descs n []
    let room := (tail % size + size - d1.get (F.HIF_TXR_HEAD n) % size) % size - have_.length
    { d1 with host := { d1.host with descs := Sparse.put d1.host.descs n (have_ ++ descs.take room) } }

/-- Frames of a transmit ring that entered before frame `i` and are neither enqueued nor dropped. -/
def Dev.earlierOf (d : Dev) (n i : Nat) : Bool :=
  d.fwd.frames.any (fun x => x.1 < i && x.2.port == 64 && x.2.ring == n && x.2.dropped.isNone && !x.2.waits && !x.2.enq && x.2.bad == 0)

/-- The oldest bypass frame of transmit ring `n` goes to its named port once every earlier frame of the ring is done
(R186), or is dropped where the port is absent. -/
def Dev.bypassEnqueue (n : Nat) (d : Dev) : Dev :=
  match Sparse.getD d.host.bypassQ n [] with
  | [] => d
  | i :: rest =>
    let gone := { d with host := { d.host with bypassQ := Sparse.put d.host.bypassQ n rest } }
    match (d.frame? i).filter (fun f => !f.waits) with
    | none => gone
    | some f =>
      if d.earlierOf n i ∨ !d.flag F.TOP_READY_qsc then d
      else
        let p := f.bypass.getD 127
        if f.bad = chainFailed then gone.dropFrame i f.bad
        else if 80 < p ∨ !d.portPresent p then (gone.fault R.FWD_EVENT 4 E.FWD_ACT_INVALID 64).dropFrame i 0x14
        else
          let g := { f with looked := true, act := some { cls := n }, copies := [{ port := p, queue := n }], lastOwner := p }
          (gone.setFrame i g).createCopies i

end Sys2Proof.Machine
end

