-- ==== Sys2Proof/Machine/Phx.lean ====
section
/-! DEFINITION. Phase transfer over fibre (R306–R325): links and their states, samples, reports, calibration, summit
and hops. -/

namespace Sys2Proof.Machine

abbrev Phx.off : Nat := 0
abbrev Phx.align : Nat := 1
abbrev Phx.freqSt : Nat := 2
abbrev Phx.range : Nat := 3
abbrev Phx.track : Nat := 4
abbrev Phx.stale : Nat := 5

/-- The state of a link (Table PHX-2). -/
def Dev.phxState (d : Dev) (k : Nat) : Nat := d.get (F.PHX_STATUS_state k)

/-- The link is up: the port is ready, or the rope lane is in RUN (Table PHX-3; state code 5). -/
def Dev.phxLinkUp (d : Dev) (k : Nat) : Bool :=
  if k < 64 then d.portPresent k && d.portReady k
  else d.blockPresent 13 && d.get (F.RLK_STATUS_state (k - 64)) == 5

/-- The TDC channel a link measures (R308). -/
def Dev.phxChannel (d : Dev) (k : Nat) : Nat := if k < 64 then d.refLane k else k

/-- The phase is valid: phase_valid of the reference lane, or a frozen buffer (Table PHX-3), and its channel is not faulted (R287). -/
def Dev.phxPhaseValid (d : Dev) (k : Nat) : Bool :=
  (if k < 64 then d.flag (F.HSL_STATUS_phase_valid (d.refLane k)) else d.flag (F.RLK_STATUS_frozen (k - 64))) &&
    !d.flag (F.TDC_STATUS_fault (d.phxChannel k))

/-- The frequency is good: freq_ok, or a frozen buffer (Table PHX-3). -/
def Dev.phxFreqOk (d : Dev) (k : Nat) : Bool :=
  if k < 64 then d.flag (F.PHX_STATUS_freq_ok k) else d.flag (F.RLK_STATUS_frozen (k - 64))

/-- The report interval in µs: rpt_interval × 125, 0 acting as 1, or 500 on a rope link (Table PHX-3). -/
def Dev.phxInterval (d : Dev) (k : Nat) : Nat :=
  if k < 64 then 125 * max 1 (d.get (F.PHX_CFG_rpt_interval k)) else 500

/-- The number of RTT samples averaged: 2^avg, avg at most 10 (Table PHX-7). -/
def Dev.phxAvg (d : Dev) (k : Nat) : Nat := 2 ^ (min 10 (d.get (F.PHX_CFG_avg k)))

/-- A signed 64-bit register pair. -/
def Dev.pairInt (d : Dev) (lo hi : Nat) : Int := signed 64 (d.pair lo hi)

/-- A signed 64-bit register pair set. -/
def Dev.setPairInt (lo hi : Nat) (v : Int) (d : Dev) : Dev := d.setPair lo hi (saturate 64 v)

/-- α of a link in ppb, clamped to ±1,000,000 (Table PHX-7). -/
def Dev.asym (d : Dev) (k : Nat) : Int := clampInt (-1000000) 1000000 (d.sget (F.PHX_ASYM k))

/-! ### Summit and hops -/

/-- The kinds of candidates (Table REF-1): 0–63 Ethernet links, 64–79 rope lanes, 80–87 inputs, 88 host PTP. -/
def isLinkCand (c : Nat) : Bool := c < 80

/-- The candidate of the slot a DPLL follows. -/
def Dev.followsCand (d : Dev) (x : Nat) : Option Nat :=
  if d.flag (F.DPL_STATUS_slot_valid x) ∧ d.dpllFollows x then some (d.get (F.REF_SLOT_CFG_cand (d.get (F.DPL_STATUS_slot x))))
  else none

/-- A rope link whose partner has reported is downstream while the partner's hop count is one above the device's own (R325). -/
def Dev.ropeDownstream (k : Nat) (d : Dev) : Dev :=
  d.when (d.phxOf k).partner.isSome
    (Dev.put (F.PHX_STATUS_downstream k) (bit (d.get (F.PHX_STATUS_partner_hops k) == d.get F.PHX_CTRL_hops + 1)))

/-- PHX_CTRL.summit and hops (R324), and what follows from them on rope links; with neither link 78 nor 79 in TRACK the time
bases of a pair are not compared (R431). -/
def Dev.phxHops (d : Dev) : Dev :=
  let summit := match (Sparse.getD d.dplls 0 {}).last with | some c => decide (80 ≤ c ∧ c < 88) | none => true
  let hops :=
    if summit then 0
    else match d.followsCand 0 with
      | some c => if isLinkCand c ∧ d.phxState c = Phx.track then min 0xFE (d.get (F.PHX_STATUS_partner_hops c) + 1) else 0xFF
      | none => 0xFF
  let d1 := ((d.put F.PHX_CTRL_summit (bit summit)).put F.PHX_CTRL_hops hops).when
    (d.phxState 78 != Phx.track && d.phxState 79 != Phx.track) (Dev.put F.RDN_STATUS_cmp_valid 0)
  Dev.each ((List.range 16).map (· + 64)) Dev.ropeDownstream d1

/-- offset_valid falls: the event and its fault (R315); REF reads the bit at its next tick. -/
def Dev.phxLose (k : Nat) (d : Dev) : Dev :=
  if d.flag (F.PHX_STATUS_offset_valid k) then
    (d.put (F.PHX_STATUS_offset_valid k) 0).fault (R.PHX_EVENT_k k) 1 E.PHX_LOST k
  else d

/-- The RTT samples of a link discarded. -/
def Dev.phxDiscard (k : Nat) (d : Dev) : Dev :=
  (d.setPhx k { d.phxOf k with rtts := [] }).put (F.PHX_STATUS_rtt_valid k) 0

/-- A link enters a state other than TRACK. -/
def Dev.phxEnter (k s : Nat) (d : Dev) : Dev :=
  let d1 := (d.put (F.PHX_STATUS_state k) s).phxLose k
  if s = Phx.off then
    (((d1.setPhx k { seq := (d1.phxOf k).seq }).put (F.PHX_STATUS_rtt_valid k) 0).put (F.PHX_STATUS_freq_ok k) 0).calCheck
  else if s = Phx.align then
    let d2 := d1.phxDiscard k
    ((d2.setPhx k { d2.phxOf k with seen := false, count := 0, good := 0, resolved := false, jumped := false }).put (F.PHX_STATUS_freq_ok k) 0).calCheck
  else if s = Phx.range then (d1.setPhx k { d1.phxOf k with since := 0, resolved := false }).calCheck
  else d1.calCheck

/-- The states a link takes without a report (Table PHX-2): OFF, ALIGN, FREQ as its enables, its link and its phase
stand, and the fall to FREQ as freq_ok clears. -/
def Dev.phxEval (k : Nat) (d : Dev) : Dev :=
  let on := d.blockPresent 12 && !d.blockInReset 12 && d.flag F.PHX_CTRL_enable && d.flag (F.PHX_CFG_enable k) && d.phxLinkUp k
  let s := d.phxState k
  if !on then (if s = Phx.off then d else (d.phxEnter k Phx.off).phxHops)
  else
    let d1 := if s = Phx.off then d.phxEnter k Phx.align else d
    let d2 := if !d1.phxPhaseValid k ∧ d1.phxState k ≠ Phx.align then d1.phxEnter k Phx.align else d1
    let d3 := if d2.phxState k = Phx.align ∧ d2.phxPhaseValid k then d2.phxEnter k Phx.freqSt else d2
    let d4 := if 3 ≤ d3.phxState k ∧ !d3.phxFreqOk k then d3.phxEnter k Phx.freqSt else d3
    if d4.phxState k = s then d4 else d4.phxHops

/-- Every link evaluated. -/
def Dev.phxEvalAll (d : Dev) : Dev := Dev.each (List.range 80) Dev.phxEval d

/-- A phase jump (R319): counted, told to REF (R339); a link that ranges acquires anew, its RTT samples discarded. -/
def Dev.phxJump (k : Nat) (d : Dev) : Dev :=
  let d0 := { d with refs := { d.refs with jumpCands := addOnce k d.refs.jumpCands } }
  let d1 := (d0.sat (F.PHX_JUMP_CNT k) 1).fault (R.PHX_EVENT_k k) 2 E.PHX_JUMP k
  if 3 ≤ d1.phxState k then ((d1.phxDiscard k).phxEnter k Phx.range).phxHops else d1

/-! ### Samples -/

/-- The delay toward the device (R311) in 1/65,536 ns, with the α and δ the last sample applied (R321). -/
def Dev.phxDelay (d : Dev) (k : Nat) : Int :=
  let rtt := d.pairInt (R.PHX_RTT_LO k) (R.PHX_RTT_HI k)
  roundDiv (rtt * (1000000000 + (d.phxOf k).alpha) + (d.phxOf k).delta * 1000000000) 2000000000

/-- The delay and the offset of a link reported from its RTT and m_in (R308, R311). -/
def Dev.phxReport (k : Nat) (d : Dev) : Dev :=
  let din := d.phxDelay k
  let m := roundDiv (d.phxOf k).mIn gridUnits
  (d.setPairInt (R.PHX_DELAY_LO k) (R.PHX_DELAY_HI k) din).setPairInt (R.PHX_OFFSET_LO k) (R.PHX_OFFSET_HI k) (m - din)

/-- asym_mismatch follows the partner's values (R320). -/
def Dev.phxAsymCheck (k : Nat) (a b : Int) (d : Dev) : Dev :=
  let bad := a != -(d.asym k) || b != -(d.sget (F.PHX_ASYM_FIX k))
  if bad then
    if d.flag (F.PHX_STATUS_asym_mismatch k) then d
    else (d.put (F.PHX_STATUS_asym_mismatch k) 1).fault (R.PHX_EVENT_k k) 7 E.PHX_ASYM_MISMATCH k
  else d.put (F.PHX_STATUS_asym_mismatch k) 0

/-- asym_mismatch against what the partner last reported (R320). -/
def Dev.asymSync (k : Nat) (d : Dev) : Dev :=
  match (d.phxOf k).asym with
  | some (a, b) => d.phxAsymCheck k a b
  | none => d

/-- The jump threshold of a link in exact units (R319, Table PHX-3): clamped to 20–2,000 ps. -/
def Dev.phxThreshold (d : Dev) (k : Nat) : Int :=
  let ps := if k < 64 then d.get (F.PHX_CFG_jump_th k) else d.get F.RLK_JUMP_TH_thresh
  (max 20 (min 2000 ps) : Nat) * 6291456 / 10

/-- The frequency offset measured over an interval of `n` samples, in 0.1 ppb (R308). -/
def freqTenths (delta : Int) (n : Nat) : Int := roundDiv (delta * 15625) (983040 * n)

/-- The end of a frequency interval (R308, R316): PHX_FREQ_k, and freq_ok after four good intervals in a row. -/
def Dev.phxInterval_ends (k : Nat) (d : Dev) : Dev :=
  let x := d.phxOf k
  let fr := freqTenths (x.mIn - x.mStart) x.count
  let good := if fr.natAbs ≤ 100 then x.good + 1 else 0
  let d1 := (d.put (F.PHX_FREQ k) (saturate 32 fr)).setPhx k { x with mStart := x.mIn, count := 0, good := good }
  if 500 < fr.natAbs then (d1.put (F.PHX_STATUS_freq_ok k) 0).phxEval k
  else if 4 ≤ good then d1.put (F.PHX_STATUS_freq_ok k) 1
  else d1

/-- A sample of a link (R308, R311, R319–R321): the arrival of the latest grid boundary from the lane's TDC result, `blocks`
block periods before the edge it measured; m_in with the step compensated; α and δ as they now stand; the jump test; the offset
passed to REF. -/
def Dev.phxSample (k blocks : Nat) (d : Dev) : Dev :=
  let s := d.phxState k
  if s = Phx.off ∨ s = Phx.align then d
  else
    match (d.tdcOf (d.phxChannel k)).last with
    | none => d
    | some t =>
      let x := d.phxOf k
      let g : Int := d.gridPeriod k
      let block : Int := if k < 64 then 65536 * nthD [61440, 24576, 12288, 6144, 3072, 1536] (d.get (F.MAC_CFG_speed k)) 6144 else g
      let port := if k < 64 then k else k + 1
      let a : Int := ((t : Int) - d.rxDelay port) * gridUnits - blocks * block
      let f := (a - (d.get (F.PHX_PARTNER_GRID k) : Int) * gridUnits) % g
      let prev := x.mIn + x.step
      let m := if x.seen then roundDiv (prev - f) g.toNat * g + f else f
      let drift := (d.sget (F.PHX_FREQ k)).natAbs * 6291456 / 100000
      let jump := x.seen && decide (d.phxThreshold k + drift < ((m - prev).natAbs : Int))
      let x1 := { x with
        mIn := m, arr := a, step := 0, seen := true, count := x.count + 1
        mStart := if x.seen then x.mStart + x.step else m
        alpha := d.asym k, delta := d.sget (F.PHX_ASYM_FIX k), jumped := jump }
      let d1 := (d.setPhx k x1).asymSync k
      let d2 := if jump then (d1.setPhx k { x1 with mStart := m, count := 0 }).phxJump k else d1
      let d3 := if d2.phxInterval k ≤ (d2.phxOf k).count then d2.phxInterval_ends k else d2
      d3.when ((d3.phxOf k).rtts != []) (Dev.phxReport k)

/-! ### Accepted reports -/

/-- What an accepted report or hyperframe tells PHX: the partner's identity, port and mode, its epoch and grid phase,
its hops and follows flag, its m in 1/65,536 ns, the coarse m_in, and its asymmetry where it carries one. -/
structure PhxInfo where
  ident : Nat
  port : Nat
  mode : Nat
  epoch : Nat
  grid : Nat
  hops : Nat
  follows : Option Bool
  m : Option Int
  coarse : Int
  asym : Option (Int × Int)
  deriving DecidableEq, Repr

/-- The hop count and the follows flag of a partner (R325): downstream by the flag, or on a rope link by a hop count one
above the device's own. -/
def Dev.phxDownstream (k : Nat) (i : PhxInfo) (d : Dev) : Dev :=
  let down := match i.follows with
    | some b => b
    | none => i.hops == d.get F.PHX_CTRL_hops + 1
  (d.put (F.PHX_STATUS_partner_hops k) i.hops).put (F.PHX_STATUS_downstream k) (bit down)

/-- The RTT sample of a report (R310, R315): the mean of the last 2^avg, and the states that follow. -/
def Dev.phxRtt (k : Nat) (m : Int) (d : Dev) : Dev :=
  let x := d.phxOf k
  let sample := m + roundDiv x.mIn gridUnits
  let s := d.phxState k
  let old := d.pairInt (R.PHX_RTT_LO k) (R.PHX_RTT_HI k)
  let near := decide (((sample - old).natAbs : Int) * gridUnits * 4 ≤ d.gridPeriod k)
  let l := (sample :: x.rtts).take (d.phxAvg k)
  let mean := roundDiv l.sum l.length
  let d1 := (d.setPhx k { x with rtts := l, since := x.since + 1 }).setPairInt (R.PHX_RTT_LO k) (R.PHX_RTT_HI k) mean
  if s = Phx.range ∧ d.phxAvg k ≤ x.since + 1 then
    let d2 := ((d1.put (F.PHX_STATUS_state k) Phx.track).put (F.PHX_STATUS_rtt_valid k) 1).put (F.PHX_STATUS_offset_valid k) 1
    ((d2.wrap (F.PHX_STATUS_acq_epoch k) 1).event (R.PHX_EVENT_k k) 0).phxReport k
  else if s = Phx.stale then
    if near then ((d1.put (F.PHX_STATUS_state k) Phx.track).put (F.PHX_STATUS_offset_valid k) 1).phxReport k
    else (d1.phxReport k).phxEnter k Phx.range
  else d1.phxReport k

/-- k resolved from a coarse m_in (R308, R309): f is formed of the last sample's arrival, on the time base as it now stands, and the
grid phase the partner now reports; m_in takes the nearest whole number of periods. -/
def Dev.phxResolve (k : Nat) (coarse : Int) (d : Dev) : Dev :=
  let x := d.phxOf k
  let g := d.gridPeriod k
  let a := x.arr + x.step
  let f := (a - (d.get (F.PHX_PARTNER_GRID k) : Int) * gridUnits) % (g : Int)
  let m := roundDiv (coarse * gridUnits - f) g * g + f
  d.setPhx k { x with mIn := m, arr := a, step := 0, mStart := x.mStart + (m - x.mIn), resolved := true }

/-- A report counted as accepted (R314, Table CNT-1: device counter 2 counts those of Ethernet links). -/
def Dev.phxCounted (k : Nat) (d : Dev) : Dev := (d.wrap (F.PHX_RPT_CNT k) 1).when (decide (k < 64)) (Dev.count (devCtr 2) 1)

/-- The report carries a new partner epoch. -/
def Dev.phxEpochNew (d : Dev) (k : Nat) (i : PhxInfo) : Bool := d.get (F.PHX_STATUS_partner_epoch k) != i.epoch

/-- The partner of a link changed: its identity, port or mode, or its grid phase while its epoch did not (Table PHX-2). -/
def Dev.phxChanged (d : Dev) (k : Nat) (i : PhxInfo) : Bool :=
  match (d.phxOf k).partner with
  | none => false
  | some q => q != (i.ident, i.port, i.mode) || (!d.phxEpochNew k i && d.get (F.PHX_PARTNER_GRID k) != i.grid)

/-- A report that resolves nothing is ambiguous (R309): its coarse value lies more than G / 4 from m_in. -/
def Dev.phxAmbiguous (d : Dev) (k : Nat) (i : PhxInfo) : Bool :=
  let x := d.phxOf k
  decide (3 ≤ d.phxState k) && x.resolved && !d.phxEpochNew k i && !d.phxChanged k i &&
    decide ((d.gridPeriod k : Int) < 4 * ((i.coarse * gridUnits - (x.mIn + x.step)).natAbs : Int))

/-- A report's contents as PHX takes them once it has accepted it (R309, R310, R315, R320, R325); without an m it leaves a STALE link in
RANGE. -/
def Dev.phxTake (k : Nat) (arrival : Nat) (i : PhxInfo) (d : Dev) : Dev :=
  let epochNew := d.phxEpochNew k i
  let changed := d.phxChanged k i
  let d1 := (((d.put (F.PHX_STATUS_partner_epoch k) i.epoch).put (F.PHX_PARTNER_GRID k) i.grid).phxDownstream k i).calCheck
  let d2 := (d1.put (F.PHX_PARTNER_ID_HI k) (i.ident / 2 ^ 32)).put (F.PHX_PARTNER_ID_LO k) i.ident
  let d3 := match i.asym with
    | some (a, _) => ((d2.put (F.PHX_PARTNER_ASYM k) (unsigned 32 a)).setPhx k { d2.phxOf k with asym := i.asym }).asymSync k
    | none => d2
  let d4 := d3.setPhx k { d3.phxOf k with partner := some (i.ident, i.port, i.mode), lastAcc := some arrival }
  let d5 := if changed ∧ 3 ≤ d4.phxState k then
      ((d4.event (R.PHX_EVENT_k k) 5).phxDiscard k).phxEnter k Phx.range
    else d4
  let d6 := if d5.phxState k = Phx.freqSt ∧ d5.phxFreqOk k then d5.phxEnter k Phx.range else d5
  let d7 := (d6.phxCounted k).phxHops
  if d7.phxState k < 3 ∨ !(d7.phxOf k).seen then d7
  else
    let d8 := d7.when (!(d7.phxOf k).resolved || epochNew) (Dev.phxResolve k i.coarse)
    match i.m with
    | some m => (d8.phxRtt k m).phxHops
    | none => if d8.phxState k = Phx.stale then (d8.phxEnter k Phx.range).phxHops else d8

/-- A report PHX accepts under R314 is taken, or discarded as ambiguous, which counts as a phase jump (R309), or because the sample it
follows was one (Table PHX-4). -/
def Dev.phxAccept (k : Nat) (arrival : Nat) (i : PhxInfo) (d : Dev) : Dev :=
  if (d.phxOf k).jumped then d
  else if d.phxAmbiguous k i then ((d.sat (F.PHX_AMBIG k) 1).fault (R.PHX_EVENT_k k) 4 E.PHX_AMBIGUITY k).phxJump k
  else d.phxTake k arrival i

/-- The device's own identity: RLK_SRC_ID. -/
def Dev.identity (d : Dev) : Nat := d.get F.RLK_SRC_ID_HI * 2 ^ 32 + d.get F.RLK_SRC_ID_LO

/-- PHX_SA as 48 bits, the address reports and announces are sent from. -/
def Dev.phxSa (d : Dev) : Nat := d.get F.PHX_SA_HI * 2 ^ 16 + d.get F.PHX_SA_LO

/-- A frame as its port's MACsec leaves it, or none where the policy drops it (R454). -/
def Dev.opened (d : Dev) (p : Nat) (bs : List Byte) : Option (List Byte) :=
  match d.rxTag p bs with
  | .plain => some bs
  | .secure ch j pn => if fcsOk bs ∧ !d.rxFails p ch j pn bs then some (d.openBytes p bs true) else none
  | _ => none

/-- A report on an Ethernet link (R312, R314), received with its SFD `bits` lane bits after its lane's latest event: accepted and taken,
or discarded and counted. `bs` are its bytes once its port's MACsec is done with it. -/
def Dev.phxRead (p bits : Nat) (bs : List Byte) (d : Dev) : Dev :=
  if !d.isReport p bs then d
  else
    let w := fun (i n : Nat) => octets bs (14 + i) n
    let stamp := d.rxStamp p bits
    let flags := w 1 1
    let ident := w 4 8
    let own := ident == d.identity
    let early := match (d.phxOf p).lastAcc with
      | some t => decide (stamp.t < t + 100000 * 65536)
      | none => false
    let ok := fcsOk bs && bs.length == 82 && w 0 1 == 1 && flags % 4 == 3 && !own && !early && d.phxState p != Phx.off
    if !ok then
      (d.sat (F.PHX_RPT_ERR p) 1).when (own && fcsOk bs) (Dev.fault (R.PHX_EVENT_k p) 6 E.PHX_LOOP p)
    else
      let dep := instant (w 16 6) (w 22 4) (w 26 2)
      let info : PhxInfo :=
        { ident := ident, port := w 12 1, mode := w 15 1, epoch := w 14 1, grid := w 28 4, hops := w 13 1
          follows := some (hasBit flags 4), m := if hasBit flags 2 then some (signed 64 (w 32 8)) else none
          coarse := (stamp.t : Int) - dep, asym := some (signed 32 (w 40 4), signed 32 (w 44 4)) }
      d.phxAccept p stamp.t info

/-- A report as it stands on the line: one its port's MACsec policy drops is no report to PHX (R314). -/
def Dev.phxReceive (p bits : Nat) (bs : List Byte) (d : Dev) : Dev :=
  match d.opened p bs with | some l => d.phxRead p bits l | none => d

/-- The timeout without an accepted report: a TRACK link goes STALE (R315). -/
def Dev.phxStale (k : Nat) (d : Dev) : Dev :=
  if d.phxState k ≠ Phx.track then d
  else (((d.put (F.PHX_STATUS_state k) Phx.stale).event (R.PHX_EVENT_k k) 3).phxLose k).calCheck.phxHops

/-! ### Reports sent -/

/-- The report of a link as it leaves with its SFD `bits` bits after its lane's last reference edge (R312, R313, Table PHX-1). -/
def Dev.reportBytes (d : Dev) (p bits : Nat) : List Byte :=
  let x := d.phxOf p
  let tx := d.txStamp p bits
  let ranging := 3 ≤ d.phxState p
  let grid := !d.flag F.TBS_STATUS_slewing && !d.flag F.TBS_STATUS_ff_active
  let follows := d.followsCand 0 == some p
  let flags := bit d.timeReady + 2 * bit grid + 4 * bit ranging + 8 * bit (d.flag F.PHX_CTRL_summit) + 16 * bit follows
  let mode := d.get (F.MAC_CFG_speed p) + 16 * d.get (F.MAC_CFG_fec p)
  let m := if ranging then unsigned 64 (roundDiv x.mIn gridUnits) else 0
  let body := beBytes 6 phxDa ++ beBytes 6 d.phxSa ++ beBytes 2 0x88B5 ++
    [1, BitVec.ofNat 8 flags] ++ beBytes 2 x.seq ++ beBytes 8 d.identity ++
    [BitVec.ofNat 8 p, BitVec.ofNat 8 (d.get F.PHX_CTRL_hops), BitVec.ofNat 8 (d.get F.TBS_STATUS_epoch), BitVec.ofNat 8 mode] ++
    todBytes tx.t ++ beBytes 4 (d.get (F.PHX_GRID p)) ++ beBytes 8 m ++ beBytes 4 (unsigned 32 (d.asym p)) ++
    beBytes 4 (d.get (F.PHX_ASYM_FIX p)) ++ List.replicate 16 0
  body ++ fcs body

/-- A link sends reports (R313). -/
def Dev.phxSends (d : Dev) (p : Nat) : Bool :=
  d.blockPresent 12 && d.flag (F.PHX_CFG_enable p) && decide (p < 64) && d.portPresent p && d.portReady p

/-- A frame of `n` bytes that starts now ends before every launch time held for the port and before the gate of an express class that
stands open closes (R313). DEDUCED: its express queue is every queue of an express class of the port. -/
def Dev.fitsGap (d : Dev) (p n : Nat) : Bool :=
  let t := d.sendTime p n
  (d.timedHeads p).all (fun x => decide (d.now + t ≤ x.1)) &&
    (List.range 8).all (fun q =>
      !hasBit (d.get (F.QSC_FWD_MODE_express p)) q || !hasBit (d.gateMask p) q ||
      d.beforeClose p q t)

/-- The waiting report of a link leaves if the port stands at a frame boundary and the report fits the gap; one that has waited a whole
interval is skipped (R313). The flag says that a report left. -/
def Dev.phxLeave (p bits : Nat) (d : Dev) : Bool × Dev :=
  let x := d.phxOf p
  match x.due with
  | none => (false, d)
  | some t =>
    if !d.phxSends p ∨ t + d.phxInterval p * 1000 * 65536 ≤ d.now then (false, d.setPhx p { x with due := none })
    else
      let bs := d.reportBytes p bits
      if (d.sendingOn p).isSome ∨ !d.fitsGap p (bs.length + d.secLen p bs) then (false, d)
      else
        let d1 := (d.insertFrame p bs).count (devCtr 1) 1
        (true, d1.setPhx p { x with seq := (x.seq + 1) % 65536, due := none })

/-- A report falls due on a link (R313): its lanes leave L1 (R133), and it leaves at once or waits for a frame boundary with a gap. One
that still waits, a whole interval old, gives way to it. -/
def Dev.phxSend (p bits : Nat) (d : Dev) : Dev :=
  if !d.phxSends p then d
  else
    let x := d.phxOf p
    let late := match x.due with | some t => decide (t + d.phxInterval p * 1000 * 65536 ≤ d.now) | none => true
    (((d.leaveL1 p).setPhx p (if late then { x with due := some d.now } else x)).phxLeave p bits).2

/-! ### Calibration -/

/-- The start of a calibration, or its refusal (R322, R323); start is cleared either way. -/
def Dev.calStart (d : Dev) : Dev :=
  let k := d.get F.PHX_CAL_CTRL_link
  let ch := d.get F.PHX_CAL_CTRL_chan
  let d0 := d.put F.PHX_CAL_CTRL_start 0
  if d0.get F.PHX_CAL_STATUS_state = 1 then d0.put F.PHX_CAL_STATUS_reason 3
  else if 80 ≤ k ∨ d0.phxState k ≠ Phx.track then d0.put F.PHX_CAL_STATUS_reason 1
  else if ch < 80 ∨ 91 < ch ∨ d0.tdcMode ch ≠ 1 then d0.put F.PHX_CAL_STATUS_reason 2
  else
    let d1 := (d0.calReason 1 0).put F.PHX_CAL_STATUS_samples 0
    { d1 with phxCal := { epoch := d1.get F.TBS_STATUS_epoch, partnerEpoch := d1.get (F.PHX_STATUS_partner_epoch k)
                          link := k, chan := ch, target := d1.flag F.PHX_CAL_CTRL_target } }

/-- A calibration sample from a result of its channel (R322). -/
def Dev.calSample (ch t : Nat) (d : Dev) : Dev :=
  if d.get F.PHX_CAL_STATUS_state ≠ 1 ∨ d.phxCal.chan ≠ ch then d
  else
    let k := d.phxCal.link
    let v : Int := (t : Int) - d.sget F.PHX_CAL_CABLE
    let second : Int := 65536 * 1000000000
    let truth := v - roundDiv v (65536 * 1000000000) * second
    let e := d.pairInt (R.PHX_OFFSET_LO k) (R.PHX_OFFSET_HI k) - truth
    let n := d.get F.PHX_CAL_STATUS_samples
    let c := d.phxCal
    let c1 := { c with sum := c.sum + e, lo := if n = 0 then e else min c.lo e, hi := if n = 0 then e else max c.hi e }
    { d with phxCal := c1 }.sat F.PHX_CAL_STATUS_samples 1

/-- PHX_CAL_LEN in seconds, 1–3,600 (Table PHX-6). -/
def Dev.calLen (d : Dev) : Nat := max 1 (min 3600 (d.get F.PHX_CAL_LEN))

/-- The end of a calibration (R322, R323): the mean error and the result, or the failure. -/
def Dev.calEnd (d : Dev) : Dev :=
  let d0 := d.calCheck
  if d0.get F.PHX_CAL_STATUS_state ≠ 1 then d0
  else
    let n := d0.get F.PHX_CAL_STATUS_samples
    let c := d0.phxCal
    if 2 * n < d0.calLen then d0.calFail 6
    else if 2 * 65536 < c.hi - c.lo then d0.calFail 7
    else
      let k := c.link
      let mean := roundDiv c.sum n
      let rtt := d0.pairInt (R.PHX_RTT_LO k) (R.PHX_RTT_HI k)
      let result := if c.target then d0.sget (F.PHX_ASYM_FIX k) + 2 * mean
        else d0.asym k + (if rtt = 0 then 0 else roundDiv (2 * mean * 1000000000 * rtt.sign) rtt.natAbs)
      let d1 := (d0.setPairInt R.PHX_CAL_ERR_LO R.PHX_CAL_ERR_HI mean).put F.PHX_CAL_RESULT (saturate 32 result)
      (d1.calReason 2 0).event R.PHX_EVENT 0

end Sys2Proof.Machine
end

