-- ==== Sys2Proof/Machine/Holdover.lean ====
section
/-! DEFINITION. Holdover: the one-second history, the holdover value, the temperature model, the ageing term and the control
value (R269, R270, R358–R379). DPLL 0 is DPLL_T and 1 is DPLL_F. -/

namespace Sys2Proof.Machine

/-- A DPLL's state beyond its registers. -/
def Dev.dpll (d : Dev) (x : Nat) : Dpll := Sparse.getD d.dplls x {}

/-- A DPLL's state set. -/
def Dev.setDpll (x : Nat) (p : Dpll) (d : Dev) : Dev :=
  { d with dplls := if p = {} then Sparse.del d.dplls x else Sparse.put d.dplls x p }

abbrev Dpl.freerun : Nat := 0
abbrev Dpl.holdover : Nat := 1
abbrev Dpl.acquire : Nat := 2
abbrev Dpl.locked : Nat := 3

/-- The state of a DPLL (Table DPL-1). -/
def Dev.dplState (d : Dev) (x : Nat) : Nat := d.get (F.DPL_STATUS_state x)

/-- A DPLL enters a state; the second under way is broken by any state but LOCKED (R359). -/
def Dev.setDplState (x s : Nat) (d : Dev) : Dev :=
  let p := d.dpll x
  (d.put (F.DPL_STATUS_state x) s).setDpll x { p with broken := p.broken || s != Dpl.locked }

/-- The root is locked. -/
def Dev.rootLocked (d : Dev) : Bool := d.flag F.SYN_STATUS_root_lock

/-- The mean of a list, rounded to nearest (R378 allows 1 ppt). -/
def meanInt (l : List Int) : Int := roundDiv l.sum l.length

/-! ### The control value -/

/-- The greatest steering of the root, ±100 ppm in ppt (R17, R270). -/
abbrev steerMax : Int := 100000000

/-- A control value taken: STEER reports it, HO_VALUE in holdover; on the backup PLL it is f (R269, R352). -/
def Dev.setControl (x : Nat) (v : Int) (d : Dev) : Dev :=
  let c := if x = 0 then clampInt (-steerMax) steerMax v else v
  let d1 := (d.setDpll x { d.dpll x with control := c }).sput (F.DPL_STEER x) c
  let d2 := d1.when (d1.dplState x == Dpl.holdover) (Dev.sput (F.DPL_HO_VALUE x) c)
  d2.when (x == 0 && d2.flag F.TBS_STATUS_ff_active && !d2.rootLocked) (Dev.sput F.TBS_FF c)

/-- The control value in FREERUN and in HOLDOVER (R361, R366). -/
def Dev.idleControl (d : Dev) (x : Nat) : Int :=
  let age := (d.dpll x).age
  if d.dplState x = Dpl.freerun then age else d.sget (F.DPL_HO_BASIC x) + d.sget (F.DPL_HO_TEMP x) + age

/-- The control value brought up to date in FREERUN and in HOLDOVER. -/
def Dev.refreshControl (x : Nat) (d : Dev) : Dev := if d.dplState x ≤ 1 then d.setControl x (d.idleControl x) else d

/-- The ageing term of a DPLL set; TBS_AGE_ACC reports DPLL_T's (R270). -/
def Dev.setAge (x : Nat) (v : Int) (secs : Nat) (d : Dev) : Dev :=
  (d.setDpll x { d.dpll x with age := v, ageSecs := secs }).when (x == 0) (Dev.sput F.TBS_AGE_ACC v)

/-- The ageing rate of a DPLL in ppt per day: the learned slope or TBS_AGE_RATE (R270, R366). -/
def Dev.ageRate (d : Dev) (x : Nat) : Int := if (d.dpll x).useSlope then (d.dpll x).model.slope else d.sget F.TBS_AGE_RATE

/-- Once per second in free-run or holdover the ageing term is recomputed (R270, R366). -/
def Dev.ageingUpdate (x : Nat) (d : Dev) : Dev :=
  if 2 ≤ d.dplState x then d
  else
    let n := (d.dpll x).ageSecs + 1
    let v := clampInt (-steerMax) steerMax ((d.ageRate x * n).tdiv 86400)
    (d.setAge x v n).refreshControl x

/-- f starts to apply (R269). -/
def Dev.ffStart (d : Dev) : Dev :=
  let d1 := if d.flag F.TBS_STATUS_ff_active then d else (d.put F.TBS_STATUS_ff_active 1).event R.TBS_EVENT 3
  d1.sput F.TBS_FF (d1.dpll 0).control

/-! ### The holdover value -/

/-- Window and offset of a DPLL in seconds (Table DPL-4). -/
def Dev.hoWindow (d : Dev) (x : Nat) : Nat := 60 * max 1 (min 1024 (d.get (F.DPL_HO_CFG_window x)))
def Dev.hoOffset (d : Dev) (x : Nat) : Nat := max 8 (min 3600 (d.get (F.DPL_HO_CFG_offset x)))

/-- The valid one-second entries that end between `lo` and `hi` ticks before now, `hi` excluded; none leaves it open. -/
def Dpll.span (p : Dpll) (lo : Nat) (hi : Option Nat) : List SecondEntry :=
  ((p.ring.zipIdx).filter (fun e =>
    let age := e.2 * 10000 + p.ticks
    e.1.valid && decide (lo ≤ age) && (match hi with | some h => decide (age < h) | none => true))).map (·.1)

/-- Every entry of the learning history, newest first, with its block's hour. -/
def Learn.all (l : Learn) : List (Nat × LearnEntry) := l.blocks.flatMap (fun b => b.entries.map (fun e => (b.hour, e)))

/-- The value of a learning entry in ppt, and its temperature in 0.01 °C (Table DPL-2). -/
def entryValue (w : Word) : Int := signed 21 (bits w 0 21) * 100
def entryTemp (w : Word) : Int := (bits w 21 10 : Int) * 25 - 6400

/-- The valid whole minutes that lie between `lo` and `hi` ticks before now (R362). -/
def Dev.minuteSpan (d : Dev) (ticks lo hi : Nat) : List Word :=
  (d.learn.all.filter (fun e => match e.2.at_ with
    | none => false
    | some t =>
      let age := (d.learn.secs - t) * 10000 + ticks
      e.2.word.getLsbD 31 && decide (lo ≤ age) && decide (age + 600000 ≤ hi))).map (fun e => e.2.word)

/-- h_d by R361 and R362 at a loss instant now: its value, source, valid seconds and mean temperature. -/
def Dev.holdoverValue (d : Dev) (x : Nat) : Option (Int × Nat × Nat × Int) :=
  let p := d.dpll x
  let off := d.hoOffset x * 10000
  let far := off + d.hoWindow x * 10000
  let minutes := if x = 0 ∧ 72000000 < far ∧ d.flag F.TOP_READY_hold then d.minuteSpan p.ticks off far else []
  let win := p.span off (some far)
  let all := p.span off none
  if minutes != [] then
    some (meanInt (minutes.map entryValue), 0, 60 * minutes.length, meanInt (minutes.map entryTemp))
  else if 8 ≤ win.length ∧ ¬(x = 0 ∧ 72000000 < far ∧ d.flag F.TOP_READY_hold) then
    some (meanInt (win.map (·.value)), 0, win.length, meanInt (win.map (·.temp)))
  else if 8 ≤ all.length then some (meanInt (all.map (·.value)), 1, all.length, meanInt (all.map (·.temp)))
  else if p.hasH then some (d.sget (F.DPL_HO_BASIC x), 3, 0, d.sget F.DPL_LRN_TEMP)
  else none

/-- h_d formed or carried (R361, R363); none where no value exists. The model, comp_en, ret_step and the anchor are taken with it
(R364, R366). -/
def Dev.formH (x : Nat) (d : Dev) : Option Dev :=
  let p := d.dpll x
  if p.hasH ∧ !p.lockedSince then
    some ((d.sput (F.DPL_HO_BASIC x) (d.sget (F.DPL_HO_BASIC x) + p.age)).put (F.DPL_HO_STATUS_source x) 2)
  else
    match d.holdoverValue x with
    | none => none
    | some (h, src, n, t) =>
      let d1 := (d.sput (F.DPL_HO_BASIC x) h).put (F.DPL_HO_STATUS_source x) src
      let d2 := (d1.put (F.DPL_HO_STATUS_valid x) (min 65535 n)).put (F.DPL_HO_ANCHOR x) (saturate 16 t)
      let d3 := (d2.put (F.DPL_HO_ELAPSED x) 0).put (F.DPL_HO_TEMP x) 0
      some (d3.setDpll x { p with
        hasH := true, lockedSince := false, model := d.learn.model, comp := d.flag (F.DPL_HO_CFG_comp_en x)
        retStep := d.flag (F.DPL_HO_CFG_ret_step x)
        useSlope := false })

/-- Holdover is compensated (R365). -/
def Dev.compensated (d : Dev) (x : Nat) : Bool :=
  let p := d.dpll x
  p.comp && d.flag F.TOP_READY_hold && p.model.valid && !d.learn.stale

/-- The learned slope is in use in compensated holdover: for DPLL_T where the model has an ageing order (R366), which the model
takes as its ageing term fitted (log entry 67). -/
def Dev.slopeUsed (d : Dev) (x : Nat) : Bool := d.compensated x && (x != 0 || (d.dpll x).model.ageing)

/-- comp follows R365; a holdover that stops being compensated keeps the slope it was using (R367). -/
def Dev.setComp (x : Nat) (d : Dev) : Dev :=
  let c := d.compensated x
  let p := d.dpll x
  (d.put (F.DPL_HO_STATUS_comp x) (bit c)).setDpll x { p with useSlope := if c then d.slopeUsed x else p.useSlope }

/-- A DPLL stops following: no slot, no transfer, no return. -/
def Dev.dropSlot (x : Nat) (d : Dev) : Dev :=
  let d1 := ((d.put (F.DPL_STATUS_slot_valid x) 0).put (F.DPL_STATUS_slot x) 0).put (F.DPL_STATUS_transfer x) 0
  (d1.put (F.DPL_HO_STATUS_returning x) 0).setDpll x { d1.dpll x with starting := false }

/-- A DPLL that stops following its reference enters HOLDOVER, or FREERUN where no holdover value exists (R360–R363); the
ageing term starts at 0 (R270). -/
def Dev.enterHoldover (x : Nat) (d : Dev) : Dev :=
  if d.dplState x ≤ 1 then d
  else
    match d.formH x with
    | none => (((d.dropSlot x).setDplState x Dpl.freerun).setAge x 0 0).refreshControl x
    | some e =>
      let d1 := ((e.dropSlot x).setDplState x Dpl.holdover).setAge x 0 0
      let d2 := (d1.event (R.DPL_EVENT x) 2).raise (if x = 0 then E.DPL_T_HOLDOVER else E.DPL_F_HOLDOVER) 0
      (d2.setComp x).refreshControl x

/-! ### Compensation -/

/-- 10⁶ × m(T) in ppt (R366). -/
def XoModel.eval (m : XoModel) (t : Int) : Int := m.k1 * (t - m.tref) * 10000 + m.k2 * (t - m.tref) ^ 2

/-- The temperature at which m is evaluated, within 5 °C of the range fitted (R368). -/
def XoModel.held (m : XoModel) (t : Int) : Int := clampInt (m.lo - 500) (m.hi + 500) t

/-- The once-per-second update of a holdover (R365–R368). -/
def Dev.holdoverUpdate (x : Nat) (d : Dev) : Dev :=
  if d.dplState x ≠ Dpl.holdover then d
  else
    let d1 := d.setComp x
    if !d1.compensated x then d1.refreshControl x
    else
      let m := (d1.dpll x).model
      let t := d1.sget F.DPL_LRN_TEMP
      let ex := m.held t != t
      let v := roundDiv (m.eval (m.held t) - m.eval (d1.sget (F.DPL_HO_ANCHOR x))) 1000000
      let d2 := d1.when (ex && !d1.flag F.DPL_LRN_STATUS_extrap) (Dev.fault R.DPL_LRN_EVENT 3 E.DPL_LRN_EXTRAP 0)
      ((d2.put F.DPL_LRN_STATUS_extrap (bit ex)).sput (F.DPL_HO_TEMP x) v).refreshControl x

/-- A reading of the temperature source (R367). -/
def Dev.tempReading (t : Int) (d : Dev) : Dev :=
  let d1 := ((d.sput F.DPL_LRN_TEMP t).put (F.DPL_HO_STATUS_temp_stale 0) 0).put (F.DPL_HO_STATUS_temp_stale 1) 0
  { d1 with learn := { d1.learn with stale := false } }

/-- The temperature source goes stale (R367). -/
def Dev.tempStale (d : Dev) : Dev :=
  let d1 := (d.put (F.DPL_HO_STATUS_temp_stale 0) 1).put (F.DPL_HO_STATUS_temp_stale 1) 1
  { d1 with learn := { d1.learn with stale := true, staleInMinute := true } }.fault R.DPL_LRN_EVENT 2 E.DPL_LRN_TEMP_STALE 0

/-! ### History and learning -/

/-- One DPLL's entry of the second that ends (R358, R359); the seconds since a holdover's first entry are
counted until the DPLL has locked again (R363, Table DPL-4). -/
def Dev.secondOf (x : Nat) (d : Dev) : Dev :=
  let p := d.dpll x
  let here := d.dplState x == Dpl.locked && !d.flag (F.DPL_STATUS_transfer x) && (x != 0 || d.rootLocked)
  let v := if p.ticks = 0 then p.integ else roundDiv p.sum p.ticks
  let e : SecondEntry := { valid := here && !p.broken, value := v, temp := d.sget F.DPL_LRN_TEMP }
  let d1 := d.setDpll x { p with ring := (e :: p.ring).take 7200, sum := 0, ticks := 0, broken := !here }
  d1.when (d1.dplState x == Dpl.holdover || (p.hasH && !p.lockedSince)) (Dev.wrap (F.DPL_HO_ELAPSED x) 1)

/-- A second of the time clock ends (R358): `diode` is the remote diode's reading in 0.01 °C, where it gave one (R367). -/
def Dev.secondEntry (diode : Option Int) (d : Dev) : Dev :=
  let d1 := match diode with
    | some t => d.when (!d.flag F.DPL_LRN_CTRL_temp_src) (Dev.tempReading t)
    | none => d
  let d2 := (d1.secondOf 0).secondOf 1
  { d2 with learn := { d2.learn with secs := d2.learn.secs + 1 } }

/-- The number of valid entries held, as DPL_LRN_STATUS.minutes reports it. -/
def Learn.valid (l : Learn) : List (Nat × LearnEntry) := l.all.filter (fun e => e.2.word.getLsbD 31)

/-- The minutes register brought up to date. -/
def Dev.syncMinutes (d : Dev) : Dev := d.put F.DPL_LRN_STATUS_minutes (min 65535 d.learn.valid.length)

/-- The entry of a minute (R369, Table DPL-2). -/
def Dev.minuteWord (d : Dev) : Word :=
  let es := (d.dpll 0).ring.take 60
  let t := if es = [] then 0 else meanInt (es.map (·.temp))
  let v := if es = [] then 0 else meanInt (es.map (·.value))
  let ok := es.length == 60 && es.all (·.valid) && !d.learn.staleInMinute && decide (-6400 ≤ t) && decide (t ≤ 19175)
  let code := (clampInt 0 1023 (roundDiv (t + 6400) 25)).toNat
  BitVec.ofNat 32 (saturate 21 (roundDiv v 100) + code * 2 ^ 21 + bit ok * 2 ^ 31)

/-- An entry put into the newest hour block, or into a new one in place of the oldest (R369). -/
def Learn.add (l : Learn) (hour : Nat) (e : LearnEntry) : Learn :=
  match l.blocks with
  | b :: bs =>
    if b.entries.length < 60 then { l with blocks := { b with entries := e :: b.entries } :: bs }
    else { l with blocks := (⟨hour, [e]⟩ :: b :: bs).take 720 }
  | [] => { l with blocks := [⟨hour, [e]⟩] }

/-- A minute of the time clock ends (R369). -/
def Dev.learnMinute (d : Dev) : Dev :=
  let l := d.learn
  let l1 := if d.flag F.DPL_LRN_CTRL_enable then l.add (secOf d.now / 3600) ⟨d.minuteWord, some l.secs⟩ else l
  ({ d with learn := { l1 with staleInMinute := l1.stale } }).syncMinutes

/-- The valid entries of the newest epoch: blocks from the newest back to the first whose hour is not greater than that of the
block before it (R370). -/
def newestEpoch : List LearnBlock → List LearnBlock
  | [] => []
  | [b] => [b]
  | b :: c :: bs => if b.hour ≤ c.hour then [b] else b :: newestEpoch (c :: bs)

/-- The least and the greatest of a list. -/
def least (l : List Int) : Int := l.foldl min (l.headD 0)
def greatest (l : List Int) : Int := l.foldl max (l.headD 0)

/-- A sample of the fit: the control value in ppt, the temperature in 0.01 °C, and for one of the newest epoch its minute. -/
structure FitPoint where
  value : Int
  temp : Int
  minute : Option Nat
  deriving DecidableEq, Repr

/-- The valid entries of blocks as samples; `dated` for those of the newest epoch, with the minutes at which they lie. -/
def fitPoints (dated : Bool) (bs : List LearnBlock) : List FitPoint :=
  bs.flatMap (fun b => ((b.entries.reverse.zipIdx).filter (fun e => e.1.word.getLsbD 31)).map (fun e =>
    { value := entryValue e.1.word, temp := entryTemp e.1.word, minute := if dated then some (60 * b.hour + e.2) else none }))

/-- A determinant, expanded by its first row; the first argument is its size. -/
def det : Nat → List (List Int) → Int
  | 0, _ => 1
  | n + 1, m =>
    let rest := m.drop 1
    ((List.range (n + 1)).map (fun j =>
      (if j % 2 = 0 then 1 else -1) * nthD (nthD m 0 []) j 0 * det n (rest.map (fun r => r.eraseIdx j)))).sum

/-- The least-squares problem of some columns and values: the normal matrix and the right-hand side. -/
def normalMatrix (cols : List (List Int)) : List (List Int) := cols.map (fun a => cols.map (fun b => (List.zipWith (· * ·) a b).sum))
def normalRight (cols : List (List Int)) (v : List Int) : List Int := cols.map (fun a => (List.zipWith (· * ·) a v).sum)

/-- The least-squares coefficients times their common denominator, and the denominator, by Cramer's rule. The denominator is 0 where the
columns do not determine them. -/
def leastSquares (cols : List (List Int)) (v : List Int) : List Int × Int :=
  let m := normalMatrix cols
  let r := normalRight cols v
  let n := cols.length
  ((List.range n).map (fun j => det n ((m.zip r).map (fun x => x.1.set j x.2))), det n m)

/-- The RMS residual of a fit, rounded to nearest: the sum of the squares of the values less what the coefficients account for. -/
def rmsResidual (cols : List (List Int)) (v : List Int) (num : List Int) (den : Int) : Nat :=
  let sse := (v.map (fun x => x * x)).sum * den - (List.zipWith (· * ·) num (normalRight cols v)).sum
  let q := (4 * sse).toNat / (den.toNat * max 1 v.length)
  (Nat.sqrt q + 1) / 2

/-- The terms of a fit that the data support (R371): 1 the ageing slope, 2 K1, 3 K2. -/
def fitTerms (pts : List FitPoint) : List Nat :=
  let ts := pts.map (·.temp)
  let ms := (pts.filterMap (·.minute)).map (fun (m : Nat) => (m : Int))
  let span := greatest ts - least ts
  (if 2880 ≤ greatest ms - least ms then [1] else []) ++ (if 200 ≤ span then [2] else []) ++ (if 800 ≤ span then [3] else [])

/-- The column of a term: the constant, the minutes of the newest epoch from its mean (0 elsewhere, so that only that epoch's entries
bear on the slope, R370), T − Tref and its square. -/
def fitColumn (tref mid : Int) (k : Nat) (pts : List FitPoint) : List Int :=
  pts.map (fun p => match k with
    | 0 => 1
    | 1 => (match p.minute with | some m => (m : Int) - mid | none => 0)
    | 2 => p.temp - tref
    | _ => (p.temp - tref) ^ 2)

/-- The model of samples (R371): least squares over the terms the data support, in ppt/day, ppt/°C and 0.01 ppt/°C². Where
the columns depend on each other the data support none of them. -/
def fitModel (pts : List FitPoint) : XoModel :=
  let ts := pts.map (·.temp)
  let tref := meanInt ts
  let mid := meanInt ((pts.filterMap (·.minute)).map (fun (m : Nat) => (m : Int)))
  let v := pts.map (·.value)
  let cols := fun (l : List Nat) => (0 :: l).map (fun k => fitColumn tref mid k pts)
  let want := fitTerms pts
  let terms := if (leastSquares (cols want) v).2 = 0 then [] else want
  let (num, den) := leastSquares (cols terms) v
  let scale := fun (k : Nat) => match k with | 1 => 1440 | 2 => 100 | _ => 1000000
  let term := fun (k : Nat) => if k ∈ terms then roundDiv (nthD num (terms.idxOf k + 1) 0 * scale k) den.toNat else 0
  { valid := decide (1440 ≤ pts.length), order := terms.foldl max 0, ageing := terms.contains 1
    tref := tref, k1 := term 2, k2 := term 3, slope := term 1
    resid := rmsResidual (cols terms) v num den, lo := least ts, hi := greatest ts }

/-- The model of a history (R370, R371): the ageing slope over the newest epoch's entries, the temperature terms over every valid one. -/
def Learn.fit (l : Learn) : XoModel :=
  let new := newestEpoch l.blocks
  let pts := fitPoints true new ++ fitPoints false (l.blocks.drop new.length)
  if pts = [] then {} else fitModel pts

/-- The registers that report the model (Table DPL-5). -/
def Dev.showModel (d : Dev) : Dev :=
  let m := d.learn.model
  let d1 := (d.put F.DPL_LRN_STATUS_model_valid (bit m.valid)).put F.DPL_LRN_STATUS_order m.order
  let d2 := ((d1.sput F.DPL_LRN_TREF m.tref).sput F.DPL_LRN_K1 m.k1).sput F.DPL_LRN_K2 m.k2
  ((d2.sput F.DPL_LRN_SLOPE m.slope).put F.DPL_LRN_RESID (min (2 ^ 32 - 1) m.resid)).syncMinutes

/-- The model is fitted anew, outside holdover (R371). -/
def Dev.refit (d : Dev) : Dev :=
  if d.dplState 0 = Dpl.holdover then d
  else ({ d with learn := { d.learn with model := d.learn.fit } }.showModel).event R.DPL_LRN_EVENT 0

/-- The history and the stored model are erased (R373). -/
def Dev.learnClear (d : Dev) : Dev :=
  ({ d with learn := { d.learn with blocks := [], model := {} } }.showModel).put F.DPL_LRN_CTRL_clear 0

/-- The history is loaded from MRAM at power-on or cold reset (R372); `ok` says that the header's CRC holds. -/
def Dev.learnLoad (ok : Bool) (d : Dev) : Dev :=
  if ok then d.showModel
  else
    let d1 := { d with learn := { d.learn with blocks := [], model := {} } }.showModel
    (d1.put F.DPL_LRN_STATUS_load_err 1).fault R.DPL_LRN_EVENT 1 E.HO_HIST_INVALID 0

/-- The entry DPL_LRN_RD_DATA reads: 0 is the newest (Table DPL-5). -/
def Dev.learnRead (d : Dev) : Word :=
  match d.learn.all[min 43199 (d.get F.DPL_LRN_RD_IDX)]? with
  | some e => e.2.word
  | none => 0

end Sys2Proof.Machine
end

