-- ==== Sys2Proof/Machine/Ref.lean ====
section
/-! DEFINITION. Reference selection: candidates, monitors, slot states, disagreement, selection and transfer (R329–R357),
and the return from holdover (R375–R377). -/

namespace Sys2Proof.Machine

/-! ### Slots and candidates -/

abbrev Slot.off : Nat := 0
abbrev Slot.fail : Nat := 1
abbrev Slot.wait : Nat := 2
abbrev Slot.qual : Nat := 3
abbrev Slot.alarm : Nat := 4

abbrev slots : List Nat := List.range 32

/-- A slot's state, candidate, rank and DPLL. -/
def Dev.slotState (d : Dev) (s : Nat) : Nat := d.get (F.REF_SLOT_STAT_state s)
def Dev.slotCand (d : Dev) (s : Nat) : Nat := d.get (F.REF_SLOT_CFG_cand s)
def Dev.slotRank (d : Dev) (s : Nat) : Nat := d.get (F.REF_SLOT_CFG_rank s)
def Dev.slotDpll (d : Dev) (s : Nat) : Nat := d.get (F.REF_SLOT_CFG_dpll s)

/-- The candidate of a code is present (R52, R329). -/
def Dev.candPresent (d : Dev) (c : Nat) : Bool :=
  if c < 64 then d.portPresent c else if c < 80 then d.blockPresent 13 else decide (c ≤ 88)

/-- The slot is in use: rank 1 to 15, a candidate that is present. -/
def Dev.slotUsed (d : Dev) (s : Nat) : Bool := d.slotRank s != 0 && d.candPresent (d.slotCand s)

/-- The kind in use: 1 time, 0 frequency (Table REF-1). -/
def Dev.slotKind (d : Dev) (s : Nat) : Nat :=
  let c := d.slotCand s
  if d.slotDpll s = 1 then 0
  else if c < 80 then d.get (F.REF_SLOT_CFG_kind s)
  else if c < 88 then bit (d.isPulse (c - 80))
  else 1

/-- The window of an input in ns. -/
def Dev.inWindow (d : Dev) (i : Nat) : Nat := max 1 (d.get (F.REF_IN_WINDOW i))

/-- The divided rate of a clock input lies within 1–20 MHz (R330). -/
def Dev.rateOk (d : Dev) (i : Nat) : Bool :=
  let div := max 1 (d.get (F.REF_IN_CFG_div i))
  let nom := d.get (F.REF_IN_NOM i)
  decide (1000000 * div ≤ nom) && decide (nom ≤ 20000000 * div) && decide (nom ≤ 750000000)

/-- No edge of channel `80 + i` for the time R338 allows, by edges of the time clock: a whole 1.0 µs interval for a clock, P
and the window for a pulse. -/
def Dev.inputSilent (d : Dev) (i : Nat) : Bool :=
  match (d.tdcOf (80 + i)).seen with
  | none => true
  | some e =>
    if d.isPulse i then decide ((d.pulsePeriod i + d.inWindow i) * 384 < (d.tbs.edges - e) * 625)
    else decide (e * 10 / 6144 + 1 < d.tbs.edges * 10 / 6144)

/-- The slot names a clock input whose divided rate lies outside 1–20 MHz (R330). -/
def Dev.badRate (d : Dev) (s : Nat) : Bool :=
  let c := d.slotCand s
  decide (80 ≤ c) && decide (c < 88) && !d.isPulse (c - 80) && !d.rateOk (c - 80)

/-- An activity alarm (R330, R338, Table REF-2); in a time-less plan no reference qualifies (R391). -/
def Dev.slotAlarm (d : Dev) (s : Nat) : Bool :=
  let c := d.slotCand s
  d.flag F.SYN_PLAN_time_less ||
  (if c < 80 then
    !d.flag F.TOP_READY_tdc || (if d.slotKind s = 1 then !d.flag (F.PHX_STATUS_offset_valid c) else decide (d.phxState c ≤ 1))
   else if c < 88 then
    d.flag (F.TDC_STATUS_fault c) || !d.flag F.TOP_READY_tdc || d.inputSilent (c - 80) || d.badRate s
   else !d.refs.ptpLive)

/-- A time-kind slot whose link is downstream (R338). -/
def Dev.slotDownstream (d : Dev) (s : Nat) : Bool :=
  decide (d.slotCand s < 80) && d.slotKind s == 1 && d.flag (F.PHX_STATUS_downstream (d.slotCand s))

/-- f_s of a slot in 0.1 ppb. -/
def Dev.slotFreq (d : Dev) (s : Nat) : Int := d.sget (F.REF_SLOT_FREQ s)

/-- The reject limit and the accept limit, which is never the wider (R341). -/
def Dev.rejLimit (d : Dev) (s : Nat) : Nat := min 1000000 (d.get (F.REF_SLOT_REJ s))
def Dev.accLimit (d : Dev) (s : Nat) : Nat := min (d.rejLimit s) (d.get (F.REF_SLOT_ACC s))

/-- The phase a time-kind slot gives (R331–R333), in 1/65,536 ns. -/
def Dev.slotOffset (d : Dev) (s : Nat) : Int :=
  let c := d.slotCand s
  if c < 80 then d.pairInt (R.PHX_OFFSET_LO c) (R.PHX_OFFSET_HI c)
  else if c < 88 then (Sparse.getD d.refs.pulses (c - 80) {}).o
  else match d.refs.lastPost with | some p => p.1 | none => 0

/-! ### Slot states (Table REF-3) -/

/-- A slot event: its bit and its slot. -/
def Dev.refEvent (i s : Nat) (d : Dev) : Dev := (d.event R.REF_EVENT i).put F.REF_LAST_SLOT s

/-- A slot's state set, REF_QUAL with it. -/
def Dev.setSlot (s st : Nat) (d : Dev) : Dev :=
  (d.put (F.REF_SLOT_STAT_state s) st).setBit R.REF_QUAL s (st == Slot.qual)

/-- The outvoted mark of a slot falls (R350). -/
def Dev.unvote (s : Nat) (d : Dev) : Dev := { d with refs := { d.refs with outvoted := d.refs.outvoted.filter (· != s) } }

/-- A slot becomes QUAL; a vote against it is over. -/
def Dev.qualify (s : Nat) (d : Dev) : Dev := (((d.unvote s).setSlot s Slot.qual).put (F.REF_SLOT_TIMER s) 0).refEvent 0 s

/-- A slot fails from WAIT with a reason. -/
def Dev.slotFails (s reason : Nat) (d : Dev) : Dev :=
  ((d.setSlot s Slot.fail).put (F.REF_SLOT_TIMER s) 0).put (F.REF_SLOT_STAT_reason s) reason

/-- A slot is disqualified (R341); a slot that a DPLL remembers as alarmed is remembered no longer (R345). -/
def Dev.disqualify (s reason : Nat) (d : Dev) : Dev :=
  let d1 := ((d.slotFails s reason).wrap (F.REF_SLOT_STAT_disq_cnt s) 1).refEvent 2 s
  let d2 := d1.raise E.REF_DISQUALIFIED s
  let x := d2.slotDpll s
  d2.when (d2.flag (F.DPL_STATUS_alarmed_valid x) && d2.get (F.DPL_STATUS_alarmed x) == s)
    (fun e => (e.put (F.DPL_STATUS_alarmed_valid x) 0).put (F.DPL_STATUS_alarmed x) 0)

/-- The WAIT time of a slot in ticks under the phase in force (R341). -/
def Dev.waitTicks (d : Dev) (s : Nat) : Nat :=
  if d.get F.REF_CTRL_phase = 1 then 10000 * min 3600 (d.get (F.REF_SLOT_WTR s))
  else 1000 * min 36000 (d.get (F.REF_SLOT_TIME_acc_time s))

/-- The ticks a WAIT slot has waited, and its timer with them (R342). -/
def Dev.setWaited (s n : Nat) (d : Dev) : Dev :=
  ({ d with refs := { d.refs with waited := Sparse.put d.refs.waited s n } }).put (F.REF_SLOT_TIMER s) (d.waitTicks s - n)

/-- The timers of the WAIT slots after a change of phase (R342). -/
def Dev.retimeWaits (d : Dev) : Dev :=
  Dev.each (slots.filter (fun s => d.slotState s == Slot.wait)) (fun s e => e.setWaited s (Sparse.getD e.refs.waited s 0)) d

/-- A slot goes OFF: rank 0, no candidate or a strobe (R335, Table REF-3). -/
def Dev.slotOff (s : Nat) (d : Dev) : Dev :=
  let x := d.slotDpll s
  let d1 := if d.slotState s = Slot.off then d else (d.setSlot s Slot.off).put (F.REF_SLOT_TIMER s) 0
  let d2 := (d1.put (F.REF_SLOT_STAT_freq_valid s) 0).when (d1.slotRank s != 0 && !d1.candPresent (d1.slotCand s))
    (Dev.put (F.REF_SLOT_STAT_reason s) 5)
  d2.when (d2.flag (F.DPL_STATUS_alarmed_valid x) && d2.get (F.DPL_STATUS_alarmed x) == s)
    (fun e => (e.put (F.DPL_STATUS_alarmed_valid x) 0).put (F.DPL_STATUS_alarmed x) 0)

/-- The slot agrees with at most half of a list of slots (R350). -/
def Dev.agreeCount (d : Dev) (s : Nat) (l : List Nat) : Nat :=
  (l.filter (fun o => decide ((d.slotFreq s - d.slotFreq o).natAbs ≤ max 1 (min 1000 (d.get F.REF_DIS_LIMIT))))).length

/-- The QUAL slots of a DPLL. -/
def Dev.qualSlots (d : Dev) (x : Nat) : List Nat := slots.filter (fun s => d.slotState s == Slot.qual && d.slotDpll s == x)

/-- A slot that was outvoted since it last was QUAL stays so while it agrees with at most half of the QUAL slots of its DPLL
(R350): it stays in FAIL, and fails in WAIT (Table REF-3). -/
def Dev.stillOutvoted (d : Dev) (s : Nat) : Bool :=
  let q := d.qualSlots (d.slotDpll s)
  d.refs.outvoted.contains s && decide (2 * d.agreeCount s q ≤ q.length)

/-- The frequency of a slot lies within a limit. -/
def Dev.within (d : Dev) (s limit : Nat) : Bool := decide ((d.slotFreq s).natAbs ≤ limit)

/-- One tick of a slot (R336, R341, Tables REF-3 and REF-5). -/
def Dev.slotTick (s : Nat) (d0 : Dev) : Dev :=
  let d := d0.put (F.REF_SLOT_STAT_kind_eff s) (if d0.slotUsed s then d0.slotKind s else 0)
  let st := d.slotState s
  let alarm := d.slotAlarm s
  let down := d.slotDownstream s
  let jump := (d.refs.jumps.contains s || d.refs.jumpCands.contains (d.slotCand s)) && d.slotKind s == 1
  if !d.slotUsed s then d.slotOff s
  else if (Sparse.get? d.refs.strobed s).isSome then d
  else if st = Slot.off then d.setSlot s Slot.fail
  else if st = Slot.fail then
    if d.badRate s then d.put (F.REF_SLOT_STAT_reason s) 1
    else if down then d.put (F.REF_SLOT_STAT_reason s) 6
    else if alarm || !d.flag (F.REF_SLOT_STAT_freq_valid s) || !d.within s (d.accLimit s) || d.stillOutvoted s then d
    else (d.setSlot s Slot.wait).setWaited s 0
  else if st = Slot.wait then
    if jump then d.slotFails s 3
    else if alarm then d.slotFails s 1
    else if !d.within s (d.accLimit s) then d.slotFails s 2
    else if down then d.slotFails s 6
    else if d.stillOutvoted s then d.slotFails s 4
    else
      let n := Sparse.getD d.refs.waited s 0 + 1
      if d.waitTicks s ≤ n then d.qualify s else d.setWaited s n
  else if jump then d.disqualify s 3
  else if down then d.disqualify s 6
  else if st = Slot.qual then
    if alarm || !d.within s (d.rejLimit s) then
      let d1 := (d.setSlot s Slot.alarm).put (F.REF_SLOT_TIMER s) (10 * d.get (F.REF_SLOT_TIME_disq_time s))
      (d1.put (F.REF_SLOT_STAT_reason s) (if alarm then 1 else 2)).refEvent 1 s
    else d
  else if !alarm && d.within s (d.rejLimit s) then d.qualify s
  else
    let t := d.get (F.REF_SLOT_TIMER s) - 1
    if t = 0 then d.disqualify s (d.get (F.REF_SLOT_STAT_reason s)) else d.put (F.REF_SLOT_TIMER s) t

/-- The WAIT timer of a slot expires (R341): QUAL, unless the slot fails at that tick. -/
def Dev.waitExpiry (s : Nat) (d : Dev) : Dev :=
  if d.slotState s ≠ Slot.wait then d else (d.setWaited s (d.waitTicks s)).slotTick s

/-- The disqualify timer of an ALARM slot expires (R341, Table REF-5): an alarm that has cleared wins. -/
def Dev.disqExpiry (s : Nat) (d : Dev) : Dev :=
  if d.slotState s ≠ Slot.alarm then d else (d.put (F.REF_SLOT_TIMER s) 0).slotTick s

/-! ### Disagreement and votes (R347–R351) -/

/-- The slot a DPLL follows or is acquiring. -/
def Dev.sel (d : Dev) (x : Nat) : Option Nat :=
  if d.flag (F.DPL_STATUS_slot_valid x) then some (d.get (F.DPL_STATUS_slot x)) else none

/-- REF_DISAGREE and the slots' bits follow the pairs. -/
def Dev.syncPairs (d : Dev) : Dev :=
  Dev.each slots (fun s e =>
    let b := e.refs.pairs.any (fun p => p.a == s || p.b == s)
    (e.setBit R.REF_DISAGREE s b).put (F.REF_SLOT_STAT_disagree s) (bit b)) d

/-- The pairs set. -/
def Dev.setPairs (l : List RefPair) (d : Dev) : Dev := ({ d with refs := { d.refs with pairs := l } }).syncPairs

/-- A pair whose slots are not both QUAL has ended its disagreement. -/
def Dev.endPairs (d : Dev) : Dev :=
  d.setPairs (d.refs.pairs.filter (fun p => d.slotState p.a == Slot.qual && d.slotState p.b == Slot.qual &&
    d.slotRank p.a == d.slotRank p.b && d.slotDpll p.a == d.slotDpll p.b))

/-- The disagreements that begin: QUAL slots of one DPLL and rank further apart than the limit (R347, R349). -/
def Dev.beginPairs (d : Dev) : Dev :=
  let new := slots.flatMap (fun a => (slots.filter (fun b =>
    decide (a < b) && d.slotState a == Slot.qual && d.slotState b == Slot.qual && d.slotRank a == d.slotRank b &&
    d.slotDpll a == d.slotDpll b && d.agreeCount a [b] == 0 &&
    !d.refs.pairs.any (fun p => p.a == a && p.b == b))).map (fun b =>
      let sel := d.sel (d.slotDpll a)
      { a := a, b := b, outA := sel != some a, outB := sel != some b : RefPair }))
  let d1 := d.setPairs (d.refs.pairs ++ new)
  Dev.each new (fun p e => (e.refEvent 4 p.a).raise E.REF_DISAGREE p.a) d1

/-- The slot of a pair of QUAL slots that a vote of the other QUAL slots disqualifies (R350). -/
def Dev.votedOut (d : Dev) (p : RefPair) : Option Nat :=
  let o := (d.qualSlots (d.slotDpll p.a)).filter (fun s => s != p.a && s != p.b)
  let inn := fun s => decide (o.length < 2 * d.agreeCount s o)
  if o = [] ∨ d.slotState p.a ≠ Slot.qual ∨ d.slotState p.b ≠ Slot.qual then none
  else if inn p.a && !inn p.b then some p.b
  else if inn p.b && !inn p.a then some p.a
  else none

/-- The votes over the pairs in force (R350). -/
def Dev.vote (d : Dev) : Dev :=
  let out := d.refs.pairs.filterMap (fun p => d.votedOut p)
  Dev.each out (fun s e =>
    if e.slotState s ≠ Slot.qual then e
    else
      let e1 := ((e.disqualify s 4).refEvent 5 s).raise E.REF_VOTE s
      { e1 with refs := { e1.refs with outvoted := addOnce s e1.refs.outvoted } }) d

/-- The offset of pulses against the local time base in 0.1 ppb, their event times newest first (R337): the whole periods between the
first and the last against the time they took. Fewer than 16 make no window. -/
def pulseOffset (p : Nat) (times : List Nat) : Option Int :=
  match times[15]?, times.head? with
  | some first, some last =>
    let gap := last - first
    let n := (2 * gap + p) / (2 * p)
    if gap = 0 then none else some (roundDiv (((n * p : Nat) : Int) * 10000000000 - (gap : Int) * 10000000000) gap)
  | _, _ => none

/-- The offset of the accepted posts of the last 16 s in 0.1 ppb, newest first (R337): the local time base gains on the master what its
o rises. Fewer than two make no window. -/
def postOffset (posts : List (Int × Nat)) : Option Int :=
  match posts.getLast?, posts.head? with
  | some (o0, t0), some (o1, t1) => if t1 ≤ t0 then none else some (roundDiv ((o0 - o1) * 10000000000) (t1 - t0))
  | _, _ => none

/-- What a window of slot `s` measures (R337): of a pulse input and of host PTP the pulses and posts taken, of a clock input or a link
the offset `offset` its 100 ms window gave, while the candidate is there to be measured. -/
def Dev.windowOffset (d : Dev) (s : Nat) (offset : Int) : Option Int :=
  let c := d.slotCand s
  if c < 80 then (if Phx.freqSt ≤ d.phxState c then some offset else none)
  else if c < 88 then
    if d.isPulse (c - 80) then pulseOffset (d.pulsePeriod (c - 80) * 65536) (Sparse.getD d.refs.pulses (c - 80) {}).times
    else if d.inputSilent (c - 80) then none else some offset
  else postOffset (d.refs.posts.filter (fun p => decide (d.now ≤ p.2 + 16 * 1000000000 * 65536)))

/-- A window of slot `s` completes (R337), with the candidate's offset against the local time base in 0.1 ppb: f_s, and a comparison of
each of its pairs at the later of the two windows (R347). -/
def Dev.freqWindow (s : Nat) (offset : Int) (d : Dev) : Dev :=
  match (if d.slotState s = Slot.off ∨ (Sparse.get? d.refs.strobed s).isSome then none else d.windowOffset s offset) with
  | none => d
  | some offset =>
    let d1 := (d.sput (F.REF_SLOT_FREQ s) (offset + roundDiv (d.sget (F.DPL_STEER 0)) 100)).put (F.REF_SLOT_STAT_freq_valid s) 1
    let step := fun (p : RefPair) =>
      let p1 := { p with newA := p.newA || p.a == s, newB := p.newB || p.b == s }
      if p1.newA && p1.newB then
        { p1 with newA := false, newB := false, within := if d1.agreeCount p.a [p.b] == 0 then 0 else p.within + 1 }
      else p1
    let l := (d1.refs.pairs.map step).filter (fun p => decide (p.within < 10))
    (d1.setPairs l).beginPairs

/-! ### Phase jumps (R339) -/

/-- The offset of a slot's candidate against the local time base that f_s implies, in 0.1 ppb. -/
def Dev.localOffset (d : Dev) (s : Nat) : Int := d.slotFreq s - roundDiv (d.sget (F.DPL_STEER 0)) 100

/-- A pulse of an enabled pulse input at event time `t` (R331, R339). -/
def Dev.refPulse (i t : Nat) (d : Dev) : Dev :=
  if !(d.tdcByRef (80 + i) && d.isPulse i) then d
  else
    let q := Sparse.getD d.refs.pulses i {}
    let p := d.pulsePeriod i * 65536
    let o := wrapHalf ((t : Int) - d.sget (F.REF_IN_DELAY i)) p
    let gap : Int := (t : Int) - q.last
    let bad := fun s => decide ((d.inWindow i * 65536 : Int) < ((gap - (p - roundDiv ((p : Int) * d.localOffset s) 10000000000)).natAbs : Int))
    let hit := if 2 ≤ q.count then
        slots.filter (fun s => d.slotUsed s && d.slotCand s == 80 + i && d.slotKind s == 1 && bad s)
      else []
    { d with refs := { d.refs with
        jumps := hit.foldl (fun a s => addOnce s a) d.refs.jumps
        pulses := Sparse.put d.refs.pulses i { count := q.count + 1, last := t, o := o, times := (t :: q.times).take 16 } } }

/-- A host-fed correction is posted (R332, R339): o and its instant from the registers. -/
def Dev.ptpPost (d : Dev) : Dev :=
  let d0 := d.put F.REF_PTP_CTRL_post 0
  let o := d0.pairInt R.REF_PTP_OFS_LO R.REF_PTP_OFS_HI
  let at_ := instant (d0.get F.REF_PTP_AT_SEC_LO + 2 ^ 32 * d0.get F.REF_PTP_AT_SEC_HI) (d0.get F.REF_PTP_AT_NS) 0
  let far := decide (65536 * 1000000000 < ((at_ : Int) - d0.now).natAbs)
  let stale := match d0.refs.lastPost with | some p => decide (at_ ≤ p.2) | none => false
  if far || stale then d0.wrap F.REF_PTP_CNT_rejected 1
  else
    let hit := match d0.refs.lastPost with
      | none => []
      | some (o0, t0) => slots.filter (fun s =>
          let predicted := o0 - roundDiv (((at_ : Int) - t0) * d0.localOffset s) 10000000000
          d0.slotUsed s && d0.slotCand s == 88 && d0.slotKind s == 1 &&
            decide (max 1 (d0.get F.REF_PTP_CFG_jump_th) * 65536 < (o - predicted).natAbs))
    let d1 := d0.wrap F.REF_PTP_CNT_accepted 1
    { d1 with refs := { d1.refs with
        ptpLive := true, lastPost := some (o, at_)
        posts := (o, at_) :: d1.refs.posts.filter (fun p => decide (at_ ≤ p.2 + 16 * 1000000000 * 65536)), jumps := hit.foldl (fun a s => addOnce s a) d1.refs.jumps } }

/-- No accepted post for the timeout (R338). -/
def Dev.ptpTimeout (d : Dev) : Dev := { d with refs := { d.refs with ptpLive := false } }

/-! ### Transfer (R344, R355, R375, R376) -/

/-- The time base steps by a target's offset (R275, R355, R376): its new value is the reference's time. -/
def Dev.stepBy (o : Int) (d : Dev) : Dev := d.stepTime ((d.tbs.tb : Int) - o * unitsPerFrac).toNat

/-- The offset of a time-kind target treated as it starts to be acquired, from the state the DPLL left (R355, R364, R376): a return that
has not come to LOCKED goes on with the new target's offset. -/
def Dev.takeOffset (x s from_ : Nat) (d : Dev) : Dev :=
  let back := from_ == Dpl.holdover || (from_ == Dpl.acquire && d.flag (F.DPL_HO_STATUS_returning x))
  let d0 := d.put (F.DPL_HO_STATUS_returning x) 0
  if x ≠ 0 ∨ d.slotKind s = 0 then d0.put (F.DPL_PHASE_ERR x) 0
  else
    let o := d.slotOffset s
    let big := decide (d.get (F.DPL_HO_STEP_TH 0) * 65536 < o.natAbs)
    if from_ = Dpl.freerun ∧ d.flag (F.DPL_CFG_step_first 0) then (d0.stepBy o).put (F.DPL_PHASE_ERR 0) 0
    else if from_ = Dpl.holdover ∧ (d.dpll 0).retStep ∧ big then (d0.stepBy o).put (F.DPL_PHASE_ERR 0) 0
    else
      (d0.sput (F.DPL_PHASE_ERR 0) o).when back (fun e =>
        (e.put (F.DPL_HO_STATUS_returning 0) 1).sput (F.DPL_HO_RET_LEFT 0) (o.tdiv 65536))

/-- A transfer to slot `s` starts (R344). A DPLL whose old slot is no longer QUAL holds the holdover value. -/
def Dev.transfer (x s : Nat) (d : Dev) : Dev :=
  let from_ := d.dplState x
  let lost := match d.sel x with | some o => d.slotState o != Slot.qual | none => false
  let d0 := if decide (2 ≤ from_) && lost then
      (match d.formH x with
       | some e => (e.setAge x 0 0).setControl x (e.sget (F.DPL_HO_BASIC x) + e.sget (F.DPL_HO_TEMP x))
       | none => d.setControl x 0)
    else d
  let d1 := (((d0.setDplState x Dpl.acquire).put (F.DPL_STATUS_slot x) s).put (F.DPL_STATUS_slot_valid x) 1).put
    (F.DPL_STATUS_transfer x) 1
  let d2 := (d1.event R.REF_EVENT 3).setDpll x { d1.dpll x with starting := true, last := some (d1.slotCand s) }
  d2.takeOffset x s from_

/-- The alarmed slot of a DPLL. -/
def Dev.alarmed (d : Dev) (x : Nat) : Option Nat :=
  if d.flag (F.DPL_STATUS_alarmed_valid x) then some (d.get (F.DPL_STATUS_alarmed x)) else none

/-- The alarmed slot set or forgotten. -/
def Dev.setAlarmed (x : Nat) (a : Option Nat) (d : Dev) : Dev :=
  (d.put (F.DPL_STATUS_alarmed_valid x) (bit a.isSome)).put (F.DPL_STATUS_alarmed x) (a.getD 0)

/-! ### Selection (R343, R345, R346, R348–R351) -/

/-- The force bit and the slot forced on a DPLL (R346). -/
def Dev.forced (d : Dev) (x : Nat) : Option Nat :=
  if x = 0 then (if d.flag F.REF_FORCE_t_en then some (d.get F.REF_FORCE_t_slot) else none)
  else (if d.flag F.REF_FORCE_f_en then some (d.get F.REF_FORCE_f_slot) else none)

/-- The pairs of a DPLL. -/
def Dev.pairsOf (d : Dev) (x : Nat) : List RefPair := d.refs.pairs.filter (fun p => d.slotDpll p.a == x)

/-- The slots R343 chooses among: QUAL, less those held out under R349 and R351; a slot of an undecided pair that the DPLL does
not follow is never newly selected (R348). -/
def Dev.selectable (d : Dev) (x : Nat) : List Nat :=
  let ps := d.pairsOf x
  let none_ := d.flag F.REF_CTRL_trust_none
  (d.qualSlots x).filter (fun s =>
    if none_ then !ps.any (fun p => d.slotRank p.a == d.slotRank s)
    else !ps.any (fun p => (p.a == s && (p.outA || d.sel x != some s)) || (p.b == s && (p.outB || d.sel x != some s))))

/-- The slot of R343. -/
def Dev.wanted (d : Dev) (x : Nat) : Option Nat :=
  let q := d.selectable x
  let r := q.foldl (fun a s => min a (d.slotRank s)) 16
  let best := q.filter (fun s => d.slotRank s == r)
  let rev := best.filter (fun s => d.flag (F.REF_SLOT_CFG_revertive s))
  match d.sel x with
  | none => best.head?
  | some s =>
    if !q.contains s then best.head?
    else if d.slotRank s = r then some s
    else if !d.flag (F.DPL_STATUS_transfer x) then (match rev.head? with | some t => some t | none => some s)
    else best.head?

/-- The slot a DPLL follows is one of an undecided pair (R348, R351). -/
def Dev.selInPair (d : Dev) (x : Nat) : Bool :=
  match d.sel x with
  | some s => (d.pairsOf x).any (fun p => p.a == s || p.b == s)
  | none => false

/-- The alarmed slot is returned to at once (R345): QUAL again before LOCKED, with a rank as good as the target's. -/
def Dev.returnsTo (d : Dev) (x : Nat) : Option Nat :=
  match d.alarmed x, d.sel x with
  | some a, some s =>
    if a ≠ s ∧ d.dplState x ≠ Dpl.locked ∧ d.flag (F.DPL_STATUS_transfer x) ∧ d.slotState a = Slot.qual ∧
        d.slotRank a ≤ d.slotRank s ∧ (d.selectable x).contains a then some a
    else none
  | _, _ => none

/-- What a DPLL is to follow at this tick. -/
def Dev.target (d : Dev) (x : Nat) : Option Nat :=
  if d.flag F.FLT_STATUS_coast ∨ (x = 0 ∧ !d.rootLocked) then none
  else match d.forced x with
    | some s => if d.slotState s = Slot.qual ∧ d.slotDpll s = x then some s else none
    | none =>
      if d.selInPair x then (if d.flag F.REF_CTRL_trust_none then none else d.sel x)
      else match d.returnsTo x with
        | some a => some a
        | none => d.wanted x

/-- The selection of a DPLL at a tick (R343). -/
def Dev.select (x : Nat) (d : Dev) : Dev :=
  let want := d.target x
  let back := d.returnsTo x
  let d1 := match d.sel x with
    | some s => if d.slotState s = Slot.alarm ∧ (d.alarmed x).isNone then d.setAlarmed x (some s) else d
    | none => d
  let d2 := if back.isSome ∧ want = back then d1.setAlarmed x none else d1
  if want = d.sel x then d2
  else match want with
    | none => d2.enterHoldover x
    | some s => (d2.transfer x s).when (d2.alarmed x == some s) (Dev.setAlarmed x none)

/-! ### The loops -/

/-- The clamp of the phase correction in ppt (R353, R376). -/
def Dev.slopeMax (d : Dev) (x : Nat) : Int :=
  let s := 1000 * max 1 (min 100000 (d.get (F.DPL_SLOPE x)))
  if d.flag (F.DPL_HO_STATUS_returning x) then (min s (100 * max 1 (d.get (F.DPL_HO_RET_slew x))) : Nat) else (s : Nat)

/-- A loop that follows runs for one tick (R352–R354): `phase` is the loop's phase error on a frequency-kind reference, in
1/65,536 ns; on a time-kind one it is the reference's offset. The integrator and the correction are free values. -/
def Dev.runLoop (x : Nat) (phase : Int) (d : Dev) : Dev :=
  match d.sel x with
  | none => d
  | some s =>
    if d.dplState x < 2 then d
    else if (d.dpll x).starting then d.setDpll x { d.dpll x with starting := false }
    else
      let err := if d.slotKind s = 1 then d.slotOffset s else phase
      let i := Config.loopIntegrator d.freshTime
      let c := clampInt (-(d.slopeMax x)) (d.slopeMax x) (Config.loopCorrection d.freshTime)
      let d1 := (d.drawTime.setDpll x { d.dpll x with integ := i }).setControl x (i + c)
      let d2 := (d1.sput (F.DPL_PHASE_ERR x) err).when (d1.flag (F.DPL_HO_STATUS_returning x))
        (Dev.sput (F.DPL_HO_RET_LEFT x) (err.tdiv 65536))
      let w := max 1 (d.get (F.DPL_LOCK_window x))
      if d2.dplState x = Dpl.locked ∧ 2 * w * 65536 < err.natAbs * 1000 then
        ((d2.setDplState x Dpl.acquire).event (R.DPL_EVENT x) 1).when (x == 0) (Dev.raise E.DPL_T_LOCK_LOST 0)
      else d2

/-- The integrator of the tick added to the second under way (R358). -/
def Dev.sumTick (x : Nat) (d : Dev) : Dev :=
  let p := d.dpll x
  d.setDpll x { p with sum := p.sum + p.integ, ticks := p.ticks + 1 }

/-- The DPLL follows its reference with a phase error within the window (R354). -/
def Dev.inWindowErr (d : Dev) (x : Nat) : Bool :=
  !(d.dpll x).starting && decide ((d.sget (F.DPL_PHASE_ERR x)).natAbs * 1000 ≤ max 1 (d.get (F.DPL_LOCK_window x)) * 65536)

/-- A DPLL locks (R354): the transfer ends, the alarmed slot is forgotten, the ageing term returns to 0 (R270). An error
outside the window has not stayed within it. -/
def Dev.dplLocked (x : Nat) (d : Dev) : Dev :=
  if d.dplState x ≠ Dpl.acquire ∨ !d.inWindowErr x then d
  else
    let d1 := ((d.setDplState x Dpl.locked).put (F.DPL_STATUS_transfer x) 0).setAlarmed x none
    let d2 := ((d1.put (F.DPL_HO_STATUS_returning x) 0).event (R.DPL_EVENT x) 0).setAge x 0 0
    d2.setDpll x { d2.dpll x with lockedSince := true, useSlope := false }

/-- REF_SLOT_STAT_s.followed follows the two DPLLs. -/
def Dev.syncFollowed (d : Dev) : Dev :=
  Dev.each slots (fun s e => e.put (F.REF_SLOT_STAT_followed s) (bit (e.sel 0 == some s || e.sel 1 == some s))) d

/-- A slot whose candidate, DPLL or kind a strobe has changed since the last tick goes OFF for this tick (R335, R336, Table REF-5); `x` is
the DPLL it had. One that its DPLL followed is disqualified first. -/
def Dev.strobeTick (s x : Nat) (d : Dev) : Dev :=
  let e := if d.sel x = some s ∧ d.slotState s ≠ Slot.off ∧ d.slotState s ≠ Slot.fail then
      (((d.slotFails s 0).wrap (F.REF_SLOT_STAT_disq_cnt s) 1).refEvent 2 s).raise E.REF_DISQUALIFIED s
    else d
  let e1 := (((e.setSlot s Slot.off).put (F.REF_SLOT_STAT_freq_valid s) 0).put (F.REF_SLOT_TIMER s) 0).unvote s
  e1.when (e1.alarmed x == some s) (Dev.setAlarmed x none)

/-- A tick of REF (R336). -/
def Dev.refTick (phaseT phaseF : Int) (d : Dev) : Dev :=
  if !d.blockPresent 9 then d
  else
    let d1 := (((Dev.each d.refs.strobed (fun x e => e.strobeTick x.1 x.2) d).endPairs).vote).endPairs
    let d2 := Dev.each slots Dev.slotTick d1
    let d3 := { d2 with refs := { d2.refs with jumps := [], jumpCands := [], strobed := [] } }
    let d4 := ((d3.endPairs.beginPairs).vote).endPairs
    let d5 := (d4.select 0).select 1
    let d6 := ((d5.runLoop 0 phaseT).runLoop 1 phaseF).syncFollowed
    ((d6.sumTick 0).sumTick 1).phxHops

/-! ### Host writes and strobes -/

/-- The operating phase changes (R340, R342, R346). -/
def Dev.setPhase (p : Nat) (d : Dev) : Dev :=
  if p = d.get F.REF_CTRL_phase then d
  else
    let d1 := (d.put F.REF_CTRL_phase p).event R.REF_EVENT 6
    d1.retimeWaits.when (p != 2) (fun e => (e.put F.REF_FORCE_t_en 0).put F.REF_FORCE_f_en 0)

/-- DPLL_T has been LOCKED for REF_AUTO_TIME (R340). -/
def Dev.autoService (d : Dev) : Dev :=
  let p := d.get F.REF_CTRL_phase
  if d.flag F.REF_CTRL_auto_service ∧ (p = 0 ∨ p = 3) ∧ d.dplState 0 = Dpl.locked then d.setPhase 1 else d

/-- A slot may be forced on a DPLL (R346). -/
def Dev.forceOk (d : Dev) (x s : Nat) : Bool := d.get F.REF_CTRL_phase == 2 && d.slotDpll s == x && d.slotRank s != 0

/-- A write of REF_FORCE (R346). -/
def Dev.writeForce (w : Word) (d : Dev) : Dev :=
  let t := bits w 0 5
  let f := bits w 8 5
  let te := w.getLsbD 7
  let fe := w.getLsbD 15
  let d1 := ((d.put F.REF_FORCE_t_slot t).put F.REF_FORCE_f_slot f).put F.REF_FORCE_t_en (bit (te && d.forceOk 0 t))
  (d1.put F.REF_FORCE_f_en (bit (fe && d.forceOk 1 f))).when ((te && !d.forceOk 0 t) || (fe && !d.forceOk 1 f))
    (Dev.event R.REF_EVENT 7)

/-- A strobe gives a slot a new configuration (R335, R336, R346): `old` is the word before. What it does to the slot's state acts at the
next tick; a force on a slot that no longer allows it ends at once. -/
def Dev.slotStrobed (s : Nat) (old : Word) (d : Dev) : Dev :=
  let new := d.word (R.REF_SLOT_CFG s)
  let moved := bits old 0 7 != bits new 0 7 || bits old 13 2 != bits new 13 2
  let d1 := if !moved ∨ (Sparse.get? d.refs.strobed s).isSome then d
    else { d with refs := { d.refs with strobed := Sparse.put d.refs.strobed s (bits old 13 1) } }
  let lost := fun y (e : Dev) => e.forced y == some s && (e.slotDpll s != y || e.slotRank s == 0)
  let d2 := if lost 0 d1 then (d1.put F.REF_FORCE_t_en 0).event R.REF_EVENT 7 else d1
  if lost 1 d2 then (d2.put F.REF_FORCE_f_en 0).event R.REF_EVENT 7 else d2

end Sys2Proof.Machine
end

