-- ==== Sys2Proof/Machine/Synth.lean ====
section
/-! DEFINITION. The root synthesizer, its lock attempts and the backup PLL, spread spectrum, clock and pulse outputs
(R17–R21, R380–R404). -/

namespace Sys2Proof.Machine

/-! ### Lock attempts -/

/-- The distance of a band-table entry's nearer edge from the steering span, in 10 Hz; none where the entry does not
qualify (R380). -/
def Dev.bandMargin (d : Dev) (i : Nat) : Option Nat :=
  let lo := 100 * d.get (F.SYN_BAND_LO_low_khz i)
  let hi := 100 * d.get (F.SYN_BAND_HI_high_khz i)
  if d.flag (F.SYN_BAND_LO_valid i) ∧ lo ≤ 982941696 ∧ 983138304 ≤ hi then some (min (982941696 - lo) (hi - 983138304))
  else none

/-- The entry a lock attempt chooses (R380). -/
def Dev.bandChoice (d : Dev) : Option Nat :=
  ((List.range 64).foldl (fun (best : Option (Nat × Nat)) i =>
    match d.bandMargin i, best with
    | some m, some (j, n) => if n < m then some (i, m) else some (j, n)
    | some m, none => some (i, m)
    | none, b => b) none).map (·.1)

/-- A lock attempt starts (R382, R383): busy, with the table as it stands (R381). -/
def Dev.startAttempt (kind : Nat) (d : Dev) : Dev :=
  let e := d.bandChoice
  let d1 := { d with attempt := some ⟨kind, e⟩ }.put F.SYN_STATUS_busy 1
  match e with
  | some i => (d1.put F.SYN_STATUS_entry i).put F.SYN_STATUS_band (d.get (F.SYN_BAND_LO_code i))
  | none => d1

/-- DPLL_T leaves its reference for holdover and the control value becomes f (R21, R269, R360). -/
def Dev.rootGone (d : Dev) : Dev :=
  let d1 := ((d.put F.SYN_STATUS_root_lock 0).put F.SYN_STATUS_on_backup 1).put F.TOP_READY_root 0
  let d2 := d1.setDpll 0 { d1.dpll 0 with broken := true }
  (d2.enterHoldover 0).ffStart

/-- The end of an attempt, whatever its outcome: the bits that asked for it clear. -/
def Dev.attemptEnds (kind : Nat) (d : Dev) : Dev :=
  let d1 := { d with attempt := none }.put F.SYN_STATUS_busy 0
  (d1.when (kind == 3) (Dev.put F.SYN_CTRL_relock 0)).when (kind == 4) (Dev.put F.SYN_CTRL_retarget 0)

/-- Every automatic attempt has failed, or a retarget has (R385, Table SYN-3). -/
def Dev.lockFail (d : Dev) : Dev := d.fault R.SYN_EVENT 2 E.SYN_ROOT_LOCK_FAIL 0

/-- An attempt fails with a reason of SYN_FAIL (R382). -/
def Dev.attemptFails (a : Attempt) (reason : Nat) (d : Dev) : Dev :=
  let d1 := (d.attemptEnds a.kind).put F.SYN_FAIL_reason reason
  let d2 := match a.entry with | some i => d1.put F.SYN_FAIL_entry i | none => d1
  if a.kind = 4 then (d2.put F.SYN_STATUS_tries_left 0).lockFail
  else d2.when (a.kind == 2 && d2.get F.SYN_STATUS_tries_left == 0) Dev.lockFail

/-- An attempt confirms lock (R382, R385): the derived clocks return to the root and the control value returns under R374.
Trim of the TDC channels starts with the first lock (Table TOP-1). -/
def Dev.attemptLocks (a : Attempt) (d : Dev) : Dev :=
  let d1 := ((d.attemptEnds a.kind).put F.SYN_STATUS_root_lock 1).put F.SYN_STATUS_on_backup 0
  let d2 := (d1.put F.TOP_READY_root 1).put F.SYN_STATUS_tries_left 0
  let d3 := d2.when (d2.get F.TBS_FF == 0) Dev.ffStop
  let d4 := d3.when (!d3.flag F.TBS_STATUS_counting) (Dev.each d3.tdcChannels Dev.trimStart)
  if a.kind = 1 then d4 else d4.event R.SYN_EVENT (if a.kind = 4 then 3 else 1)

/-- A lock attempt ends (R382): 0 locked, 2 not locked in time, 3 the tuning voltage out of range. An attempt without an
entry fails with no_band (R380). -/
def Dev.attemptEnd (outcome : Nat) (d : Dev) : Dev :=
  match d.attempt with
  | none => d
  | some a =>
    if a.entry.isNone then d.attemptFails a 1
    else if outcome = 0 then d.attemptLocks a
    else d.attemptFails a (if outcome = 3 then 3 else 2)

/-- The root loses lock (R384, Table SYN-4). A loss during a retarget's attempt ends the attempt. -/
def Dev.rootLoss (d : Dev) : Dev :=
  match d.attempt with
  | some a => d.attemptFails a 2
  | none =>
    if !d.rootLocked then d
    else
      let d1 := d.put F.SYN_STATUS_tries_left (d.get F.SYN_CFG_relock_tries)
      (d1.fault R.SYN_EVENT 0 E.SYN_ROOT_LOCK_LOST 0).rootGone

/-- relock_int after a loss or a failed automatic attempt (R385). -/
def Dev.relockTimer (d : Dev) : Dev :=
  let n := d.get F.SYN_STATUS_tries_left
  if d.rootLocked ∨ d.attempt.isSome ∨ n = 0 then d else (d.put F.SYN_STATUS_tries_left (n - 1)).startAttempt 2

/-- A write of 1 to SYN_CTRL.relock (R383). -/
def Dev.relock (d : Dev) : Dev :=
  if d.rootLocked ∨ d.attempt.isSome then d else (d.put F.SYN_CTRL_relock 1).startAttempt 3

/-! ### Outputs -/

/-- A pulse output. -/
def Dev.ppsOf (d : Dev) (k : Nat) : Pps := Sparse.getD d.pps k {}

/-- A pulse output set. -/
def Dev.setPps (k : Nat) (p : Pps) (d : Dev) : Dev :=
  { d with pps := if p = {} then Sparse.del d.pps k else Sparse.put d.pps k p }

/-- Output `j` is enabled: 0–11 clocks, 12–15 pulses by the configuration in force (R401, R404). -/
def Dev.outEnabled (d : Dev) (j : Nat) : Bool := if j < 12 then d.flag (F.OUT_CLK_CFG_enable j) else (d.ppsOf (j - 12)).cfg.enable

/-- The delay-locked line of output `j` has no lock (R404). -/
def Dev.dllDown (d : Dev) (j : Nat) : Bool := if j < 12 then !d.flag (F.OUT_CLK_STATUS_dll_lock j) else (d.ppsOf (j - 12)).dllLost

/-- Output `j` is to be at its parked level (R75, R397, R404): its park bit, no enable, a delay-locked line without lock or a reset of
OUT. -/
def Dev.parkWanted (d : Dev) (j : Nat) : Bool :=
  hasBit (d.get F.OUT_CTRL_park) j || !d.outEnabled j || d.dllDown j || d.blockInReset 11

/-- The high phase of a clock output's period, its first half. -/
def OutClk.high (o : OutClk) : Bool := decide (2 * o.acc < o.num * 2 ^ 48)

/-- Output `j` is in a high phase or a pulse, which it finishes before it parks (R397). -/
def Dev.outHigh (d : Dev) (j : Nat) : Bool :=
  !hasBit (d.get F.OUT_STATUS_parked) j &&
    (if j < 12 then (match Sparse.get? d.outs j with | some o => o.high | none => false) else (d.ppsOf (j - 12)).busyTo.isSome)

/-- OUT_STATUS.parked of the outputs that are to park and have finished their high phase or pulse; the bit of one that is not to park
clears at its next edge. -/
def Dev.syncParked (d : Dev) : Dev :=
  Dev.each (List.range 16) (fun j e => e.when (e.parkWanted j && !e.outHigh j) (Dev.setBit R.OUT_STATUS j true)) d

/-- An event of an output (Table OUT-1). -/
def Dev.outEvent (i j : Nat) (d : Dev) : Dev := (d.event R.OUT_EVENT i).put F.OUT_LAST j

/-- A retarget runs. -/
def Dev.retargeting (d : Dev) : Bool := match d.attempt with | some a => a.kind == 4 | none => false

/-- A write of OUT_CTRL.park (R387, R397). -/
def Dev.writePark (v : Nat) (d : Dev) : Dev :=
  let kept := (List.range 16).filter (fun j =>
    d.retargeting && d.outEnabled j && hasBit (d.get F.OUT_CTRL_park) j && !hasBit v j)
  let d1 := d.put F.OUT_CTRL_park (kept.foldl orBit v)
  (Dev.each kept (fun j e => e.outEvent 0 j) d1).syncParked

/-- A write of 1 to SYN_CTRL.retarget (R386, Table SYN-3). -/
def Dev.retarget (d : Dev) : Dev :=
  let free := (List.range 16).all (fun j => !d.outEnabled j || hasBit (d.get F.OUT_STATUS_parked) j)
  if !free ∨ d.attempt.isSome then d.event R.SYN_EVENT 4
  else ((d.put F.SYN_CTRL_retarget 1).rootGone).startAttempt 4

/-- A write of SYN_SSC_CORE (R392): kept only in a time-less plan. -/
def Dev.writeSscCore (w : Word) (d : Dev) : Dev :=
  if d.flag F.SYN_PLAN_time_less then (d.put F.SYN_SSC_CORE_mode (bits w 0 2)).put F.SYN_SSC_CORE_depth (bits w 8 6)
  else d.event R.SYN_EVENT 5

/-- A write of SYN_SSC_AUX (R390): it takes effect at the start of the next modulation period. -/
def Dev.writeSscAux (w : Word) (d : Dev) : Dev := (d.put F.SYN_SSC_AUX_mode (bits w 0 2)).put F.SYN_SSC_AUX_depth (bits w 8 6)

/-- The modulation a mode and a depth give (R390): mode 3 acts as 0, a depth above the mode's range as its maximum. -/
def spreadOf (mode depth : Nat) : Nat × Nat :=
  match mode with
  | 1 => (1, min 50 depth)
  | 2 => (2, min 25 depth)
  | _ => (0, 0)

/-- A modulation period of 1/31,500 s starts with this edge of the time clock. Their phase against the time clock is open: DESIGN CHOICE
(log entry 99). -/
def Dev.spreadStarts (d : Dev) : Bool := decide ((d.tbs.edges - 1) * 315 / 6144000 < d.tbs.edges * 315 / 6144000)

/-- An edge of the time clock for the modulation: at the start of a period the registers take effect, but not while a retarget runs
(R390, R392, Table SYN-4). -/
def Dev.spreadEdge (d : Dev) : Dev :=
  if !d.spreadStarts ∨ d.retargeting then d
  else
    let (am, ad) := spreadOf (d.get F.SYN_SSC_AUX_mode) (d.get F.SYN_SSC_AUX_depth)
    let (cm, cd) := if d.flag F.SYN_PLAN_time_less then spreadOf (d.get F.SYN_SSC_CORE_mode) (d.get F.SYN_SSC_CORE_depth) else (0, 0)
    { d with ssc := { auxMode := am, auxDepth := ad, coreMode := cm, coreDepth := cd } }

/-- The place of an output's edge in thirds of a fine step: a time-clock cycle is 2,500 of them (R395, Table OUT-2). -/
def Dev.delayPlace (d : Dev) (i : Nat) : Nat :=
  2500 * min 8 (d.get (F.OUT_CLK_DLY_coarse i)) + 3 * min 833 (d.get (F.OUT_CLK_DLY_fine i))

/-- What is applied to the divider of an output against its clock, in ppt (R393): on path F the two DPLLs' difference, and
DPLL_F's value alone while the root runs from the backup PLL. -/
def Dev.outSteer (d : Dev) (i : Nat) : Int :=
  if !d.flag (F.OUT_CLK_CFG_path i) then 0
  else d.sget (F.DPL_STEER 1) - (if d.flag F.SYN_STATUS_on_backup then 0 else d.sget (F.DPL_STEER 0))

/-- A path cycle in units of 2^-48 cycles of the clock it is divided from (R393): the steering to a resolution of 2^-48. -/
def Dev.outRate (d : Dev) (i : Nat) : Nat := (2 ^ 48 + roundDiv (d.outSteer i * 2 ^ 48) 1000000000000).toNat

/-- The divider D that an output's registers state, as numerator and denominator (R393, Table OUT-2). -/
def Dev.outDivider (d : Dev) (i : Nat) : Nat × Nat :=
  let den := max 1 (d.get (F.OUT_CLK_DEN i))
  (max 8 (d.get (F.OUT_CLK_CFG_int i)) * den + min (den - 1) (d.get (F.OUT_CLK_FRAC i)), den)

/-- The divider of output `i`: one that starts takes the registers' at the start of a period. -/
def Dev.outClk (d : Dev) (i : Nat) : OutClk :=
  match Sparse.get? d.outs i with
  | some o => o
  | none => { num := (d.outDivider i).1, den := (d.outDivider i).2 }

/-- A divider after `rate` of its units, with the rising edges that came (R393, R394): from a rising edge on the divider `new` is in
force, so the period in progress completes. -/
def OutClk.run (o : OutClk) (rate : Nat) (new : Nat × Nat) : OutClk × Nat :=
  let acc := o.acc + rate * o.den
  let all := o.num * 2 ^ 48
  if acc < all then ({ o with acc := acc }, 0)
  else
    let rest := (acc - all) * new.2 / o.den
    ({ acc := rest % (new.1 * 2 ^ 48), num := new.1, den := new.2 }, 1 + rest / (new.1 * 2 ^ 48))

/-- The place a move has reached after `n` more periods (R396): at most 64 fine steps each. -/
def Move.after (m : Move) (n : Nat) : Nat :=
  if m.at_ ≤ m.dest then min m.dest (m.at_ + 192 * n) else max m.dest (m.at_ - 192 * n)

/-- The move of an output's edge reaches a place; one that has come to its end is over (R396). -/
def Dev.setMove (i at_ dest : Nat) (d : Dev) : Dev :=
  if at_ = dest then ({ d with moves := Sparse.del d.moves i }).put (F.OUT_CLK_STATUS_moving i) 0
  else ({ d with moves := Sparse.put d.moves i ⟨at_, dest⟩ }).put (F.OUT_CLK_STATUS_moving i) 1

/-- The delay of output `i` changes: the edge moves from the place it has reached (R396), at once while its divider stands. -/
def Dev.delayChanged (i old : Nat) (d : Dev) : Dev :=
  let at_ := match Sparse.get? d.moves i with | some m => m.at_ | none => old
  let dest := d.delayPlace i
  d.setMove i (if (Sparse.get? d.outs i).isSome then at_ else dest) dest

/-- A write of OUT_CLK_i_DLY (R396). -/
def Dev.writeDelay (i : Nat) (w : Word) (d : Dev) : Dev :=
  let old := d.delayPlace i
  ((d.put (F.OUT_CLK_DLY_fine i) (bits w 0 10)).put (F.OUT_CLK_DLY_coarse i) (bits w 16 4)).delayChanged i old

/-- An edge of the time clock, 16 root cycles, for output `i` (R393, R394, R396, R397): its divider runs, its move goes on, it parks
after a high phase, and an output that is to park no more starts with a rising edge. -/
def Dev.outStep (i : Nat) (d : Dev) : Dev :=
  let (o, n) := (d.outClk i).run (16 * d.outRate i) (d.outDivider i)
  let d1 := { d with outs := Sparse.put d.outs i o }
  let d2 := match Sparse.get? d1.moves i with | some m => d1.setMove i (m.after n) m.dest | none => d1
  if d2.parkWanted i then
    let d3 := d2.when (n != 0 || !o.high) (Dev.setBit R.OUT_STATUS i true)
    if d3.outEnabled i || !hasBit (d3.get F.OUT_STATUS_parked) i then d3 else { d3 with outs := Sparse.del d3.outs i }
  else d2.when (n != 0) (Dev.setBit R.OUT_STATUS i false)

/-- The dividers, the moves and the pulses that have ended: what an edge of the time clock brings to the outputs. -/
def Dev.outEdge (d : Dev) : Dev :=
  let runs := (List.range 12).filter (fun i => d.blockPresent 11 && (d.outEnabled i || (Sparse.get? d.outs i).isSome))
  let d1 := Dev.each runs Dev.outStep d.spreadEdge
  let ended := d1.pps.filter (fun p => match p.2.busyTo with | some t => decide (t ≤ d1.now) | none => false)
  if ended.isEmpty then d1
  else (Dev.each ended (fun p e => e.setPps p.1 { e.ppsOf p.1 with busyTo := none }) d1).syncParked

/-! ### Pulse outputs -/

/-- The configuration a pulse output's registers state (Table OUT-2). -/
def Dev.ppsConfig (d : Dev) (k : Nat) : PpsCfg :=
  let src := d.get (F.OUT_PPS_CFG_src k)
  let ns := clampInt (-500000000) 500000000 (d.sget (F.OUT_PPS_OFS_NS k))
  { enable := d.flag (F.OUT_PPS_CFG_enable k), src := if 8 < src then 0 else src
    inverted := d.flag (F.OUT_PPS_CFG_polarity k)
    period := max 1000 (min 1000000000 (d.get (F.OUT_PPS_PERIOD k)))
    ofs := 512 * ns + d.get (F.OUT_PPS_OFS_FRAC k), width := d.get (F.OUT_PPS_WIDTH k) }

/-- The width a pulse takes, in 1/65,536 ns (R402). -/
def PpsCfg.pulseWidth (c : PpsCfg) : Nat :=
  if c.width < 8 then 8 * 65536 else if c.period ≤ c.width + 8 then c.period * 32768 else c.width * 65536

/-- The first edge at or after `t` of an alignment, placed to the nearest 1/512 ns (R398). -/
def PpsCfg.edgeAt (c : PpsCfg) (a : Int) (t : Nat) : Nat :=
  let p : Int := c.period * 65536
  let phase := roundDiv (a + c.ofs * 128) 128 * 128
  (t + (phase - t) % p).toNat

/-- The last two pulses of a source, oldest first: each the instant R398 takes it for, and its measurement. The time base is one that
holds from the start. -/
def Dev.pulsesOf (d : Dev) (src : Nat) : List (Int × Nat) :=
  match Sparse.get? d.refs.pulses (src - 1) with
  | some q => ((q.times.take 2).reverse).map (fun (t : Nat) => ((t : Int) - d.sget (F.REF_IN_DELAY (src - 1)), t))
  | none => []

/-- The first edge at or after `from_`, with its alignment and the newer pulses that still wait (R398, R399): each pulse realigns the
output from the first edge at least P/2 after its measurement. -/
def PpsCfg.nextEdge (c : PpsCfg) (from_ : Nat) : Option (Nat × Int) → List (Int × Nat) → Option (Nat × Int × List (Int × Nat))
  | none, [] => none
  | some (t, a), [] => some (t, a, [])
  | none, (a, m) :: l => c.nextEdge from_ (some (c.edgeAt a (max (m + c.period * 32768) from_), a)) l
  | some (t, a0), (a, m) :: l =>
    if t < m + c.period * 32768 then some (t, a0, (a, m) :: l)
    else c.nextEdge from_ (some (c.edgeAt a (max (m + c.period * 32768) from_), a)) l

/-- The next edge of a configuration with an alignment and the pulses that wait; source 0 has the alignment 0. -/
def PpsCfg.edge (c : PpsCfg) (from_ : Nat) (align : Option Int) (waiting : List (Int × Nat)) : Option (Nat × Int × List (Int × Nat)) :=
  if c.src = 0 then some (c.edgeAt 0 from_, 0, []) else c.nextEdge from_ (align.map (fun a => (c.edgeAt a from_, a))) waiting

/-- A new configuration of a pulse output fires (R399, R401); it is refused where its source does not fit. -/
def Dev.ppsFired (k : Nat) (d : Dev) : Dev :=
  let c := d.ppsConfig k
  let i := c.src - 1
  let ok := c.src == 0 || (d.isPulse i && d.pulsePeriod i % c.period == 0)
  if !ok then d.outEvent 0 (12 + k) else d.setPps k { d.ppsOf k with next := some (c, d.now) }

/-- The next configuration takes over: aligned reads 1 from its first edge on (R399). -/
def Dev.ppsSwitch (k : Nat) (c : PpsCfg) (d : Dev) : Dev :=
  let d1 := d.setPps k { d.ppsOf k with cfg := c, next := none, align := none, realign := d.pulsesOf c.src }
  ((d1.put (F.OUT_PPS_STATUS_aligned k) 0).put (F.OUT_PPS_STATUS_holding k) 0).syncParked

/-- A period of the time clock in 1/65,536 ns, rounded up. -/
abbrev edgeUnits : Nat := 106667

/-- The configuration that waits takes over as its first edge instant at or after its firing arrives (R401): before an edge of the old
one falls due. One that is not enabled and whose source has no pulse has no edge to wait for. -/
def Dev.ppsTakeOver (k : Nat) (d : Dev) : Dev :=
  let p := d.ppsOf k
  match p.next with
  | none => d
  | some (c, f) =>
    let from_ := max p.from_ d.now
    match c.edge (max from_ f) none (d.pulsesOf c.src) with
    | none => if c.enable then d else d.ppsSwitch k c
    | some (n, _) =>
      let due : Bool := match (if p.cfg.enable then p.cfg.edge from_ p.align p.realign else none) with
        | some (o, _) => decide (n ≤ o)
        | none => true
      if due && decide (n < d.now + edgeUnits) then d.ppsSwitch k c else d

/-- A pulse output's edge instant arrives, before the next edge of the time clock (R397–R402). -/
def Dev.ppsEdge (k : Nat) (d : Dev) : Dev :=
  let d0 := d.ppsTakeOver k
  let p := d0.ppsOf k
  if !p.cfg.enable then d0
  else match p.cfg.edge (max p.from_ d0.now) p.align p.realign with
    | none => d0
    | some (t, a, waiting) =>
      if d0.now + edgeUnits ≤ t then d0 else
      let p1 := { p with from_ := t + 1, align := some a, realign := waiting }
      let d1 := (d0.setPps k p1).when (p.cfg.src != 0) (Dev.put (F.OUT_PPS_STATUS_aligned k) 1)
      let inside := match p.busyTo with | some e => decide (t < e) | none => false
      if inside then d1.wrap (F.OUT_PPS_STATUS_dropped k) 1
      else if !d1.timeReady || d1.parkWanted (12 + k) then d1
      else
        let w := p.cfg.pulseWidth
        ((d1.setPps k { p1 with busyTo := some (t + w) }).setBit R.OUT_STATUS (12 + k) false).when (!d1.sec.extest)
          (Dev.emit (.pulse k t w p.cfg.inverted))

/-- A REFIN pulse measured at `t` reaches the outputs sourced from it (R399, R400). -/
def Dev.outPulse (i t : Nat) (d : Dev) : Dev :=
  if !(d.tdcByRef (80 + i) && d.isPulse i) then d
  else
    let a := (t : Int) - d.sget (F.REF_IN_DELAY i)
    Dev.each ((List.range 4).filter (fun k => (d.ppsOf k).cfg.src == i + 1)) (fun k e =>
      let e1 := e.setPps k { e.ppsOf k with realign := (e.ppsOf k).realign ++ [(a, t)] }
      if e1.flag (F.OUT_PPS_STATUS_holding k) then (e1.put (F.OUT_PPS_STATUS_holding k) 0).outEvent 2 (12 + k) else e1) d

/-- The pulses of a source have stopped (R400): the output holds its last alignment. -/
def Dev.ppsLost (k : Nat) (d : Dev) : Dev :=
  let p := d.ppsOf k
  if p.cfg.src = 0 ∨ (d.pulsesOf p.cfg.src).isEmpty ∨ d.flag (F.OUT_PPS_STATUS_holding k) then d
  else ((d.put (F.OUT_PPS_STATUS_holding k) 1).outEvent 1 (12 + k)).raise E.OUT_ALIGN_LOST (12 + k)

/-- The lock of the delay-locked line of output `j` (R404): a pulse output's has no register. -/
def Dev.setDll (j : Nat) (v : Bool) (d : Dev) : Dev :=
  if j < 12 then d.put (F.OUT_CLK_STATUS_dll_lock j) (bit v) else d.setPps (j - 12) { d.ppsOf (j - 12) with dllLost := !v }

/-- A delay-locked line loses lock: its output is held parked. -/
def Dev.dllUnlock (j : Nat) (d : Dev) : Dev := (((d.setDll j false).outEvent 3 j).raise E.OUT_DLL_UNLOCK j).syncParked

/-- A delay-locked line locks. -/
def Dev.dllRelock (j : Nat) (d : Dev) : Dev := d.setDll j true

/-- The ramp of R374 ends. -/
def Dev.rampEnd (d : Dev) : Dev := if d.rootLocked then d.ffStop else d

end Sys2Proof.Machine
end

