-- ==== Sys2Proof/Machine/Tables.lean ====
section
/-! DEFINITION. The table and status memories of the CSR window as the host reaches them (R87, R90–R92, R95, R191, R240, R245,
R260, R264, R423, R449, R452, R473, R478): where they lie, what a dword written to them does, when an entry takes effect. -/

namespace Sys2Proof.Machine

/-! ### Where the memories lie -/

/-- The memories of the CSR window. -/
inductive Area where
  | staging | store | pendingWin | mgtTx | mgtRx | em | tcam | act | mcast | ctx | hits | buckets | bufState | gates | flows
  | tmplDesc | tmplData | report | ptpKeys | chans | assocs | ctrVal | ctrCfg | ring
  deriving DecidableEq, Repr

abbrev stagingBase : Nat := 0x00200000
abbrev storeBase : Nat := 0x00600000
abbrev pendingBase : Nat := 0x00700000
abbrev mgtBase : Nat := 0x00720000
abbrev reportBase : Nat := 0x03000000
abbrev ctrBase : Nat := 0x04000000
abbrev ctrCfgBase : Nat := 0x04020000
abbrev ringBase : Nat := 0x05000000

/-- The memories that are one array: base, bytes per entry, entries (Tables FWD-4, QSC-5, R240, R264, R449, R452, R473,
R488). -/
def flatAreas : List (Area × Nat × Nat × Nat) :=
  [(.staging, stagingBase, 4, 0x100000), (.store, storeBase, 4, 0x40000), (.pendingWin, pendingBase, 4, 0x8000),
   (.em, emBase, 64, 131072), (.tcam, tcamBase, 128, 8192), (.act, actBase, 16, 131072), (.mcast, mcBase, 16, 4096),
   (.ctx, ctxBase, 64, 4096), (.hits, hitBase, 4, 4096), (.buckets, bucketBase, 4, 32768),
   (.bufState, stateBase, 4, 294912), (.flows, flowBase, 32, 4096), (.tmplDesc, tmplBase, 16, 256),
   (.tmplData, tmplData, 4, 131072), (.report, reportBase, 4, 112), (.ptpKeys, ptpKeyBase, 64, 16),
   (.chans, chanBase, 32, 4096), (.assocs, saBase, 64, 8192), (.ctrVal, ctrBase, 8, 8736), (.ctrCfg, ctrCfgBase, 4, 8736),
   (.ring, ringBase, 256, 16384)]

/-- A dword of a memory: the memory, the number of its entry, the entry's address and its bytes. -/
structure Cellref where
  area : Area
  index : Nat
  base : Nat
  size : Nat
  deriving DecidableEq, Repr

/-- The entry of a memory that holds an address, if any. -/
def cellAt (a : Nat) : Option Cellref :=
  if mgtBase ≤ a ∧ a < mgtBase + 0x20000 then
    let o := (a - mgtBase) % 0x2000
    let n := (a - mgtBase) / 0x2000
    if o < 0x380 then some ⟨.mgtTx, n, a / 4 * 4, 4⟩
    else if 0x400 ≤ o ∧ o < 0x1400 ∧ o % 0x400 < 0x380 then some ⟨.mgtRx, n, a / 4 * 4, 4⟩
    else none
  else if gateBase ≤ a ∧ a < gateBase + 0x1000 * 81 then
    let p := (a - gateBase) / 0x1000
    if p = 64 then none else some ⟨.gates, p, a / 8 * 8, 8⟩
  else
    (flatAreas.find? (fun r => decide (r.2.1 ≤ a) && decide (a < r.2.1 + r.2.2.1 * r.2.2.2))).map (fun r =>
      let i := (a - r.2.1) / r.2.2.1
      ⟨r.1, i, r.2.1 + r.2.2.1 * i, r.2.2.1⟩)

/-! ### Counters as memory -/

/-- The block that owns counter `i` (Tables CNT-1 and CNT-2). -/
def ctrOwner (i : Nat) : Nat :=
  if i < 3888 then
    let p := i / 48
    let o := i % 48
    if o ≤ 8 ∨ o = 11 then (if p < 64 then 15 else if p = 64 then 2 else 13)
    else if o = 9 ∨ o = 10 ∨ (15 ≤ o ∧ o ≤ 22) ∨ (38 ≤ o ∧ o ≤ 44) then 18
    else if (12 ≤ o ∧ o ≤ 14) ∨ o = 45 then 4
    else if 46 ≤ o then 23
    else if 29 ≤ o then 17
    else 16
  else if i < 4096 then 16
  else if i < 4112 then 17
  else if i < 4304 then 16
  else if i < 4320 then 19
  else if i < 4576 then 14
  else if i < 4640 then 13
  else 23

/-- The instance of its owner that counter `i` belongs to: a port, a cluster or a lane. -/
def ctrInst (i : Nat) : Nat :=
  if i < 3888 then i / 48
  else if i < 4080 then (i - 3888) / 24
  else if i < 4096 then (i - 4080) / 2
  else if 4320 ≤ i ∧ i < 4576 then (i - 4320) / 4
  else if 4576 ≤ i ∧ i < 4640 then (i - 4576) / 4
  else 0

/-- The key under which the clearings of one instance of an owner are counted: its clusters stand apart from its ports. -/
def ctrKey (i : Nat) : Nat := 32 + 128 * ctrOwner i + ctrInst i + (if 3888 ≤ i ∧ i < 4096 then 100 else 0)

/-- The owner of counter `i` is present (R479). -/
def Dev.ctrPresent (d : Dev) (i : Nat) : Bool :=
  let n := ctrInst i
  d.blockPresent (ctrOwner i) &&
    (if i < 3888 then d.portPresent n
     else if i < 4096 then d.regionPresent n
     else if 4313 ≤ i ∧ i < 4320 then false
     else if 4320 ≤ i ∧ i < 4576 then d.regionPresent (n / 8)
     else if 4576 ≤ i ∧ i < 4640 then d.regionPresent Region.time
     else d.regionPresent Region.global)

/-- The domain that holds the owner of counter `i` (Table PWR-1). -/
def ctrDomain (i : Nat) : Nat :=
  let n := ctrInst i
  match ctrOwner i with
  | 16 => 0
  | 18 => 1
  | 17 => 2
  | 4 => 3
  | 23 => 3
  | 15 => 4 + n / 16
  | 14 => 4 + n / 16
  | 13 => 8
  | _ => 10

/-- The clearings of counter `i` that its owner's resets made, and whether one came since the last snapshot. -/
def Dev.groupClears (d : Dev) (i : Nat) : Nat × Bool :=
  let a := Sparse.getD d.obs.clears (ctrOwner i) (0, false)
  let b := Sparse.getD d.obs.clears (ctrKey i) (0, false)
  (a.1 + b.1, a.2 || b.2)

/-- The generation of counter `i` (R478, R479). -/
def Dev.ctrGen (d : Dev) (i : Nat) : Nat := ((d.ctr i).gen + (d.groupClears i).1) % 256

/-- The counters of a set cleared by a reset or a power-off of their owner, counted under `key`. -/
def Dev.clearGroup (key : Nat) (among : Nat → Bool) (d : Dev) : Dev :=
  let c := Sparse.getD d.obs.clears key (0, false)
  let touched := (d.obs.ctrs.map (·.1)).filter among
  let d1 := { d with obs := { d.obs with clears := Sparse.put d.obs.clears key ((c.1 + 1) % 256, true) } }
  Dev.each touched (fun i e => e.setCtr i { e.ctr i with value := 0, ovf := false }) d1

/-- Every counter of an owner cleared (R479). -/
def Dev.clearOwner (pg : Nat) (d : Dev) : Dev := d.clearGroup pg (fun i => ctrOwner i == pg)

/-- The counters of one instance of an owner cleared (R479). -/
def Dev.clearOwnerAt (pg n : Nat) (d : Dev) : Dev :=
  d.clearGroup (32 + 128 * pg + n) (fun i => ctrKey i == 32 + 128 * pg + n)

/-- The value of a counter as the host reads it (R460, R479, Table TOP-2). -/
def Dev.ctrRead (d : Dev) (i : Nat) : Nat :=
  if d.flag F.TOP_READY_cnt && d.ctrPresent i && d.domainOn (ctrDomain i) then (d.ctr i).value else 0

/-- The configuration word of a counter (Table CNT-3). -/
def Dev.ctrWord (d : Dev) (i : Nat) : Nat :=
  let c := d.ctr i
  bit c.enable + 2 * bit c.level + 4 * bit c.harvest + 8 * bit (ctrIsByte i) + 256 * bit c.ovf + 65536 * d.ctrGen i +
    2 ^ 31 * bit (d.ctrPresent i)

/-- A write of a counter's value (R474, R478): event counters ignore bits 63:40. -/
def Dev.writeCtr (i v : Nat) (d : Dev) : Dev :=
  let c := d.ctr i
  d.setCtr i { c with value := v % ctrSpan i, cleared := true, gen := (c.gen + 1) % 256 }

/-- The snapshot record's length for the counters in the harvest set (R482). -/
def recordLen (n : Nat) : Nat := (64 + 9 * n + 63) / 64 * 64

/-- The counters with harvest set. -/
def Dev.harvestSet (d : Dev) : List Nat := (List.range 8736).filter (fun i => (d.ctr i).harvest)

/-- The number of counters with harvest set: those touched and cleared out of the set are the ones that left it. -/
def Dev.harvestCount (d : Dev) : Nat := 8736 - (d.obs.ctrs.filter (fun c => !c.2.harvest)).length

/-- A write of a counter's configuration word (R478, Table CNT-3). -/
def Dev.writeCtrCfg (i : Nat) (w : Word) (d : Dev) : Dev :=
  let c := d.ctr i
  let d1 := if c.level == w.getLsbD 1 then d else (d.setCtr i { c with level := w.getLsbD 1 }).clearCtr i
  let c1 := d1.ctr i
  let d2 := d1.setCtr i { c1 with
    enable := w.getLsbD 0, harvest := w.getLsbD 2, ovf := c1.ovf && !w.getLsbD 8 }
  d2.put F.CNT_HARV_REC_LEN (recordLen d2.harvestCount)

/-! ### Presence, domains and reserved bits -/

/-- The block page of a memory. -/
def Area.page : Area → Nat
  | .staging => 1 | .store => 1 | .pendingWin => 1 | .mgtTx => 13 | .mgtRx => 13 | .em => 16 | .tcam => 16 | .act => 16
  | .mcast => 16 | .ctx => 16 | .hits => 16 | .buckets => 16 | .bufState => 17 | .gates => 18 | .flows => 18
  | .tmplDesc => 18 | .tmplData => 18 | .report => 4 | .ptpKeys => 4 | .chans => 23 | .assocs => 23 | .ctrVal => 19
  | .ctrCfg => 19 | .ring => 20

/-- The region of an entry of a memory (R33, R191, R240, R266, R452, R473). -/
def Cellref.region (c : Cellref) : Nat :=
  match c.area with
  | .mgtTx => Region.time
  | .mgtRx => Region.time
  | .buckets => c.index / 4096
  | .gates => portGroup c.index
  | _ => Region.global

/-- The domain whose power a memory needs (Table PWR-1). -/
def Area.domain : Area → Nat
  | .em => 0 | .tcam => 0 | .act => 0 | .mcast => 0 | .ctx => 0 | .hits => 0 | .buckets => 0 | .bufState => 2
  | .gates => 1 | .flows => 1 | .tmplDesc => 1 | .tmplData => 1 | .report => 3 | .ptpKeys => 3 | .chans => 3
  | .assocs => 3 | .mgtTx => 8 | .mgtRx => 8 | _ => 10

/-- An entry of a memory is present (R51, R63, R459). -/
def Dev.cellPresent (d : Dev) (c : Cellref) : Bool :=
  match c.area with
  | .staging => true
  | .store => true
  | .pendingWin => true
  | .report => true
  | .ptpKeys => !d.applied || hasBit d.img.domains 3
  | .gates => d.blockPresent 18 && d.regionPresent c.region && d.portPresent c.index
  | .ctrVal => d.blockPresent 19 && d.ctrPresent c.index
  | .ctrCfg => d.blockPresent 19 && d.ctrPresent c.index
  | _ => d.blockPresent c.area.page && d.regionPresent c.region

/-- The bits of dword `k` of an entry that a table names; the rest are reserved (Tables FWD-5, FWD-7, FWD-9, QSC-1, QSC-5,
MSC-1, MSC-2, CNT-3, R195, R199, R264, R449). -/
def Area.defined (a : Area) (k : Nat) : Word :=
  match a with
  | .em => if k < 10 then 0xFFFFFFFF else if k = 15 then 0x800FFFFF else 0
  | .tcam => if k < 20 then 0xFFFFFFFF else if k = 31 then 0x8019FFFF else 0
  | .act => if k = 0 then 0xFF3FFFF7 else if k = 1 then 0xFFFF7FFF else if k = 2 then 0xFFFFFFFF else 0x80000000
  | .mcast => if k < 2 then 0xFFFFFFFF else if k = 2 then 0x0301FFFF else 0x80000000
  | .ctx => if k = 0 then 0x800003FF else if k < 10 then 0xFFFFFFFF else 0
  | .gates => if k = 0 then 0x000003FF else 0xFFFFFFFF
  | .flows => if k = 0 then 0xB0FF077F else if k = 4 then 0x3FFFFFFF else if k = 6 then 0xF1FFFFFF else 0xFFFFFFFF
  | .tmplDesc => if k = 0 then 0x0FFF0FFF else if k = 1 then 0xFFFF0FFF else if k = 2 then 0 else 0x80000000
  | .ptpKeys => if k = 0 then 0xFFFFFFFF else if k = 1 then 0x800000FF else if k < 8 then 0 else 0xFFFFFFFF
  | .chans => if k < 2 then 0xFFFFFFFF else if k = 2 then 0x8008713F else if k = 3 then 0xFFFFFFFF else 0x00009FFF
  | .assocs => if k = 0 then 0x80090000 else if k = 7 then 0 else 0xFFFFFFFF
  | .ctrCfg => 0x80FF010F
  | _ => 0xFFFFFFFF

/-- A memory the host cannot write. Bucket and buffer state flag a write as undefined (R191, R240); the rest ignore it. -/
def Area.readOnly : Area → Bool
  | .store => true | .mgtRx => true | .hits => true | .buckets => true | .bufState => true | .report => true | .ring => true
  | _ => false

/-! ### The mirror queue (R423–R425, R453) -/

/-- The mirrored memory of a code of Table RDN-7: base, bytes per entry, entries. -/
def mirrored (code : Nat) : Option (Nat × Nat × Nat) :=
  match code with
  | 0 => some (emBase, 64, 131072)
  | 1 => some (tcamBase, 128, 8192)
  | 2 => some (actBase, 16, 131072)
  | 3 => some (mcBase, 16, 4096)
  | 4 => some (ctxBase, 64, 4096)
  | 5 => some (chanBase, 32, 4096)
  | 6 => some (saBase, 64, 8192)
  | _ => none

/-- The mirror code of a memory. -/
def Area.mirror : Area → Option Nat
  | .em => some 0 | .tcam => some 1 | .act => some 2 | .mcast => some 3 | .ctx => some 4 | .chans => some 5
  | .assocs => some 6 | _ => none

/-- The mate flag of an entry of a mirrored memory (Table RDN-7). -/
def Dev.mateFlag (d : Dev) (code base : Nat) : Bool :=
  match code with
  | 0 => field (d.dword (base + 60)) 19 1 == 1
  | 1 => field (d.dword (base + 124)) 19 1 == 1
  | 2 => field (d.dword (base + 4)) 29 1 == 1
  | 3 => field (d.dword (base + 8)) 25 1 == 1
  | 4 => field (d.dword base) 9 1 == 1
  | 5 => field (d.dword (base + 8)) 19 1 == 1
  | 6 => field (d.dword base) 19 1 == 1
  | _ => false

/-- This device is the ACTIVE member of its pair. -/
def Dev.isActive (d : Dev) : Bool := d.blockPresent 21 && d.get F.RDN_STATUS_role == Role.active

/-- The mirror queue set, RDN_MIR_Q with it. -/
def Dev.setMirrorQ (l : List Nat) (d : Dev) : Dev :=
  ({ d with belay := { d.belay with queue := l } }).put F.RDN_MIR_Q l.length

/-- An update for an entry arrives at the mirror queue (R424, R425, R453). -/
def Dev.queueMirror (code base : Nat) (d : Dev) : Dev :=
  if !d.isActive then d
  else if code = 6 ∧ !d.flag F.SEC_STATUS_pair_key then d.event R.SEC_EVENT 7
  else if d.belay.queue.contains base then d
  else if 4096 ≤ d.belay.queue.length then
    let d1 := (d.fault R.RDN_EVENT 7 E.RDN_MIRROR_OVF 0).put F.RDN_STATUS_synced 0
    { d1 with belay := { d1.belay with walkDue := true } }
  else d.setMirrorQ (d.belay.queue ++ [base])

/-! ### Host writes -/

/-- The fields of a stream keeper flow that the device writes are kept; fills may be written 0 (Table QSC-5). -/
def Dev.flowDword (d : Dev) (base k : Nat) (w : Word) : Word :=
  let old := BitVec.ofNat 32 (d.dword (base + 4 * k))
  if k = 0 then (w &&& 0x8FFFFFFF) ||| (if w.getLsbD 31 then old &&& 0x30000000 else 0)
  else if k = 4 ∨ k = 5 ∨ k = 6 then old
  else if k = 7 then (if w = 0 then 0 else old)
  else w

/-- A dword of an entry stored, reserved bits left out. A flow in filling that the write disables goes idle: QSC_SK_FILLING falls
(Tables QSC-6, QSC-8). -/
def Dev.putDword (c : Cellref) (a : Nat) (w : Word) (d : Dev) : Dev :=
  let k := (a - c.base) / 4
  let v := w &&& c.area.defined k
  let x := if c.area = .flows then d.flowDword c.base k v else v
  let leaves := c.area = .flows ∧ k = 0 ∧ !x.getLsbD 31 ∧ field (d.dword a) 28 2 = 2
  (d.storeDword a x.toNat).when (decide leaves) (fun e => e.put F.QSC_SK_FILLING (e.get F.QSC_SK_FILLING - 1))

/-- The dwords held for an entry and the one that completes it take effect together (R90): parity marks fall, a flagged
entry queues an update for the mate (R423). -/
def Dev.commitEntry (c : Cellref) (a : Nat) (w : Word) (d : Dev) : Dev :=
  let addrs := (List.range (c.size / 4)).map (fun k => c.base + 4 * k)
  let held := addrs.filterMap (fun x => (Sparse.get? d.host.entry x).map (fun v => (x, v)))
  let was := match c.area.mirror with | some m => d.mateFlag m c.base | none => false
  let d0 := { d with
    host := { d.host with entry := d.host.entry.filter (fun e => e.1 < c.base || c.base + c.size ≤ e.1) }
    parity := d.parity.filter (· != c.base) }
  let d1 := Dev.each (held ++ [(a, w)]) (fun e x => x.putDword c e.1 e.2) d0
  match c.area.mirror with
  | some m => d1.when (was || d1.mateFlag m c.base) (Dev.queueMirror m c.base)
  | none => d1

/-- A counter's value dword: the upper one writes both (R90, R478). -/
def Dev.commitCtr (c : Cellref) (a : Nat) (w : Word) (d : Dev) : Dev :=
  if a = c.base then { d with host := { d.host with entry := Sparse.put d.host.entry a w } }
  else
    let low := match Sparse.get? d.host.entry c.base with | some v => v.toNat | none => (d.ctr c.index).value % 2 ^ 32
    ({ d with host := { d.host with entry := Sparse.del d.host.entry c.base } }).writeCtr c.index (low + 2 ^ 32 * w.toNat)

/-- The full staging window accepts writes (R47); the pending window accepts them (R54). -/
def Dev.stagingOpen (d : Dev) : Bool := d.get F.IMG_STATUS_state == Img.empty || d.get F.IMG_STATUS_state == Img.failed
def Dev.pendingOpen (d : Dev) : Bool := d.stagingOpen || d.get F.IMG_STATUS_state == Img.appliedSt

/-- The bytes of a dword that a byte-enable selects. -/
def enabledBytes (a : Nat) (be : BitVec 4) (w : Word) (d : Dev) : Dev :=
  Dev.each ((List.range 4).filter (fun i => be.getLsbD i)) (fun i e => e.store (a + i) [BitVec.ofNat 8 (w.toNat / 256 ^ i)]) d

/-- A write to one of the two windows: the enabled bytes, or the flag busy (R47, R54, Table HIF-3). -/
def Dev.windowWrite (a : Nat) (be : BitVec 4) (w : Word) (d : Dev) : Dev :=
  let ok := if a < storeBase then d.stagingOpen else d.pendingOpen
  if ok then enabledBytes a be w d else d.flagAccess 7 a

/-- The entry of a gate bank lies in the operational list's bank, or in the bank of a list that has fired (R248). -/
def Dev.gateBankTaken (d : Dev) (c : Cellref) : Bool :=
  let bank := (c.base - gateBase) % 0x1000 / 0x800
  let holds := fun (g : Option Gcl) => match g with | some x => x.bank == bank | none => false
  c.area == .gates && (holds (Sparse.get? d.qsc.oper c.index) || holds (Sparse.get? d.qsc.pend c.index))

/-- One dword written by the host to a table or status memory (R87, R90, R91, R95, R248), with its byte enables. -/
def Dev.tableDword (a : Nat) (be : BitVec 4) (w : Word) (d : Dev) : Dev :=
  match cellAt a with
  | none => d.flagAccess 2 a
  | some c =>
    if d.busy ∧ c.region ≠ Region.time then d
    else if c.area = .staging ∨ c.area = .pendingWin then d.windowWrite a be w
    else if !d.cellPresent c then d.absentWrite a
    else if c.area = .buckets ∨ c.area = .bufState then d.flagAccess 2 a
    else if be ≠ 0xF then d.flagAccess 1 a
    else if !d.domainOn c.area.domain ∨ (c.area = .ctrVal ∧ !d.domainOn (ctrDomain c.index)) then d.flagAccess 5 a
    else if c.area.readOnly then d
    else if d.gateBankTaken c then d.event (R.QSC_EVENT c.index) 5
    else if c.area.page = 16 ∧ !d.flag F.TOP_READY_fwd then d
    else
      let rsvd := w &&& ~~~(c.area.defined ((a - c.base) / 4))
      let d1 := d.when (rsvd != 0) (Dev.flagAccess 6 a)
      match c.area with
      | .ctrVal => d1.commitCtr c a w
      | .ctrCfg => d1.writeCtrCfg c.index w
      | .mgtTx =>
        if d1.flag (F.RLK_MGT_TX_send c.index) then d1.event (R.RLK_EVENT c.index) 10 else d1.storeDword a w.toNat
      | _ =>
        if a + 4 = c.base + c.size then d1.commitEntry c a w
        else { d1 with host := { d1.host with entry := Sparse.put d1.host.entry a w } }

end Sys2Proof.Machine
end

