-- ==== Sys2Proof/Machine/Links.lean ====
section
/-! DEFINITION. Links of ports and their lanes: a port's link comes up and goes down (R67, R169, R244), the lanes' power states
and alignment (R123–R134), PRBS and loopback (R135–R140), enabling a port (R125, R142), waking a domain (R464). -/

namespace Sys2Proof.Machine

/-! ### Domains that wake -/

/-- A domain that is switching on (Table PWR-6). -/
def Dev.domainChanging (d : Dev) (k : Nat) : Bool := hasBit (d.get F.PWR_DOM_STATUS_changing) k

/-- The time-only state holds the four datapath domains off (R469). -/
def Dev.timeOnlyHolds (d : Dev) (k : Nat) : Bool :=
  k < 4 && (d.get F.PWR_STATE_mode == 1 || d.get F.PWR_STATE_mode == 2)

/-- A domain starts to power on, whatever request stands (R464, R467), unless it is to stay off (R459, R469). -/
def Dev.startPower (k : Nat) (d : Dev) : Dev :=
  if d.domainOn k ∨ !d.domainEnabled k ∨ d.domainChanging k ∨ d.timeOnlyHolds k then d
  else d.put F.PWR_DOM_STATUS_changing (orBit (d.get F.PWR_DOM_STATUS_changing) k)

/-- A wake event at a domain that is off (R464): it starts to power on, unless it is to stay off (R459, R466, R469). -/
def Dev.wake (k : Nat) (d : Dev) : Dev :=
  if hasBit (d.get F.PWR_DOM_OFF_REQ) k then d else d.startPower k

/-- The four datapath domains wake. -/
def Dev.wakeDatapath (d : Dev) : Dev := Dev.each [0, 1, 2, 3] Dev.wake d

/-! ### A port's link -/

/-- A port loses its link (R67, R169, R244, R255): its ready bit clears, the copies in its queues are discarded, the frame it
receives ends bad. A frame in transmission completes; on a tunnel port it is cut, the payload slots hold K30.7 for a frame partly
sent and then K23.7, and the copy counts as discarded. -/
def Dev.portDown (p : Nat) (d : Dev) : Dev :=
  if !d.portReady p then d
  else
    let d1 := (d.cutOff p).put (readyBit p) 0
    let d2 := if 64 < p then
        (match d1.sendingOn p with
         | some s => ((d1.setSending p none).onLine p (.cut p (d1.wireBytes p s false none))).discard p s.queue 0x25 s.copy
         | none => d1).endStream (p - 65)
      else d1
    (d2.flushPort p (if p = 64 then 0x27 else 0x25)).skSettle

/-- A pattern, a check or a loopback on a lane takes its port's link (R139). -/
def Dev.laneTesting (d : Dev) (l : Nat) : Bool :=
  d.flag (F.HSL_PRBS_CTRL_tx_en l) || d.flag (F.HSL_PRBS_CTRL_rx_en l) || d.get (F.HSL_CTRL_loopback l) == 1 ||
    d.get (F.HSL_CTRL_loopback l) == 2

/-- The port's mode has Clause 73 negotiation (Table HSL-3): every one but 400G on eight lanes. -/
def Dev.hasAn (d : Dev) (p : Nat) : Bool := d.flag (F.MAC_CFG_an_en p) && d.get (F.MAC_CFG_lanes p) != 8

/-- The port may have link: present, enabled, lanes in L0 or L1 with alignment and without test and so no local fault (R128),
negotiated where it negotiates; no reset holds it, and EXTEST has not taken the balls (R443). Under PCS loopback the link reads up
whatever the line does (R139). -/
def Dev.mayLink (d : Dev) (p : Nat) : Bool :=
  d.portPresent p && !d.busy && !d.sec.extest && !d.portInReset p && d.flag (F.MAC_CFG_enable p) &&
    !(d.portLanes p).any d.laneTesting &&
    (d.flag (F.MAC_CFG_pcs_loop p) ||
      ((d.portLanes p).all (fun l => d.flag (F.HSL_STATUS_align_lock l)) && !d.flag (F.MAC_STATUS_local_fault p) &&
        (!d.hasAn p || d.get (F.MAC_STATUS_an_state p) == 4)))

/-- The link of an Ethernet port comes up. -/
def Dev.linkUp (p : Nat) (d : Dev) : Dev :=
  if d.flag (F.MAC_STATUS_link p) ∨ !d.mayLink p then d
  else
    let d1 := (d.put (F.MAC_STATUS_link p) 1).put (F.MAC_STATUS_remote_fault p) 0
    ((d1.event (R.MAC_EVENT p) 0).put (readyBit p) 1).phxEval p

/-- The link of an Ethernet port goes down. -/
def Dev.linkDown (p : Nat) (d : Dev) : Dev :=
  if !d.flag (F.MAC_STATUS_link p) then d
  else
    let d1 := (d.put (F.MAC_STATUS_link p) 0).fault (R.MAC_EVENT p) 1 E.MAC_LINK_DOWN p
    (d1.portDown p).phxEval p

/-- The line takes a port's link, or the partner reports a fault (R122, R244): `remote` says that remote fault is received. Under PCS
loopback the link reads up whatever the line does (R139). -/
def Dev.lineDown (p : Nat) (remote : Bool) (d : Dev) : Dev :=
  let d1 := d.when (remote && d.portPresent p) (Dev.put (F.MAC_STATUS_remote_fault p) 1)
  if d1.flag (F.MAC_CFG_pcs_loop p) && d1.mayLink p then d1 else d1.linkDown p

/-- Local fault signalling of a port's PCS (R122): an enabled port has a local fault while a lane of it lacks alignment. -/
def Dev.faultSync (p : Nat) (d : Dev) : Dev :=
  d.put (F.MAC_STATUS_local_fault p)
    (bit (d.flag (F.MAC_CFG_enable p) && !(d.portLanes p).all (fun l => d.flag (F.HSL_STATUS_align_lock l))))

/-- The port a lane serves, if any. -/
def Dev.lanePort (d : Dev) (l : Nat) : Option Nat := if d.flag (F.HSL_CFG_used l) then some (d.get (F.HSL_CFG_port l)) else none

/-- Something done to the port a lane serves. -/
def Dev.onPort (l : Nat) (f : Nat → Dev → Dev) (d : Dev) : Dev :=
  match d.lanePort l with | some p => f p d | none => d

/-! ### Residuals -/

/-- A number of lane bits modulo T_block in 1/65,536 ns, rounded to nearest (R124, R125, Tables HSL-1 and HSL-2). The bit
periods and T_block are whole numbers of 1/14,025 ns. -/
def residual (rate speed v : Nat) : Nat :=
  let bit := nthD [1360, 544, 264, 132] rate 132
  let block := nthD [89760, 35904, 17952, 8976, 4488, 2244] speed 8976
  (2 * 65536 * (v * bit % block) + 14025) / (2 * 14025)

/-- MAC_RX_RESID_p rewritten from the lanes' alignment (R124). -/
def Dev.rxResid (p : Nat) (d : Dev) : Dev :=
  let l := d.refLane p
  let v := d.get (F.HSL_RX_ALIGN_rx_slip l) + d.get (F.HSL_RX_ALIGN_rx_deskew l) + d.get (F.HSL_RX_ALIGN_rx_fec_pos l)
  d.put (F.MAC_RX_RESID p) (residual (d.get (F.HSL_CFG_rate l)) (d.get (F.MAC_CFG_speed p)) v)

/-- MAC_TX_RESID_p rewritten from the first lane's gearbox phase (R125). -/
def Dev.txResid (p : Nat) (d : Dev) : Dev :=
  d.put (F.MAC_TX_RESID p)
    (residual (d.get (F.HSL_CFG_rate p)) (d.get (F.MAC_CFG_speed p)) (d.get (F.HSL_TX_ALIGN_tx_gb_phase p)))

/-! ### A lane -/

/-- The lane is present: the HSL block, and the lane's port group (R141). -/
def Dev.lanePresent (d : Dev) (l : Nat) : Bool := d.instPresent 14 .lane l

/-- The lane runs: present, its domain on, not in L2. -/
def Dev.laneRuns (d : Dev) (l : Nat) : Bool :=
  d.lanePresent l && d.domainOn (4 + l / 16) && d.get (F.HSL_STATUS_pwr_state l) != Lane.l2

/-- The phase measurement of a lane serves no more: phase_valid reads 0 until it is made anew (R134). -/
def Dev.phaseLost (l : Nat) (d : Dev) : Dev :=
  { d with lanes := { d.lanes with measured := d.lanes.measured.filter (· != l) } }.put (F.HSL_STATUS_phase_valid l) 0

/-- A lane loses alignment (R126); a PHX link over it loses its phase. -/
def Dev.alignLoss (l : Nat) (d : Dev) : Dev :=
  if !d.flag (F.HSL_STATUS_align_lock l) ∧ !d.flag (F.HSL_STATUS_phase_valid l) then d
  else ((d.put (F.HSL_STATUS_align_lock l) 0).phaseLost l).onPort l (fun p e => (e.faultSync p).phxEval p)

/-- A lane goes to L2: transmitter and receiver off, so no lock (Table HSL-4). -/
def Dev.laneOff (l : Nat) (d : Dev) : Dev := ((d.setLaneState l Lane.l2).put (F.HSL_STATUS_cdr_lock l) 0).alignLoss l

/-- Negotiation starts over on a port (R129, R130). -/
def Dev.anStart (p : Nat) (d : Dev) : Dev := d.put (F.MAC_STATUS_an_state p) (if d.hasAn p then 1 else 0)

/-- Negotiation or training fails: an_fail, the link stays down (R129, R130). -/
def Dev.anFail (p : Nat) (d : Dev) : Dev := (d.linkDown p).fault (R.MAC_EVENT p) 2 E.MAC_AN_FAIL p

/-- A test pattern or a loopback on a lane changed (R139): phase_valid reads 0, and the port has no link. -/
def Dev.laneTestSync (l : Nat) (d : Dev) : Dev :=
  if !d.laneTesting l then d
  else (d.phaseLost l).onPort l (fun p e => (e.linkDown p).phxEval p)

/-! ### Writes of lane and port registers -/

/-- The pattern field a write leaves: 6 and 7, and PRBS13Q on an NRZ lane, are refused and leave the old one (R135). -/
def patternOk (rate v : Nat) : Bool := v < 6 && !(v == 2 && rate < 2)

/-- HSL_PRBS_CTRL_l written (R135–R137). A single inject waits for the next bit the generator makes; a generator that starts begins
with its first bit. -/
def Dev.writePrbs (l : Nat) (w : Word) (d : Dev) : Dev :=
  let rate := d.get (F.HSL_CFG_rate l)
  let tx := bits w 0 3
  let rx := bits w 4 3
  let rose := !d.flag (F.HSL_PRBS_CTRL_rx_en l) && w.getLsbD 7
  let fell := d.flag (F.HSL_PRBS_CTRL_rx_en l) && !w.getLsbD 7
  let inj := d.flag (F.HSL_PRBS_CTRL_inject l) || w.getLsbD 8
  let d1 := d.when (patternOk rate tx) (Dev.put (F.HSL_PRBS_CTRL_tx_pattern l) tx)
  let d2 := d1.when (patternOk rate rx) (Dev.put (F.HSL_PRBS_CTRL_rx_pattern l) rx)
  let d3 := d2.when (!(patternOk rate tx && patternOk rate rx)) (Dev.event (R.HSL_EVENT l) 3)
  let d4 := ((d3.put (F.HSL_PRBS_CTRL_tx_en l) (bits w 3 1)).put (F.HSL_PRBS_CTRL_rx_en l) (bits w 7 1)).put
    (F.HSL_PRBS_CTRL_inject_period l) (bits w 12 4)
  let d5 := d4.when rose (fun e => (e.setWord (R.HSL_PRBS_ERR_LO l) 0).setWord (R.HSL_PRBS_ERR_HI l) 0)
  let d6 := d5.when fell (Dev.put (F.HSL_STATUS_prbs_lock l) 0)
  let gen := if !w.getLsbD 3 then Sparse.del d6.lanes.prbs l
    else if d.flag (F.HSL_PRBS_CTRL_tx_en l) then d6.lanes.prbs else Sparse.put d6.lanes.prbs l (0, 0)
  (({ d6 with lanes := { d6.lanes with prbs := gen } }).put (F.HSL_PRBS_CTRL_inject l) (bit inj)).laneTestSync l

/-- Errors counted at a lane's checker while it is locked (R136). -/
def Dev.prbsErrors (l n : Nat) (d : Dev) : Dev :=
  d.setPair (R.HSL_PRBS_ERR_LO l) (R.HSL_PRBS_ERR_HI l) (satAdd 64 (d.pair (R.HSL_PRBS_ERR_LO l) (R.HSL_PRBS_ERR_HI l)) n)

/-- The checker locks, or, locked, has met `errors` more of them (R136). -/
def Dev.prbsLock (l errors : Nat) (d : Dev) : Dev :=
  if d.flag (F.HSL_STATUS_prbs_lock l) then d.prbsErrors l errors
  else if d.laneRuns l ∧ d.flag (F.HSL_PRBS_CTRL_rx_en l) then d.put (F.HSL_STATUS_prbs_lock l) 1 else d

/-- The bits a generator inverts among the `k` after its first `pos` (R137): one in every 2^(n+9) where the period n is not 0, and
the first where a single inject waits; a bit that both ask for is inverted once. -/
def prbsInverted (n pos k : Nat) (inject : Bool) : Nat :=
  let every := 2 ^ (n + 9)
  let periodic := if n = 0 then 0 else (pos + k) / every - pos / every
  periodic + bit (inject && k != 0 && (n == 0 || (pos + 1) % every != 0))

/-- One edge of the time clock passes at a lane's generator (R137, Table HSL-1): the bits it makes, those it inverts. Under far-end
loopback none reaches the line (R140); under near-end loopback the lane's own checker meets them (R138). -/
def Dev.prbsEdge (l : Nat) (d : Dev) : Dev :=
  if !d.flag (F.HSL_PRBS_CTRL_tx_en l) ∨ !d.laneRuns l then d
  else
    let unit := 384 * nthD [1360, 544, 264, 132] (d.get (F.HSL_CFG_rate l)) 132
    let (acc, pos) := Sparse.getD d.lanes.prbs l (0, 0)
    let all := acc + 625 * 14025
    let k := all / unit
    let v := prbsInverted (d.get (F.HSL_PRBS_CTRL_inject_period l)) pos k (d.flag (F.HSL_PRBS_CTRL_inject l))
    let loop := d.get (F.HSL_CTRL_loopback l)
    let line := if loop = 2 then 0 else v
    let d1 := ({ d with lanes := { d.lanes with
      prbs := Sparse.put d.lanes.prbs l (all % unit, (pos + k) % 2 ^ 24)
      inverted := Sparse.put d.lanes.inverted l (Sparse.getD d.lanes.inverted l 0 + line) } })
    let d2 := d1.when (k != 0) (Dev.put (F.HSL_PRBS_CTRL_inject l) 0)
    let own := loop == 1 && d2.flag (F.HSL_STATUS_prbs_lock l) &&
      d2.get (F.HSL_PRBS_CTRL_tx_pattern l) == d2.get (F.HSL_PRBS_CTRL_rx_pattern l)
    d2.when own (Dev.prbsErrors l v)

/-- One edge of the time clock passes at every generator. -/
def Dev.prbsEdges (d : Dev) : Dev := Dev.each (d.lanes.prbs.map (·.1)) Dev.prbsEdge d

/-- The checker loses lock after `errors` counted since it locked, at least 16 of them within 256 bits (R136). -/
def Dev.prbsLockLoss (l errors : Nat) (d : Dev) : Dev :=
  if !d.flag (F.HSL_STATUS_prbs_lock l) then d
  else
    ((d.prbsErrors l errors).put (F.HSL_STATUS_prbs_lock l) 0).event (R.HSL_EVENT l) 2

/-- The port is disabled (R134, R142): it loses link, its lanes are held in L2, its negotiation is off. -/
def Dev.disablePort (p : Nat) (d : Dev) : Dev :=
  let d1 := ((d.put (F.MAC_CFG_enable p) 0).linkDown p).put (F.MAC_STATUS_an_state p) 0
  let d2 := { d1 with lanes := { d1.lanes with disableDue := d1.lanes.disableDue.filter (· != p) } }
  (Dev.each (d2.portLanes p) Dev.laneOff d2).faultSync p

/-- The port is enabled (R125, R134, R307): its gearbox phases are taken, its grid, and its lanes leave L2. The phases are the
start-up's own: free values below 80. -/
def Dev.enablePort (p : Nat) (d : Dev) : Dev :=
  let d0 := Dev.wake (4 + p / 16) (d.put (F.MAC_CFG_enable p) 1)
  let d1 := Dev.each (d0.portLanes p) (fun l e =>
    (e.put (F.HSL_TX_ALIGN_tx_gb_phase l) (Config.gearboxPhase e.freshTime % 80)).drawTime) d0
  let d2 := (d1.txResid p).regrid p
  let d3 := if d2.domainOn (4 + p / 16) then Dev.each (d2.portLanes p) (fun l e => e.setLaneState l Lane.l0) d2 else d2
  (d3.faultSync p).anStart p

/-- A copy is in transmission on a port, or preempted and not yet whole (R142, R252). -/
def Dev.midFrame (d : Dev) (p : Nat) : Bool := (d.sendingOn p).isSome || (Sparse.get? d.qsc.suspended p).isSome

/-- MAC_CFG_p written (R129, R138, R139, R142): enable changes at a frame boundary. -/
def Dev.writeMacCfg (p : Nat) (w : Word) (d : Dev) : Dev :=
  let was := d.flag (F.MAC_CFG_enable p)
  let on := w.getLsbD 0
  let an := d.flag (F.MAC_CFG_an_en p) != w.getLsbD 16
  let d1 := (d.put (F.MAC_CFG_an_en p) (bits w 16 1)).put (F.MAC_CFG_pcs_loop p) (bits w 17 1)
  let d2 := if on && !was then d1.enablePort p
    else if !on && was then
      (if d1.midFrame p then { d1 with lanes := { d1.lanes with disableDue := addOnce p d1.lanes.disableDue } }
       else d1.disablePort p)
    else
      let e := { d1 with lanes := { d1.lanes with disableDue := d1.lanes.disableDue.filter (· != p) } }
      if an && on then (e.linkDown p).anStart p else e
  if w.getLsbD 17 then
    let d3 := Dev.each (d2.portLanes p) Dev.phaseLost d2
    (Dev.each [0, 1, 2] Dev.wake (d3.linkUp p)).phxEval p
  else if d2.flag (F.MAC_STATUS_link p) && !d2.mayLink p then d2.linkDown p else d2

/-- A frame boundary on a port at which it is due to be disabled (R142). -/
def Dev.disableSync (p : Nat) (d : Dev) : Dev :=
  if d.lanes.disableDue.contains p ∧ !d.midFrame p then d.disablePort p else d

/-- Every port that is due to be disabled, at its frame boundary. -/
def Dev.disableSyncs (d : Dev) : Dev := Dev.each d.lanes.disableDue Dev.disableSync d

/-- HSL_CTRL_l written (R120, R138, R139). -/
def Dev.writeHslCtrl (l : Nat) (w : Word) (d : Dev) : Dev :=
  (((d.put (F.HSL_CTRL_tx_invert l) (bits w 0 1)).put (F.HSL_CTRL_rx_invert l) (bits w 1 1)).put (F.HSL_CTRL_loopback l)
    (bits w 2 2)).laneTestSync l

/-! ### Events of a lane and a port -/

/-- The CDR of an Ethernet lane locks (R134). -/
def Dev.cdrLock (l : Nat) (d : Dev) : Dev := if d.laneRuns l then d.put (F.HSL_STATUS_cdr_lock l) 1 else d

/-- The CDR of an Ethernet lane loses lock, and with it the lane its alignment (R126, Tables HSL-7 and CNT-1). -/
def Dev.cdrLoss (l : Nat) (d : Dev) : Dev :=
  if !d.flag (F.HSL_STATUS_cdr_lock l) then d
  else (((d.put (F.HSL_STATUS_cdr_lock l) 0).fault (R.HSL_EVENT l) 1 E.HSL_CDR_LOSS l).count (laneCtr l 3) 1).alignLoss l

/-- Alignment may be sought on a lane (R126, R130): it is not aligned, its CDR is locked, and on a port that negotiates training has
ended. -/
def Dev.seeksAlign (d : Dev) (l : Nat) : Bool :=
  d.laneRuns l && d.flag (F.HSL_STATUS_cdr_lock l) && !d.flag (F.HSL_STATUS_align_lock l) &&
    (match d.lanePort l with | some p => !d.hasAn p || d.get (F.MAC_STATUS_an_state p) == 4 | none => true)

/-- A lane gains alignment (R123, R124, R126): the three elements in their ranges, rx_fec_pos 0 where FEC is bypassed. -/
def Dev.alignLock (l slip deskew fecPos : Nat) (d : Dev) : Dev :=
  if !d.seeksAlign l then d
  else
    let bypass := match d.lanePort l with | some p => d.get (F.MAC_CFG_fec p) == 0 | none => true
    let d1 := ((d.put (F.HSL_RX_ALIGN_rx_slip l) (min 79 slip)).put (F.HSL_RX_ALIGN_rx_deskew l) (min 4095 deskew)).put
      (F.HSL_RX_ALIGN_rx_fec_pos l) (if bypass then 0 else min 5439 fecPos)
    let d2 := ((d1.put (F.HSL_STATUS_align_lock l) 1).wrap (F.HSL_STATUS_align_epoch l) 1).fault (R.HSL_EVENT l) 0 E.HSL_REALIGN l
    (d2.count (laneCtr l 2) 1).onPort l (fun p e => (((e.event (R.MAC_EVENT p) 3).rxResid p).txResid p).faultSync p)

/-- 1.2 ms after alignment lock the phase measurement of a lane is usable (R134, R139, R287, R315); while its TDC channel is faulted
phase_valid still reads 0. -/
def Dev.phaseValid (l : Nat) (d : Dev) : Dev :=
  let pcs := match d.lanePort l with | some p => d.flag (F.MAC_CFG_pcs_loop p) | none => false
  if !d.laneRuns l || !d.flag (F.HSL_STATUS_align_lock l) || d.laneTesting l || pcs then d
  else
    let d1 := { d with lanes := { d.lanes with measured := addOnce l d.lanes.measured } }
    if d.flag (F.TDC_STATUS_fault l) then d1 else (d1.put (F.HSL_STATUS_phase_valid l) 1).onPort l Dev.phxEval

/-- The one technology a port advertises (R129, Table HSL-3); a 10G port has none for copper. -/
def Dev.ownTech (d : Dev) (p : Nat) : Tech :=
  { speed := d.get (F.MAC_CFG_speed p), lanes := d.get (F.MAC_CFG_lanes p)
    copper := d.flag (F.MAC_AN_ADV_medium p) && d.get (F.MAC_CFG_speed p) != 0 }

/-- The FEC that two requests resolve to: the stronger where the partner is able of FEC, else none (IEEE 802.3 Clause 73: where both
ends are able, one that asks for FEC gets it; PRESUMED, log entry 87). -/
def resolvedFec (own : Nat) (able : Bool) (partner : Nat) : Nat := if able then max own partner else 0

/-- Negotiation resolves (R129): the partner's technologies, FEC ability and FEC request are in. A result that is the image's mode goes on to
training; any other sets an_fail and waits for the break-link time, in which an_state reads 0: DESIGN CHOICE (log entry 87). The
acknowledge state lies within this step. -/
def Dev.anComplete (p : Nat) (techs : List Tech) (fecAble : Bool) (fecReq : Nat) (d : Dev) : Dev :=
  if !d.hasAn p ∨ !d.portPresent p ∨ !d.flag (F.MAC_CFG_enable p) ∨ d.get (F.MAC_STATUS_an_state p) ≠ 1 then d
  else
    let ability := techs.contains (d.ownTech p)
    let d1 := (d.put (F.MAC_AN_LP_ability p) (bit ability)).put (F.MAC_AN_LP_fec_req p) fecReq
    let own := d.get (F.MAC_CFG_fec p)
    if ability && resolvedFec own fecAble fecReq == own then d1.put (F.MAC_STATUS_an_state p) 3
    else
      let d2 := (d1.anFail p).put (F.MAC_STATUS_an_state p) 0
      { d2 with lanes := { d2.lanes with breakLink := addOnce p d2.lanes.breakLink } }

/-- The break-link time of a port ends (R129). -/
def Dev.breakLinkEnds (p : Nat) (d : Dev) : Dev :=
  if !d.lanes.breakLink.contains p then d
  else
    let d1 := { d with lanes := { d.lanes with breakLink := d.lanes.breakLink.filter (· != p) } }
    if d1.portPresent p ∧ d1.flag (F.MAC_CFG_enable p) then d1.anStart p else d1

/-- Training runs out of time (R130). -/
def Dev.trainingTimeout (p : Nat) (d : Dev) : Dev :=
  if d.get (F.MAC_STATUS_an_state p) ≠ 3 then d else (d.anFail p).anStart p

/-- Training ends on every lane of a port (R130). -/
def Dev.trainingDone (p : Nat) (d : Dev) : Dev :=
  if d.get (F.MAC_STATUS_an_state p) ≠ 3 then d else d.put (F.MAC_STATUS_an_state p) 4

/-! ### Lane power states -/

/-- The latency tolerance in effect for a port in ns (R461). -/
def Dev.portTol (d : Dev) (p : Nat) : Nat :=
  min (d.word (R.PWR_LAT_TOL_PORT p)).toNat (d.word (R.PWR_LAT_TOL_GRP (portGroup p))).toNat

/-- A lane enters L1 (R132, R133, R462): its port has link, its queues are empty, nothing is in transmission, no gate of it opens
soon, and the tolerance admits 280 ns. -/
def Dev.l1Entry (l : Nat) (d : Dev) : Dev :=
  match d.lanePort l with
  | none => d
  | some p =>
    if d.laneRuns l ∧ d.get (F.HSL_STATUS_pwr_state l) = Lane.l0 ∧ d.portReady p ∧ 280 ≤ d.portTol p ∧ !d.midFrame p ∧
        d.waitingOn p = 0 ∧ !d.opensSoon p then d.setLaneState l Lane.l1
    else d

/-- A lane leaves L1 (R133). -/
def Dev.l1Exit (l : Nat) (d : Dev) : Dev := if d.get (F.HSL_STATUS_pwr_state l) = Lane.l1 then d.setLaneState l Lane.l0 else d

/-- A lane is held in L2 by configuration: no port uses it, or its port is disabled (R118, R134). -/
def Dev.heldInL2 (d : Dev) (l : Nat) : Bool :=
  match d.lanePort l with
  | none => true
  | some p => !d.flag (F.MAC_CFG_enable p)

/-- A lane enters L2 (R134, R462, R468): held there, or its port has no link and the tolerance admits 48 µs, which the time-only state
and the entry into it waive for a port without a PHX link. -/
def Dev.l2Entry (l : Nat) (d : Dev) : Dev :=
  if !d.lanePresent l then d
  else if d.heldInL2 l then d.laneOff l
  else match d.lanePort l with
    | some p => if !d.portReady p ∧ (48000 ≤ d.portTol p ∨
          ((d.get F.PWR_STATE_mode = 1 ∨ d.get F.PWR_STATE_mode = 2) ∧ !d.flag (F.PHX_CFG_enable p))) then d.laneOff l else d
    | none => d

/-- The time-only state holds in L2 the lanes of a port that sends no phase reports (R468, R469). -/
def Dev.timeOnlyLane (d : Dev) (l : Nat) : Bool :=
  (d.get F.PWR_STATE_mode == 1 || d.get F.PWR_STATE_mode == 2) &&
    (match d.lanePort l with | some p => !d.flag (F.PHX_CFG_enable p) | none => true)

/-- A lane leaves L2 and its bring-up starts (R134). -/
def Dev.l2Exit (l : Nat) (d : Dev) : Dev :=
  if !d.lanePresent l ∨ d.heldInL2 l ∨ d.timeOnlyLane l ∨ !d.domainOn (4 + l / 16) ∨ d.get (F.HSL_STATUS_pwr_state l) ≠ Lane.l2 then d
  else (d.setLaneState l Lane.l0).onPort l Dev.anStart

end Sys2Proof.Machine
end

