-- ==== Sys2Proof/Machine/Rope.lean ====
section
/-! DEFINITION. Rope lanes and the Mehrair link (R143–R173, R293, R317): framing, bring-up and rate negotiation, the elastic
buffer, control words, the management channel, tunnel ports. Lane `n` is 0–15. -/

namespace Sys2Proof.Machine

/-! ### The lane -/

abbrev Rlk.down : Nat := 0
abbrev Rlk.sync : Nat := 1
abbrev Rlk.caps : Nat := 2
abbrev Rlk.step : Nat := 3
abbrev Rlk.confirm : Nat := 4
abbrev Rlk.run : Nat := 5
abbrev Rlk.fallback : Nat := 6

/-- The state of a lane (Table RLK-5). -/
def Dev.ropeState (d : Dev) (n : Nat) : Nat := d.get (F.RLK_STATUS_state n)

/-- The lanes of the block are present and the lane's quad is usable (R154). -/
def Dev.ropeUsable (d : Dev) (n : Nat) : Bool :=
  d.blockPresent 13 && !d.blockInReset 13 && d.regionPresent Region.time && hasBit (d.get F.TOP_READY_rope_quad) (n / 8)

/-- The usable rope quads set; the transmitters of a quad that is none stop (R144, R154). -/
def Dev.setQuads (v : Nat) (d : Dev) : Dev :=
  Dev.each ((List.range 16).filter (fun n => !hasBit v (n / 8) && (d.rope n).tx.runs))
    (fun n e => e.ropeTx n (fun x => { x with runs := false, stream := [] })) (d.put F.TOP_READY_rope_quad v)

/-- The lane sends rope frames (R154). -/
def Dev.ropeSends (d : Dev) (n : Nat) : Bool := d.ropeUsable n && d.flag (F.RLK_CFG_enable n)

/-- The counters of a rope lane (Table CNT-1). -/
abbrev ropeCtr (n o : Nat) : Nat := 4576 + 4 * n + o

/-- The CRC-16 of the link (R149). -/
def ropeCrc (bs : List Byte) : Nat := crcMsb 16 0x1021 0xFFFF bs

/-! ### The tunnel -/

/-- The condition of R169 at a lane: RUN, and both ends offer the tunnel. -/
def Dev.tunnelOk (d : Dev) (n : Nat) : Bool :=
  d.ropeState n == Rlk.run && d.flag (F.RLK_CFG_tunnel_en n) && (d.word (R.RLK_PARTNER_CAP n)).getLsbD 16

/-- The lane carries belay messages (R172, R411). -/
def Dev.carriesBelay (d : Dev) (n : Nat) : Bool :=
  decide (14 ≤ n) && d.blockPresent 21 && d.flag F.RDN_CFG_link_en && d.blockPresent 13 && d.tunnelOk n

/-- A tunnel port follows its lane and its port group (R67, R169, R172, R468); without it the lane sends K23.7 in every payload slot,
but for belay messages. -/
def Dev.syncTunnel (n : Nat) (d : Dev) : Dev :=
  let p := 65 + n
  let ok := d.tunnelOk n
  let up := ok && d.portPresent p && hasBit (d.get F.TOP_READY_group) (portGroup p) && d.get F.PWR_STATE_mode == 0
  let d1 := d.put (F.RLK_STATUS_tunnel_up n) (bit ok)
  if up then d1.put (readyBit p) 1 else (d1.portDown p).when (!d1.carriesBelay n) (Dev.endStream n)

/-- What the tunnel's stream brings next: whether it is a frame's beginning, its bytes up to its end, which K29.7 marks, or K30.7 for
one that went bad (R168, R170), and what stands after. A K27.7 within a frame begins the next one; what stands between frames is
skipped. -/
def tunnelSeg (inFrame overRate : Bool) (l : List Sym) : Option (Bool × Seg × List Sym) :=
  let more := inFrame && l.head? != some .sof
  let start := if more then l else (l.dropWhile (· != .sof)).drop 1
  if l.isEmpty ∨ (!more && !l.contains .sof) then none
  else
    let mine := start.takeWhile (fun s => !(s == .eof || s == .abort || s == .sof))
    let after := start.drop mine.length
    let fin := after.head?.filter (· != .sof)
    some (!more,
      { bytes := mine.filterMap Sym.byte?, last := fin.isSome
        codeErr := mine.any (fun s => s.byte?.isNone) || fin == some .abort, overRate := overRate },
      if fin.isSome then after.drop 1 else after)

/-- The tunnel port of a lane takes what its stream holds next (R168–R171): a frame's beginning with its K27.7 `bits` lane bits
after its lane's latest event, or more of the frame it receives. -/
def Dev.tunnelReceive (n bits : Nat) (overRate : Bool) (d : Dev) : Dev :=
  let p := 65 + n
  match tunnelSeg (d.current p).isSome overRate (d.rope n).rx.stream with
  | none => d.ropeRx n (fun x => { x with stream := [] })
  | some (first, seg, rest) =>
    let d1 := d.ropeRx n (fun x => { x with stream := rest })
    if first then d1.receiveFirst p bits false seg else d1.receiveMore p seg

/-! ### Rates, framing, the buffer -/

/-- The fixed latencies of a rate code in 1/65,536 ns, rounded to nearest: receive, transmit (R293, Table TBS-3). -/
def ropeFixed (r : Nat) : Nat × Nat :=
  let f := fun (ps : Nat) => (65536 * ps + 500) / 1000
  (f (nthD [81380, 48828, 32552, 24414] r 0), f (nthD [65104, 40690, 28483, 22380] r 0))

/-- The fixed parts of a tunnel port rewritten for its lane's rate (R293, R304). -/
def Dev.ropeLatency (n : Nat) (d : Dev) : Dev :=
  let f := ropeFixed (d.get (F.RLK_STATUS_rate n))
  (d.put (F.TBS_RX_FIXED (65 + n)) f.1).put (F.TBS_TX_FIXED (65 + n)) f.2

/-- A frozen buffer unfreezes (R162); `jump` says that a phase jump caused it. -/
def Dev.unfreeze (n : Nat) (jump : Bool) (d : Dev) : Dev :=
  let d0 := d.ropeRx n (fun x => { x with freq := 0, freezeDue := false })
  if !d.flag (F.RLK_STATUS_frozen n) then d0
  else
    let d1 := (d0.put (F.RLK_STATUS_frozen n) 0).put (F.RLK_RX_FILL_valid n) 0
    let d2 := (d1.fault (R.RLK_EVENT n) 5 E.RLK_UNFREEZE n).count (ropeCtr n 2) 1
    (d2.when jump (Dev.fault (R.RLK_EVENT n) 6 E.RLK_PHASE_JUMP n)).phxEval (64 + n)

/-- A buffer freezes (R161). -/
def Dev.freeze (n : Nat) (d : Dev) : Dev :=
  let x := (d.rope n).rx
  let d1 := ((d.ropeRx n (fun y => { y with freezeDue := false })).put (F.RLK_STATUS_frozen n) 1).wrap (F.RLK_STATUS_epoch n) 1
  let d2 := ((d1.put (F.RLK_RX_FILL_fill n) x.fill).put (F.RLK_RX_FILL_rx_slip n) x.slip).put (F.RLK_RX_FILL_valid n) 1
  (d2.event (R.RLK_EVENT n) 4).phxEval (64 + n)

/-- Frame lock is lost, and with it hyperframe lock (R153, R162). -/
def Dev.loseFraming (n : Nat) (d : Dev) : Dev :=
  let d1 := (d.put (F.RLK_STATUS_frame_lock n) 0).put (F.RLK_STATUS_hf_lock n) 0
  ((d1.unfreeze n false).ropeRx n (fun x => { x with goodK := 0, badK := 0, next := 0, stream := [], line := [] })).ropeLink n
    (fun x => { x with caps := 0, confirms := 0 })

/-- A lane runs at another rate (R144, R154, R156): its receiver seeks lock anew, its transmitter starts with negative running
disparity. -/
def Dev.ropeRate (n r : Nat) (d : Dev) : Dev :=
  if d.get (F.RLK_STATUS_rate n) = r then d
  else
    let d1 := (((d.loseFraming n).put (F.RLK_STATUS_rate n) r).event (R.RLK_EVENT n) 2).ropeLatency n
    d1.ropeTx n (fun x => { x with plus := false })

/-! ### Bring-up (Table RLK-5) -/

/-- A lane enters a state. -/
def Dev.ropeEnter (n s : Nat) (d : Dev) : Dev :=
  let old := d.ropeState n
  let d1 := d.when (old == Rlk.run && s != Rlk.run) (fun e =>
    (e.unfreeze n false).ropeTx n (fun x => { x with chunk := false }))
  let d2 := d1.put (F.RLK_STATUS_state n) s
  let d3 :=
    if s = Rlk.down then
      let e := (((d2.when (old != Rlk.down) (Dev.fault (R.RLK_EVENT n) 1 E.RLK_LINK_DOWN n)).put (F.RLK_CTRL_restart n) 0).ropeRate n
        0).loseFraming n
      e.ropeLink n (fun x => { x with excluded := 0, r := 0, target := 0, neg := 0, held := false })
    else if s = Rlk.sync then
      (d2.ropeRate n 0).ropeLink n (fun x => { x with r := 0, neg := 0 })
    else if s = Rlk.caps then
      d2.ropeLink n (fun x => { x with caps := 0, r := 0, neg := 0, maxRate := d2.get (F.RLK_CFG_max_rate n) })
    else if s = Rlk.step then d2.ropeLink n (fun x => { x with neg := 0, proposed := false, ackSeen := false })
    else if s = Rlk.run then
      ((d2.event (R.RLK_EVENT n) 0).regrid (64 + n)).ropeLink n (fun x => { x with neg := 4 })
    else d2.ropeLink n (fun x => { x with neg := 3, confirms := 0 })
  (d3.syncTunnel n).phxEval (64 + n)

/-- A lane in DOWN starts where it may. -/
def Dev.ropeStart (n : Nat) (d : Dev) : Dev :=
  let x := (d.rope n).link
  if d.ropeState n = Rlk.down ∧ d.ropeSends n ∧ x.signal ∧ !x.held ∧ !d.sec.extest then d.ropeEnter n Rlk.sync else d

/-- A lane goes to DOWN and starts again where it may. -/
def Dev.ropeRestart (n : Nat) (d : Dev) : Dev := (d.ropeEnter n Rlk.down).ropeStart n

/-- Signal is detected on a rope lane; on an enabled one it wakes PD_ROPE and the datapath (R154, R464). -/
def Dev.ropeSignal (n : Nat) (d : Dev) : Dev :=
  let d1 := d.ropeLink n (fun x => { x with signal := true })
  (d1.when (d1.blockPresent 13 && d1.flag (F.RLK_CFG_enable n)) (fun e => (e.wake 8).wakeDatapath)).ropeStart n

/-- Loss of signal for 100 µs. -/
def Dev.ropeSignalLoss (n : Nat) (d : Dev) : Dev :=
  let d1 := d.ropeLink n (fun x => { x with signal := false, cdr := false })
  if d1.ropeState n = Rlk.down then d1 else d1.ropeEnter n Rlk.down

/-- The CDR of a rope lane locks, or loses lock (R162). -/
def Dev.ropeCdr (n : Nat) (lock : Bool) (d : Dev) : Dev :=
  let d1 := d.ropeLink n (fun x => { x with cdr := lock })
  if lock then d1 else d1.loseFraming n

/-- The rates both ends offer and no confirmation excluded: the highest is T (R155, R158). RLK_CFG_n.max_rate counts as it stood at
the last CAPS (Table RLK-8). -/
def Dev.ropeTarget (d : Dev) (n : Nat) : Nat :=
  let own := 2 ^ ((d.rope n).link.maxRate + 1) - 1
  let partner := (d.word (R.RLK_PARTNER_CAP n)).toNat / 2 ^ 24
  (bitList 4 (own &&& partner)).foldl (fun t r => if hasBit (d.rope n).link.excluded r then t else max t r) 0

/-- A step's or a confirmation's end at rate `r` (Table RLK-5): STEP again below T, else RUN. -/
def Dev.ropeReached (n r : Nat) (d : Dev) : Dev :=
  (d.ropeLink n (fun x => { x with r := r })).ropeEnter n (if r < (d.rope n).link.target then Rlk.step else Rlk.run)

/-- The accepted negotiation word and header of a hyperframe drive the states (R155–R158, Table RLK-5). -/
def Dev.negotiate (n : Nat) (rate neg code : Nat) (d : Dev) : Dev :=
  let x := (d.rope n).link
  let s := d.ropeState n
  if s = Rlk.caps then
    if x.caps + 1 < 2 then d.ropeLink n (fun y => { y with caps := y.caps + 1 })
    else
      let t := d.ropeTarget n
      (d.ropeLink n (fun y => { y with caps := 0, target := t, r := 0 })).ropeEnter n (if 0 < t then Rlk.step else Rlk.run)
  else if s = Rlk.step then
    if code ≠ x.r + 1 ∨ (neg ≠ 1 ∧ neg ≠ 2) then d
    else d.ropeLink n (fun y => { y with proposed := true, ackSeen := y.ackSeen || neg == 2 })
  else if s = Rlk.confirm ∨ s = Rlk.fallback then
    let now := d.get (F.RLK_STATUS_rate n)
    if rate = now ∧ (neg = 3 ∨ neg = 4) then
      if x.confirms + 1 < 3 then d.ropeLink n (fun y => { y with confirms := y.confirms + 1 })
      else
        let e := d.ropeLink n (fun y => { y with confirms := 0 })
        if s = Rlk.fallback then e.ropeEnter n Rlk.run else e.ropeReached n now
    else d.ropeLink n (fun y => { y with confirms := 0 })
  else if s = Rlk.run ∧ d.get (F.RLK_STATUS_rate n) = 0 ∧ neg = 0 then d.ropeEnter n Rlk.caps
  else d

/-- The confirmation does not come (R157, R158): the rate is excluded. -/
def Dev.confirmTimeout (n : Nat) (d : Dev) : Dev :=
  if d.ropeState n ≠ Rlk.confirm then d
  else
    let d1 := d.ropeLink n (fun x => { x with excluded := orBit x.excluded (x.r + 1), target := x.r })
    ((d1.event (R.RLK_EVENT n) 3).ropeRate n (d.rope n).link.r).ropeEnter n Rlk.fallback

/-- Nor does the one at the old rate: DOWN for at least 10 ms. -/
def Dev.fallbackTimeout (n : Nat) (d : Dev) : Dev :=
  if d.ropeState n ≠ Rlk.fallback then d
  else
    (d.ropeEnter n Rlk.down).ropeLink n (fun x => { x with held := true })

/-- 20 hyperframes in STEP without the ack condition. -/
def Dev.stepTimeout (n : Nat) (d : Dev) : Dev :=
  if d.ropeState n ≠ Rlk.step then d
  else (d.ropeLink n (fun x => { x with target := x.r })).ropeEnter n Rlk.run

/-- The 10 ms in DOWN are over. -/
def Dev.downHoldExpiry (n : Nat) (d : Dev) : Dev :=
  if d.ropeState n ≠ Rlk.down then d else (d.ropeLink n (fun x => { x with held := false })).ropeStart n

/-- Hyperframe lock absent for 2 ms in RUN. -/
def Dev.runLockTimeout (n : Nat) (d : Dev) : Dev :=
  if d.ropeState n ≠ Rlk.run ∨ d.flag (F.RLK_STATUS_hf_lock n) then d else d.ropeEnter n Rlk.sync

/-! ### Received frames (R153, R159) -/

/-- What stands where a frame's K28.5 and its number are expected (Table RLK-3); no number where slot 1 holds no octet. -/
def frameHead (l : List Sym) : Bool × Option Nat := (nthD l 0 .invalid == .comma, (nthD l 1 .invalid).byte?.map (·.toNat))

/-- The code groups of a rope frame at a rate code (Table RLK-1). -/
def frameGroups (rate : Nat) : Nat := 256 * 2 ^ rate

/-- The control words of a hyperframe are discarded (R150): counted, with the event; a run of good hyperframes ends. -/
def Dev.discardWords (n : Nat) (d : Dev) : Dev :=
  ((d.sat (F.RLK_CW_ERR n) 1).fault (R.RLK_EVENT n) 7 E.RLK_CW_ERR n).ropeLink n (fun x => { x with caps := 0, confirms := 0 })

/-- Framing breaks (R150, R153): where the control words of a hyperframe were under way, or are spoiled, they are discarded. -/
def Dev.breakFraming (n : Nat) (d : Dev) : Dev :=
  let x := (d.rope n).rx
  let lost := d.flag (F.RLK_STATUS_hf_lock n) && decide (Rlk.caps ≤ d.ropeState n) && decide (1 ≤ x.next) &&
    (decide (x.next < 20) || x.badWords)
  (d.when lost (Dev.discardWords n)).loseFraming n

/-- The framing of a received frame: locks gained and lost. A slot 1 that holds no octet breaks no order (R150 discards its control
word). -/
def Dev.framing (n : Nat) (l : List Sym) (d : Dev) : Dev :=
  let x := (d.rope n).rx
  let next := (x.lastF + 1) % 240
  let comma := (frameHead l).1
  let seen := (frameHead l).2
  let number := seen.getD 240
  if d.flag (F.RLK_STATUS_frame_lock n) then
    if !comma then
      if x.badK + 1 < 3 then d.ropeRx n (fun y => { y with badK := y.badK + 1, lastF := next }) else d.breakFraming n
    else if seen.any (· != next) then d.breakFraming n
    else (d.ropeRx n (fun y => { y with badK := 0, lastF := next })).when (next == 0) (Dev.put (F.RLK_STATUS_hf_lock n) 1)
  else if !comma ∨ 240 ≤ number then d.ropeRx n (fun y => { y with goodK := 0 })
  else
    let good := if x.goodK ≠ 0 ∧ number = next then x.goodK + 1 else 1
    let d1 := d.ropeRx n (fun y => { y with goodK := good, badK := 0, lastF := number })
    if good < 3 then d1
    else (d1.put (F.RLK_STATUS_frame_lock n) 1).when (number == 0) (Dev.put (F.RLK_STATUS_hf_lock n) 1)

/-- The control word and the payload of a frame under frame lock (R146, R150, R160, R165, R168): four octets join the control words or
the management area, spoiled where the head of the frame held anything else than it should; the payload joins the tunnel's stream.
Every K28.0 is skipped, and in the payload every K23.7. With frame 0 the latest event of the lane is noted. -/
def Dev.takeSlots (n : Nat) (l : List Sym) (d : Dev) : Dev :=
  let word := (l.drop 2).take 4
  let clean := (frameHead l).1 && ((l.drop 1).take 5).all (fun s => s.byte?.isSome)
  let bytes := word.filterMap Sym.byte?
  let runs := d.portReady (65 + n)
  let more := if runs then (l.drop 7).filter (fun s => s != .filler && s != .idle) else []
  d.ropeRx n (fun x =>
    let f := x.lastF
    let y := if f = 0 then { x with zero := d.rxSfd (65 + n) 0, next := 1, words := bytes, area := [], badWords := !clean, badArea := false }
      else if x.next ≠ f then { x with next := 0 }
      else if f < 20 then { x with next := f + 1, words := x.words ++ bytes, badWords := x.badWords || !clean }
      else { x with next := f + 1, area := x.area ++ bytes, badArea := x.badArea || word.contains .invalid }
    { y with stream := (if runs then y.stream else []) ++ more })

/-- The elastic buffer of 64 code groups over a frame: the K28.0 it reads deleted or repeated until it freezes, the bounds of a frozen
one (R159, R162). -/
def Dev.elastic (n : Nat) (f : RopeFrame) (l : List Sym) (d : Dev) : Dev :=
  let x := (d.rope n).rx
  let fill := min 64 ((x.fill : Int) + f.drift).toNat
  let set := fun (v : Nat) (acted : Bool) (e : Dev) =>
    e.ropeRx n (fun y => { y with fill := v, filled := acted, slip := f.slip % 10 })
  if d.flag (F.RLK_STATUS_frozen n) then
    let d1 := set fill false d
    if fill ≤ 2 ∨ 62 ≤ fill then d1.unfreeze n false else d1
  else if !l.contains .filler then set fill false d
  else if 34 < fill then ((set (fill - 1) true d).wrap (F.RLK_FILL_EVT_deleted n) 1).count (ropeCtr n 1) 1
  else if fill < 30 then ((set (fill + 1) true d).wrap (F.RLK_FILL_EVT_repeated n) 1).count (ropeCtr n 1) 1
  else set fill false d

/-- N code groups of the line taken as a rope frame (R146, R153, R159): they are framed, a freeze that waited for this boundary comes
unless framing was lost at it (R163); framed, its slots are taken and the elastic buffer passes it on; hyperframe lock takes SYNC to
CAPS. -/
def Dev.ropeSlots (n : Nat) (f : RopeFrame) (l : List Sym) (d : Dev) : Dev :=
  let d1 := d.framing n l
  let d2 := if (d1.rope n).rx.freezeDue ∧ d1.ropeState n = Rlk.run then d1.freeze n else d1
  let d3 := if d2.flag (F.RLK_STATUS_frame_lock n) then (d2.takeSlots n l).elastic n f l else d2
  if d3.ropeState n = Rlk.sync ∧ d3.flag (F.RLK_STATUS_hf_lock n) then d3.ropeEnter n Rlk.caps else d3

/-- The symbols of a lane in order, `size` to a rope frame (R146, R153): under frame lock every `size` of them are one; without it the
receiver seeks a K28.5, and one that stands within the frame begun starts the search over. What makes no frame yet waits. -/
def Dev.ropeLine (n : Nat) (f : RopeFrame) (size : Nat) : Nat → List Sym → Dev → Dev
  | 0, line, d => d.ropeRx n (fun x => { x with line := line })
  | k + 1, line, d =>
    let seek := (line.drop 1).dropWhile (· != .comma)
    let early := seek != [] && decide (line.length < size + seek.length)
    if !d.flag (F.RLK_STATUS_frame_lock n) && line != [] && (line.head? != some .comma || early) then
      Dev.ropeLine n f size k seek (d.ropeRx n (fun x => { x with goodK := 0 }))
    else if line.length < size ∨ size = 0 then d.ropeRx n (fun x => { x with line := line })
    else Dev.ropeLine n f size k (line.drop size) (d.ropeSlots n f (line.take size))

/-- Code groups of a rope lane received (R144–R146, R153, R159): decoded, the invalid ones counted, and taken as rope frames of N code
groups at the lane's rate. -/
def Dev.ropeFrame (n : Nat) (f : RopeFrame) (d : Dev) : Dev :=
  if d.ropeState n = Rlk.down ∨ !d.ropeSends n then d
  else
    let (l, plus) := decodeGroups (d.rope n).rx.plus (invertGroups (d.flag (F.RLK_CFG_rx_invert n)) f.groups)
    let d0 := (d.sat (F.RLK_CODE_ERR n) (l.count .invalid)).ropeRx n (fun x => { x with plus := plus })
    let line := (d.rope n).rx.line ++ l
    d0.ropeLine n f (frameGroups (d.get (F.RLK_STATUS_rate n))) (line.length + 1) line

/-- The condition of R161 is met at a frame boundary: the buffer freezes, or at the next one where a filler action falls in
this frame (R163). -/
def Dev.bufferFreeze (n : Nat) (d : Dev) : Dev :=
  let x := (d.rope n).rx
  if d.ropeState n ≠ Rlk.run ∨ d.flag (F.RLK_STATUS_frozen n) ∨ x.freq < 4 ∨ !d.flag (F.RLK_STATUS_hf_lock n) then d
  else if x.filled then d.ropeRx n (fun y => { y with freezeDue := true })
  else d.freeze n

/-- The threshold of a phase jump in ps (R162, Table RLK-9). -/
def Dev.jumpTh (d : Dev) : Nat := max 20 (min 2000 (d.get F.RLK_JUMP_TH_thresh))

/-- The offset of the recovered clock over a hyperframe in 0.1 ppb, and its phase change in ps (R161–R163). -/
def Dev.offsetMeasure (n : Nat) (offset change : Int) (d : Dev) : Dev :=
  if d.ropeState n = Rlk.down ∨ !d.ropeSends n then d
  else
    let x := (d.rope n).rx
    let near := decide (offset.natAbs ≤ 100)
    let jump := match x.phase with | some p => decide (d.jumpTh < (change - p).natAbs) | none => false
    let d1 := (d.sput (F.RLK_OFFSET n) offset).put (F.RLK_STATUS_freq_lock n) (bit near)
    let counts := near && !jump && d1.flag (F.RLK_STATUS_hf_lock n)
    let d2 := d1.ropeRx n (fun y => { y with phase := some change, freq := if counts then y.freq + 1 else 0 })
    if jump then d2.unfreeze n true else d2

/-! ### Received hyperframes -/

/-- A hyperframe as its receiver has collected it: the bytes of words 0–19, whether slots 0–5 of their frames held nothing invalid,
the management area, whether it held no code error, and the instant in 1/65,536 ns at which the K28.5 of frame 0 left the elastic
buffer. -/
structure Hyperframe where
  words : List Byte
  clean : Bool
  area : List Byte
  areaClean : Bool
  arrival : Nat
  deriving DecidableEq, Repr, Inhabited

/-- A control word of four bytes as a number, byte 0 in bits 31:24. -/
def cw (bs : List Byte) (i : Nat) : Nat := octets bs (4 * i) 4

/-- A 12-byte time of the control words in 1/65,536 ns. -/
def cwTime (bs : List Byte) (i : Nat) : Nat := instant (octets bs (4 * i) 6) (octets bs (4 * i + 6) 4) (octets bs (4 * i + 10) 2)

/-- The grid phase of the partner, from the time at which its frame 0 leaves (R307). The words truncate that time, so a
remainder within two units of the one held is the same grid (log entry 29). -/
def Dev.partnerGrid (d : Dev) (k t : Nat) : Nat :=
  let g := d.gridPeriod k
  let new := t * gridUnits % g / gridUnits
  let old := d.get (F.PHX_PARTNER_GRID k)
  let whole := g / gridUnits + 1
  let apart := (new + whole - old % whole) % whole
  if apart ≤ 2 ∨ whole ≤ apart + 2 then old else new

/-- The accepted words of a hyperframe as PHX takes them (R309, R317): a report where both valid bits are 1. The epoch and the
mode of the partner do not travel in the words. -/
def Dev.ropeReport (n : Nat) (h : Hyperframe) (d : Dev) : Dev :=
  let k := 64 + n
  let w := h.words
  if d.ropeState n ≠ Rlk.run ∨ d.phxState k = Phx.off ∨ octet w 18 % 2 = 0 ∨ octet w 37 % 2 = 0 then d
  else
    let arr : Int := (h.arrival : Int) - d.rxDelay (65 + n)
    let tod := cwTime w 1
    d.phxAccept k arr.toNat
      { ident := octets w 56 8, port := 0, mode := 0, epoch := d.get (F.PHX_STATUS_partner_epoch k)
        grid := d.partnerGrid k tod, hops := octet w 17, follows := none
        m := (Sparse.get? (d.rope n).tx.sent (octet w 36)).map (fun t => (cwTime w 6 : Int) - t)
        coarse := arr - tod, asym := none }

/-- The management channel runs at a lane (R166). -/
def Dev.mgtOk (d : Dev) (n : Nat) : Bool :=
  d.ropeState n == Rlk.run && d.flag (F.RLK_CFG_mgt_en n) && (d.word (R.RLK_PARTNER_CAP n)).getLsbD 17

/-- A received management area (R165, R167). -/
def Dev.mgtReceive (n : Nat) (h : Hyperframe) (d : Dev) : Dev :=
  if !d.mgtOk n then d
  else
    let word := octets h.area 0 2
    let good := h.areaClean && h.area.length == 880 && ropeCrc (h.area.take 878) == octets h.area 878 2
    let drop := (d.sat (F.RLK_MGT_DROP n) 1).event (R.RLK_EVENT n) 9
    let count := d.get (F.RLK_MGT_RX_count n)
    if !good then drop
    else if word = 0 then d
    else if 876 < word % 1024 ∨ 4 ≤ count then drop
    else
      let k := (d.get (F.RLK_MGT_RX_head n) + count) % 4
      ((d.store (mgtBase + 0x2000 * n + 0x400 + 0x400 * k) h.area).put (F.RLK_MGT_RX_count n) (count + 1)).event (R.RLK_EVENT n) 8

/-- The words and the area of a hyperframe taken (R150, R155–R158, R165–R167, R317). Where its words are discarded its number is taken
as the last one's successor (DESIGN CHOICE, log 97). -/
def Dev.hyperframe (n : Nat) (h : Hyperframe) (d : Dev) : Dev :=
  let w := h.words
  let ok := h.clean && w.length == 80 && ropeCrc (w.take 76) == octets w 76 2 && octet w 0 == 1
  let d0 := d.count (ropeCtr n 0) 1
  let arr := d0.stampAt ((h.arrival : Int) - d0.rxDelay (65 + n)).toNat
  let d1 := d0.ropeRx n (fun x => { x with hyper := if ok then octet w 1 else (x.hyper + 1) % 256, arrival := arr })
  let d2 :=
    if !ok then d1.discardWords n
    else
      let e := ((d1.put (F.RLK_PARTNER_CAP n) (cw w 10)).put (F.RLK_PARTNER_ID_HI n) (cw w 14)).put (F.RLK_PARTNER_ID_LO n) (cw w 15)
      let e1 := (e.put (F.RLK_PARTNER_TS n) (cw w 4)).ropeRx n (fun x => { x with accepted := w })
      ((e1.negotiate n (octet w 2) (octet w 48) (octet w 49)).syncTunnel n).ropeReport n h
  d2.mgtReceive n h

/-- The instant at which frame 0 of the hyperframe came (R152, R289): its K28.5 stood `bits` lane bits after the event noted with
it. -/
def Dev.zeroArrival (d : Dev) (n bits : Nat) : Nat :=
  (d.rope n).rx.zero + (d.rxSfd (65 + n) bits - d.rxSfd (65 + n) 0)

/-- A hyperframe has arrived whole: what its 240 frames brought is taken, with the arrival of its frame 0, `bits` lane bits after the
lane's event in force then. -/
def Dev.hyperframeEnd (n bits : Nat) (d : Dev) : Dev :=
  let x := (d.rope n).rx
  if d.ropeState n < Rlk.caps ∨ !d.ropeSends n ∨ !d.flag (F.RLK_STATUS_hf_lock n) ∨ x.next ≠ 240 then d
  else
    (d.ropeRx n (fun y => { y with next := 0, words := [], area := [] })).hyperframe n
      { words := x.words, clean := !x.badWords, area := x.area, areaClean := !x.badArea, arrival := d.zeroArrival n bits }

/-! ### Sent hyperframes -/

/-- The negotiation at the start of an own hyperframe (R156): propose, acknowledge, and, the hyperframe before having gone
whole in state 2, switch. -/
def Dev.stepBoundary (n : Nat) (d : Dev) : Dev :=
  let x := (d.rope n).link
  if d.ropeState n ≠ Rlk.step then d
  else if x.neg = 0 then d.ropeLink n (fun y => { y with neg := 1, seq := (y.seq + 1) % 256 })
  else if x.neg = 1 then (if x.proposed then d.ropeLink n (fun y => { y with neg := 2 }) else d)
  else if x.ackSeen then (d.ropeRate n (x.r + 1)).ropeEnter n Rlk.confirm
  else d

/-- The state DPLL_T sends in word 4 (R148, R365). -/
def Dev.timeState (d : Dev) : Nat :=
  let s := d.dplState 0
  if s = Dpl.freerun then 0
  else if s = Dpl.acquire then 1
  else if s = Dpl.locked then 2
  else if d.flag (F.DPL_HO_STATUS_comp 0) then 4 else 3

/-- The capabilities a lane sends (R148): the rates up to the maximum that the last CAPS took (Table RLK-8). -/
def Dev.ownCaps (d : Dev) (n : Nat) : List Byte :=
  [BitVec.ofNat 8 (2 ^ ((d.rope n).link.maxRate + 1) - 1),
   BitVec.ofNat 8 (bit (d.flag (F.RLK_CFG_tunnel_en n)) + 2 * bit (d.flag (F.RLK_CFG_mgt_en n)) + 12), 1,
   BitVec.ofNat 8 (d.maxFrame (65 + n) / 64)]

/-- The rate code of word 12 (R148): the one proposed, acknowledged or confirmed, or in states 0 and 4 the one in use. -/
def Dev.negCode (d : Dev) (n : Nat) : Nat :=
  let x := (d.rope n).link
  if x.neg = 1 ∨ x.neg = 2 then x.r + 1 else d.get (F.RLK_STATUS_rate n)

/-- Word 5 (Table RLK-4): the UTC offset and the leap flags as they stand. -/
def Dev.utcWord (d : Dev) : List Byte :=
  let leap := bit (d.flag F.RLK_UTC_leap61) + 2 * bit (d.flag F.RLK_UTC_leap59)
  beBytes 2 (d.get F.RLK_UTC_offset) ++ [BitVec.ofNat 8 leap, 0]

/-- Words 6–9 (R152): the arrival and the number of the latest partner hyperframe received whole. -/
def Dev.arrivalWords (d : Dev) (n : Nat) : List Byte :=
  let x := (d.rope n).rx
  todBytes x.arrival.t ++ [BitVec.ofNat 8 x.hyper, BitVec.ofNat 8 (bit (d.timeReady && d.flag (F.RLK_STATUS_frozen n))), 0, 0]

/-- Words 0–18 of a hyperframe whose frame 0 leaves the balls at `t`, as they stand then (Table RLK-4). R151 names no instant for the
state, the hops and the valid bits of word 4 and for words 10 and 12: they too are as frame 0 starts (DESIGN CHOICE, log 83). -/
def Dev.hyperWords (d : Dev) (n t : Nat) : List Byte :=
  let x := d.rope n
  let zero := fun (k : Nat) => List.replicate k (0 : Byte)
  let flags := bit (d.flag (F.RLK_STATUS_tunnel_up n)) + 2 * bit (d.flag (F.RLK_STATUS_frozen n)) +
    4 * bit (d.flag (F.RLK_STATUS_freq_lock n))
  [1, BitVec.ofNat 8 x.tx.hyper, BitVec.ofNat 8 (d.get (F.RLK_STATUS_rate n)), 0] ++ todBytes t ++
  [BitVec.ofNat 8 d.timeState, BitVec.ofNat 8 (d.get F.PHX_CTRL_hops),
   BitVec.ofNat 8 (bit d.timeReady + 2 * bit (Config.traceable d.freshTime)), 0] ++
  d.utcWord ++ d.arrivalWords n ++ d.ownCaps n ++ zero 4 ++
  [BitVec.ofNat 8 x.link.neg, BitVec.ofNat 8 (d.negCode n), BitVec.ofNat 8 x.link.seq, BitVec.ofNat 8 flags] ++ zero 4 ++
  beBytes 8 d.identity ++ zero 12

/-- The management area of a hyperframe: the chunk of the transmit buffer, or an idle area (R165, R166). -/
def Dev.mgtArea (d : Dev) (n : Nat) (chunk : Bool) : List Byte :=
  let l := min 876 (d.get (F.RLK_MGT_TX_length n))
  let word := l + 2 ^ 14 * d.get (F.RLK_MGT_TX_first n) + 2 ^ 15 * d.get (F.RLK_MGT_TX_last n)
  let body := if chunk then beBytes 2 word ++ d.bytes (mgtBase + 0x2000 * n) l ++ List.replicate (876 - l) 0
    else List.replicate 878 0
  body ++ beBytes 2 (ropeCrc body)

/-- The transmitter starts a hyperframe whose K28.5 passes the frame boundary at `t` (R147–R152, R156, R166): its control words and
its management area. -/
def Dev.startHyperframe (n t : Nat) (d : Dev) : Dev :=
  let d1 := (d.stepBoundary n).ropeTx n (fun x => { x with hyper := (x.hyper + 1) % 256 })
  let left := ((t : Int) + d1.txDelay (65 + n)).toNat
  let chunk := d1.mgtOk n && d1.flag (F.RLK_MGT_TX_send n)
  (d1.ropeTx n (fun x => { x with
    sent := Sparse.put x.sent x.hyper left, chunk := chunk, words := d1.hyperWords n left, area := d1.mgtArea n chunk })).drawTime

/-- The control words as they stand when frame `f` takes its own: word 5 at frame 5 (R173), words 6–9 at frame 6 (R152), the header
check at frame 19. -/
def Dev.refreshWords (n f : Nat) (d : Dev) : Dev :=
  let put := fun (i : Nat) (bs : List Byte) (x : RopeTx) => { x with words := patch x.words i bs }
  if f = 5 then d.ropeTx n (put 20 d.utcWord)
  else if f = 6 then d.ropeTx n (put 24 (d.arrivalWords n))
  else if f = 19 then
    d.ropeTx n (fun x => { x with words := x.words.take 76 ++ beBytes 2 (ropeCrc (x.words.take 76)) ++ [0, 0] })
  else d

/-- The symbols of rope frame `f` (Table RLK-3): K28.5, the frame number, the control word, K28.0, and the payload, with K23.7 in
every slot that no symbol of a tunnel frame takes (R160, R168). -/
def frameSyms (rate f : Nat) (word : List Byte) (stream : List Sym) : List Sym :=
  let room := frameGroups rate - 7
  let payload := stream.take room
  [.comma, .data (BitVec.ofNat 8 f)] ++ word.map Sym.data ++ [.filler] ++ payload ++ List.replicate (room - payload.length) .idle

/-- The next rope frame leaves (R144–R148, R160, R166, R168); a hyperframe starts with frame 0, and a chunk is out with frame 239. A
transmitter that starts begins with frame 0 and negative running disparity. -/
def Dev.sendFrame (n t : Nat) (d : Dev) : Dev :=
  if !d.ropeSends n then d.ropeTx n (fun x => { x with runs := false, stream := [] })
  else
    let d0 := if (d.rope n).tx.runs then d else d.ropeTx n (fun x => { x with runs := true, plus := false, frame := 0 })
    let f := (d0.rope n).tx.frame % 240
    let d1 := if f = 0 then d0.startHyperframe n t else d0.refreshWords n f
    let x := (d1.rope n).tx
    let word := if f < 20 then slice x.words (4 * f) 4 else slice x.area (4 * (f - 20)) 4
    let rate := d1.get (F.RLK_STATUS_rate n)
    let (groups, plus) := encodeSyms x.plus (frameSyms rate f word x.stream)
    let d2 := d1.emit (.rope n (invertGroups (d1.flag (F.RLK_CFG_tx_invert n)) groups))
    let d3 := d2.ropeTx n (fun y => { y with plus := plus, frame := (f + 1) % 240, stream := y.stream.drop (frameGroups rate - 7) })
    if f = 239 ∧ x.chunk then (d3.put (F.RLK_MGT_TX_send n) 0).ropeTx n (fun y => { y with chunk := false }) else d3

/-- Rope frames leave one after the other; the first K28.5 passes the boundary `bits` lane bits after the last edge of the rope
reference (R151, R290), a frame lasts 6,250/3 ns (R146). -/
def Dev.sendFrames (n bits count : Nat) (d : Dev) : Dev :=
  Dev.each (List.range count) (fun i => Dev.sendFrame n (d.txSfd (65 + n) bits + i * 6250 * 65536 / 3)) d

/-! ### Writes -/

/-- RLK_MGT_TX_n written (R166). -/
def Dev.writeMgtTx (n : Nat) (w : Word) (d : Dev) : Dev :=
  if d.flag (F.RLK_MGT_TX_send n) then d.event (R.RLK_EVENT n) 10
  else
    (((d.put (F.RLK_MGT_TX_length n) (bits w 0 10)).put (F.RLK_MGT_TX_first n) (bits w 14 1)).put (F.RLK_MGT_TX_last n)
      (bits w 15 1)).put (F.RLK_MGT_TX_send n) (bits w 16 1)

/-- RLK_MGT_RX_n.pop written 1 (R167). -/
def Dev.mgtPop (n : Nat) (d : Dev) : Dev :=
  let c := d.get (F.RLK_MGT_RX_count n)
  if c = 0 then d else (d.put (F.RLK_MGT_RX_count n) (c - 1)).put (F.RLK_MGT_RX_head n) ((d.get (F.RLK_MGT_RX_head n) + 1) % 4)

/-- RLK_CFG_n changed (R154, R166, R169): a lane disabled goes down, one enabled starts; PD_ROPE wakes for it. -/
def Dev.ropeCfgChanged (n : Nat) (d : Dev) : Dev :=
  if !d.flag (F.RLK_CFG_enable n) then
    (if d.ropeState n = Rlk.down then d else d.ropeEnter n Rlk.down).ropeTx n (fun x => { x with runs := false, stream := [] })
  else ((d.wake 8).ropeStart n).syncTunnel n

end Sys2Proof.Machine
end

