-- ==== Sys2Proof/Machine/Belay.lean ====
section
/-! DEFINITION. Belay pairs (R405–R434, R453): messages of the belay link, roles, the interlock, announces, mirroring and
lockstep comparison. -/

namespace Sys2Proof.Machine

/-! ### Ranks and the link -/

/-- The device is a member (R405), and no reset holds its RDN unit (R433). -/
def Dev.isMember (d : Dev) : Bool := d.blockPresent 21 && !d.blockInReset 21 && !d.busy && d.flag F.RDN_CTRL_enable

/-- The role of the member. -/
def Dev.role (d : Dev) : Nat := d.get F.RDN_STATUS_role

/-- A rank as it acts: 0 acts as 15 (Table RDN-9). -/
def rankOf (r : Nat) : Nat := if r = 0 then 15 else r

/-- The mate's identity. -/
def Dev.mateId (d : Dev) : Nat := d.get F.RDN_MATE_ID_HI * 2 ^ 32 + d.get F.RDN_MATE_ID_LO

/-- The mate, of the given rank, ranks higher (R406). -/
def Dev.mateHigher (d : Dev) (rank : Nat) : Bool :=
  let own := rankOf (d.get F.RDN_CFG_rank)
  let mate := rankOf rank
  mate < own || (mate == own && d.mateId < d.identity)

/-- The lanes that carry belay messages (R411). -/
def Dev.belayLanes (d : Dev) : List Nat :=
  [14, 15].filter d.carriesBelay

/-- The member may not enter ACTIVE of its own accord (R409, R415), or could not drive ILK_N as it would (R408, R443). -/
def Dev.heldBack (d : Dev) : Bool :=
  d.flag F.RDN_CTRL_hold || d.flag F.RDN_STATUS_fault_lock || d.flag F.RDN_STATUS_holdoff || d.sec.extest

/-! ### Messages (R412, R413) -/

/-- A message sent on both lanes, in their payload slots (R411, R412, Table RDN-2); nothing is sent, and no sequence used, while the
link is down. -/
def Dev.sendBelay (ty : Nat) (body : List Byte) (d : Dev) : Dev :=
  if d.belayLanes = [] then d
  else
    let seq := (d.belay.seq + 1) % 2 ^ 32
    let head := [BitVec.ofNat 8 ty, 1] ++ beBytes 2 body.length ++ beBytes 4 seq ++ body
    let d1 := { d with belay := { d.belay with seq := seq } }
    (Dev.each d1.belayLanes (fun n e => (e.emit (.belay n (head ++ fcs head))).tunnelOut n (head ++ fcs head) true) d1).count (devCtr 3) 1

/-- A rejected message or update is counted (R405, R413, R426). -/
def Dev.msgError (d : Dev) : Dev := (d.sat F.RDN_MSG_ERR 1).event R.RDN_EVENT 13

/-- The body length of a message type; a MIRROR's follows from its memory (Tables RDN-3 and RDN-7, R453). -/
def belayLen (ty : Nat) (body : List Byte) : Option Nat :=
  match ty with
  | 1 => some 24
  | 2 => some 12
  | 3 => some (12 + nthD [64, 128, 16, 16, 4, 32, 72] (octet body 4) 0)
  | 4 => some 16
  | 5 => some 4
  | _ => none

/-- A message of type `ty` received on a lane: the body of an accepted one, and the device with its counts. `clean` says that
its delimiters were correct and no code group was invalid. -/
def Dev.takeBelay (ty : Nat) (bs : List Byte) (clean : Bool) (d : Dev) : Option (List Byte) × Dev :=
  if !d.isMember ∨ d.belayLanes = [] then (none, d)
  else
    let n := bs.length
    let body := slice bs 8 (n - 12)
    let ident := if ty = 1 then octets body 4 8 else octets body 0 8
    let ok := clean && decide (12 ≤ n) && fcsOk bs && octet bs 0 == ty && octet bs 1 == 1 && octets bs 2 2 + 12 == n &&
      belayLen ty body == some body.length && ((ty != 1 && ty != 2) || ident == d.mateId) &&
      (ty != 3 || decide (octet body 4 ≤ 6))
    let seq := octets bs 4 4
    if !ok then (none, d.msgError)
    else if d.belay.heard.contains seq then (none, d)
    else
      let d1 := { d with belay := { d.belay with heard := (seq :: d.belay.heard).take 16 } }
      (some body, d1.count (devCtr 4) 1)

/-! ### The resync walk and the mirror queue (R424–R428) -/

/-- The byte and the bit of the mate flag within an entry of a mirrored memory (Table RDN-7). -/
def mateAt (code : Nat) : Nat × Nat := nthD [(62, 3), (126, 3), (7, 5), (11, 1), (1, 1), (10, 3), (2, 3)] code (0, 0)

/-- The entries with their mate flag set at or above an address, in address order: those of the memories as they lie. -/
def Dev.flagged (d : Dev) (from_ : Nat) : List (Nat × Nat) :=
  d.mem.filterMap (fun c =>
    ((List.range 7).findSome? (fun m =>
      match mirrored m with
      | some (base, size, count) =>
        if base ≤ c.1 ∧ c.1 < base + size * count ∧ (c.1 - base) % size = (mateAt m).1 ∧ c.2.getLsbD (mateAt m).2 then
          some (c.1 - (mateAt m).1, m)
        else none
      | none => none)).filter (fun e => decide (from_ ≤ e.1)))

/-- The end of the address space (Table HIF-2). -/
abbrev memEnd : Nat := 2 ^ 28

/-- The walk goes on queueing while the queue holds fewer than 2,048 addresses; half the queue is left to updates
(log entry 30). An association is passed over without a pair key, with mirror_nokey (R453). -/
def Dev.walkFeed (d : Dev) : Dev :=
  if !d.belay.walking then d
  else
    let room := 2048 - d.belay.queue.length
    let all := d.flagged d.belay.walkAt
    let keyed := all.filter (fun e => e.2 != 6 || d.flag F.SEC_STATUS_pair_key)
    let next := keyed.take room
    let new := (next.map (·.1)).filter (fun a => !d.belay.queue.contains a)
    -- all read, or up to the last entry there was room for
    let at_ := if keyed.length ≤ room then memEnd else match next.getLast? with | some e => e.1 + 1 | none => d.belay.walkAt
    let passed := all.filter (fun e => decide (e.1 < at_))
    (({ d with belay := { d.belay with walkAt := at_ } }).setMirrorQ (d.belay.queue ++ new)).when
      (passed.any (fun e => e.2 == 6) && !d.flag F.SEC_STATUS_pair_key) (Dev.event R.SEC_EVENT 7)

/-- A walk starts, or starts over (R427). The standby is not in step until it says so. -/
def Dev.startWalk (d : Dev) : Dev :=
  if !d.isActive then d
  else
    let d1 := d.put F.RDN_STATUS_synced 0
    ({ d1 with belay := { d1.belay with walking := true, walkAt := 0, walkDue := false } }).walkFeed

/-- A walk that has queued everything, with its last update sent, ends (R427). -/
def Dev.walkEnd (d₀ : Dev) : Dev :=
  let d := d₀.when d₀.isActive Dev.walkFeed
  if !d.isActive ∨ !d.belay.walking ∨ d.belay.queue ≠ [] ∨ d.flagged d.belay.walkAt ≠ [] ∨ d.belayLanes = [] then d
  else ({ d with belay := { d.belay with walking := false } }).sendBelay 5 (beBytes 4 d.belay.mirrorSeq)

/-- SEC_PAIR_KEY as a number, word 0 lowest. -/
def Dev.pairKey (d : Dev) : Nat :=
  ((List.range 8).map (fun i => (d.word (R.SEC_PAIR_KEY i)).toNat * 2 ^ (32 * i))).sum

/-- The mirrored memory that holds an entry address. -/
def mirrorCode (a : Nat) : Option Nat :=
  (List.range 7).find? (fun m =>
    match mirrored m with
    | some (base, size, count) => decide (base ≤ a) && decide (a < base + size * count)
    | none => false)

/-- The bytes of an update (Table RDN-7, R453). -/
def Dev.mirrorBytes (d : Dev) (code a : Nat) : List Byte :=
  if code = 4 then d.bytes a 4
  else if code = 6 then d.bytes a 32 ++ keyWrap (leBytes 32 d.pairKey) (d.bytes (a + 32) 32)
  else
    match mirrored code with
    | some (_, size, _) => d.bytes a size
    | none => []

/-- An update leaves the queue as a MIRROR, with its entry as it stands (R424, R425, R429). -/
def Dev.mirrorSend (d : Dev) : Dev :=
  match d.belay.queue with
  | [] => d
  | a :: rest =>
    if !d.isActive ∨ d.belayLanes = [] ∨ d.flag F.RDN_STATUS_img_mismatch then d
    else
      match mirrorCode a with
      | none => d.setMirrorQ rest
      | some m =>
        let seq := (d.belay.mirrorSeq + 1) % 2 ^ 32
        let body := beBytes 4 a ++ [BitVec.ofNat 8 m, 0, 0, 0] ++ beBytes 4 seq ++ d.mirrorBytes m a
        let d1 := (d.setMirrorQ rest).sendBelay 3 body
        let d2 := ({ d1 with belay := { d1.belay with mirrorSeq := seq } }).wrap F.RDN_MIR_SENT 1
        (d2.when (d2.belay.walkDue && decide (rest.length ≤ 2048)) Dev.startWalk).walkFeed

/-! ### Role states (Table RDN-4) -/

/-- The ports of a member that comes to stand by drop their copies with reason 0x38 (Table RDN-1). -/
def Dev.standDown (d : Dev) : Dev := Dev.each ((List.range 81).filter d.standsBy) (fun p e => e.flushPort p 0x38) d

/-- The receive side starts over: no mirror sequence is known of the new sender. -/
def Dev.mirrorBase (d : Dev) : Dev :=
  { d with belay := { d.belay with rxMirror := none, resyncReq := false, reqSent := false } }

/-- The interlock is driven or released (R408–R410); during EXTEST the ball carries scan data (R443). -/
def Dev.driveIlk (on : Bool) (d : Dev) : Dev := d.put F.RDN_STATUS_ilk_drive (bit (on && !d.sec.extest))

/-- The frames partly received on belay-controlled ports are dropped (Table RDN-6). -/
def Dev.dropPartial (p : Nat) (d : Dev) : Dev :=
  match d.current p with
  | some i => if (d.frame? i).isSome ∧ !(d.frame i).windowed then (d.setCurrent p none).dropAtIngress i 0x38 else d
  | none => d

/-- The expected sequence of every enabled eCPRI context is forgotten (R422). -/
def Dev.clearSequences (d : Dev) : Dev :=
  Dev.each (List.range 4096) (fun n e =>
    let w := e.dword (ctxAddr n)
    if field w 31 1 = 1 ∧ field w 8 1 = 1 then e.storeDword (ctxAddr n) (w - 256) else e) d

/-- The member enters ACTIVE (R422, R427, Table RDN-6). -/
def Dev.enterActive (d : Dev) : Dev :=
  let ports := (List.range 81).filter d.belayPort
  let d1 := ((d.put F.RDN_STATUS_role Role.active).driveIlk (d.flag F.RDN_CFG_ilk_en)).event R.RDN_EVENT 0
  let d2 := Dev.each ports (fun p e => (e.skIdlePort p).dropPartial p) d1.clearSequences
  let d3 := d2.mirrorBase
  if d3.flag F.RDN_STATUS_mate_ok then d3.startWalk else d3

/-- The member leaves ACTIVE for `next` (R410, R416); a reason is recorded where the exit has one. -/
def Dev.leaveActive (next : Nat) (reason : Option Nat) (d : Dev) : Dev :=
  let d1 := ((d.put F.RDN_STATUS_role next).driveIlk false).event R.RDN_EVENT 1
  let d2 := match reason with | some r => d1.put F.RDN_STATUS_last_yield r | none => d1
  let d3 := ((d2.put F.RDN_STATUS_holdoff 1).put F.RDN_STATUS_synced 0).put F.RDN_CTRL_switchover 0
  ((({ d3 with belay := { d3.belay with walking := false, walkDue := false, dual := false, annDue := [] } }).setMirrorQ []).mirrorBase
    ).standDown

/-- The body of a YIELD (Table RDN-3). -/
def Dev.yieldBody (d : Dev) (reason : Nat) : List Byte := beBytes 8 d.identity ++ [BitVec.ofNat 8 reason, 0, 0, 0]

/-- The states that need no event of their own: OFF, STANDBY, GUARD, and promotion where its conditions stand (Table RDN-4). -/
def Dev.rdnEval (d : Dev) : Dev :=
  if !d.blockPresent 21 then d
  else if !d.flag F.RDN_CTRL_enable ∨ !d.flag F.TOP_READY_img ∨ d.blockInReset 21 then
    let d1 := if d.role = Role.active then d.leaveActive Role.off none else (d.put F.RDN_STATUS_role Role.off).driveIlk false
    if d.flag F.RDN_CTRL_enable then d1 else d1.put F.RDN_STATUS_mate_ok 0
  else
    let d1 := if d.role = Role.off then (d.put F.RDN_STATUS_role Role.standby).standDown else d
    let b := d1.belay
    if d1.role = Role.standby ∧ !d1.flag F.RDN_CFG_ilk_en then
      if d1.flag F.RDN_STATUS_mate_ok then
        let yields := b.mateHold || b.mateFault || b.mateHoldoff
        if !d1.heldBack ∧ d1.get F.RDN_STATUS_mate_role ≠ Role.active ∧ (!d1.mateHigher (d1.get F.RDN_STATUS_mate_rank) ∨ yields) then
          d1.enterActive
        else d1
      else
        let d2 := d1.put F.RDN_STATUS_role Role.guard
        { d2 with belay := { d2.belay with guardDone := false } }
    else if d1.role = Role.guard ∧ b.guardDone ∧ !d1.heldBack then d1.enterActive
    else d1

/-- The member yields: a YIELD with its reason goes out, and it stands by (R415, R416). -/
def Dev.yieldNow (reason : Nat) (d : Dev) : Dev :=
  if d.role ≠ Role.active then d
  else ((d.sendBelay 2 (d.yieldBody reason)).leaveActive Role.standby (some reason)).rdnEval

/-- Both members report fault_lock (R418). -/
def Dev.bothFaulted (d : Dev) : Dev :=
  let both := d.flag F.RDN_STATUS_fault_lock && d.belay.mateFault
  let d1 := d.when (both && !d.belay.both) (Dev.fault R.RDN_EVENT 12 E.RDN_BOTH_FAULTED 0)
  { d1 with belay := { d1.belay with both := both } }

/-- The fault reaction of belay yield (R503, Table RDN-4): fault_lock sets in every role, an ACTIVE member yields. -/
def Dev.faultYield (d : Dev) : Dev :=
  if !d.isMember then d else ((d.put F.RDN_STATUS_fault_lock 1).yieldNow 1).bothFaulted

/-- Dual activity shown by a HEARTBEAT or an announce (R415, R421): its event at the first that shows it. -/
def Dev.dualActive (rank : Nat) (d : Dev) : Dev :=
  if d.role ≠ Role.active then d
  else
    let d0 := if d.belay.dual then d else d.fault R.RDN_EVENT 4 E.RDN_DUAL_ACTIVE 0
    let d1 := { d0 with belay := { d0.belay with dual := true } }
    if d1.mateHigher rank then d1.yieldNow 2 else d1

/-! ### Heartbeats and yields -/

/-- The body of a HEARTBEAT (Table RDN-3). -/
def Dev.heartbeatBody (d : Dev) : List Byte :=
  let flags := bit (d.flag F.RDN_CFG_ilk_en) + 2 * bit (d.flag F.RDN_STATUS_synced) + 4 * bit d.belay.resyncReq +
    8 * bit (d.flag F.RDN_CTRL_hold) + 16 * bit (d.flag F.RDN_STATUS_fault_lock) + 32 * bit (d.flag F.RDN_STATUS_holdoff)
  [BitVec.ofNat 8 d.role, BitVec.ofNat 8 (d.get F.RDN_CFG_rank), BitVec.ofNat 8 flags, 0] ++ beBytes 8 d.identity ++
    beBytes 4 (d.word (R.IMG_HASH 0)).toNat ++ beBytes 4 d.belay.inOrder ++ List.replicate 4 0

/-- The 8 µs period: the own HEARTBEAT, and the count of periods without the mate's (R414, Table RDN-9). -/
def Dev.heartbeatSend (d : Dev) : Dev :=
  if !d.isMember then d
  else
    let d1 := d.when (!d.belay.hbHeard) (Dev.sat F.RDN_HB_MISS 1)
    let d2 := { d1 with belay := { d1.belay with hbHeard := false, reqSent := d1.belay.reqSent || d1.belay.resyncReq } }
    d2.sendBelay 1 d2.heartbeatBody

/-- cfg_mismatch and img_mismatch as a HEARTBEAT shows them (R429). -/
def Dev.mismatches (ilk : Bool) (tag : Nat) (d : Dev) : Dev :=
  let cfg := ilk != d.flag F.RDN_CFG_ilk_en
  let img := tag != (d.word (R.IMG_HASH 0)).toNat
  let d1 := (d.put F.RDN_STATUS_cfg_mismatch (bit cfg)).when cfg (Dev.event R.RDN_EVENT 10)
  let rose := img && !d.flag F.RDN_STATUS_img_mismatch
  let d2 := (d1.put F.RDN_STATUS_img_mismatch (bit img)).when img (Dev.event R.RDN_EVENT 11)
  (d2.when rose (Dev.raise E.RDN_IMG_MISMATCH 0)).when img (Dev.put F.RDN_STATUS_synced 0)

/-- What the ACTIVE member takes from the flags of the standby: its synced, and a call for a walk (R427, R428). -/
def Dev.takeSynced (flags : Nat) (found : Bool) (d : Dev) : Dev :=
  if d.role ≠ Role.active then d
  else if found ∨ hasBit flags 2 then d.startWalk
  else if d.belay.walking ∨ d.belay.walkDue ∨ d.flag F.RDN_STATUS_img_mismatch then d
  else
    let now := hasBit flags 1
    (d.when (now && !d.flag F.RDN_STATUS_synced) (Dev.event R.RDN_EVENT 8)).put F.RDN_STATUS_synced (bit now)

/-- What a member that is not ACTIVE takes from the flags of the ACTIVE one: a walk starts as the mate is found or turns ACTIVE, or
where the synced the mate reports falls, unless a RESYNC_DONE came since its last HEARTBEAT (R427, R428; log 97). -/
def Dev.walkSeen (flags : Nat) (begins : Bool) (d : Dev) : Dev :=
  let fell := d.belay.mateSynced && !hasBit flags 1 && !d.belay.doneSince
  let d1 := d.when (d.role != Role.active && (begins || fell)) (Dev.put F.RDN_STATUS_synced 0)
  { d1 with belay := { d1.belay with mateSynced := hasBit flags 1, doneSince := false } }

/-- A HEARTBEAT received (R413–R415, R427–R429). -/
def Dev.heartbeatReceive (bs : List Byte) (clean : Bool) (d : Dev) : Dev :=
  match d.takeBelay 1 bs clean with
  | (none, d0) => d0
  | (some body, d0) =>
    let role := octet body 0 % 4
    let rank := octet body 1
    let flags := octet body 2
    let found := !d0.flag F.RDN_STATUS_mate_ok
    let turned := role == Role.active && d0.get F.RDN_STATUS_mate_role != Role.active
    let d1 := ((d0.put F.RDN_STATUS_mate_ok 1).when found (Dev.event R.RDN_EVENT 3)).put F.RDN_STATUS_mate_role role
    let d2 := d1.put F.RDN_STATUS_mate_rank rank
    let d3 := { d2 with belay := { d2.belay with
      hbHeard := true, dual := d2.belay.dual && role == Role.active, mateHold := hasBit flags 3, mateFault := hasBit flags 4, mateHoldoff := hasBit flags 5 } }
    let d4 := (d3.mismatches (hasBit flags 0) (octets body 12 4)).bothFaulted
    let known := fun (e : Dev) => { e with belay := { e.belay with rxMirror := none } }
    let d5 := ((d4.when (found && d4.role != Role.active) known).when (turned && d4.role != Role.active) Dev.mirrorBase).walkSeen flags
      (found || turned)
    let d6 := if d5.role = Role.guard then d5.put F.RDN_STATUS_role Role.standby else d5
    let d7 := if role = Role.active then d6.dualActive rank else d6
    (d7.takeSynced flags found).rdnEval

/-- The mate is lost (R414). -/
def Dev.mateLost (d : Dev) : Dev :=
  if !d.flag F.RDN_STATUS_mate_ok then d
  else ((d.put F.RDN_STATUS_mate_ok 0).fault R.RDN_EVENT 2 E.RDN_MATE_LOST 0).rdnEval

/-- The always-on logic releases ILK_N because the RDN unit, while ACTIVE, missed two heartbeats (R408, R410): the member is no
longer ACTIVE, and it sends nothing. -/
def Dev.heartbeatMissRelease (d : Dev) : Dev :=
  if d.role ≠ Role.active ∨ !d.flag F.RDN_STATUS_ilk_drive then d else (d.leaveActive Role.standby none).rdnEval

/-- A YIELD received (Table RDN-4). -/
def Dev.yieldReceive (bs : List Byte) (clean : Bool) (d : Dev) : Dev :=
  match d.takeBelay 2 bs clean with
  | (none, d0) => d0
  | (some _, d0) =>
    if d0.role = Role.standby ∧ !d0.flag F.RDN_CFG_ilk_en ∧ !d0.heldBack then d0.enterActive else d0

/-! ### Mirroring at the standby (R426, R428, R453) -/

/-- The mirror sequence of an accepted MIRROR: in order, or a gap that calls for a walk. -/
def Dev.mirrorOrder (seq : Nat) (d : Dev) : Dev :=
  let b := d.belay
  let ok := match b.rxMirror with | some r => seq == (r + 1) % 2 ^ 32 | none => true
  if ok then
    let done := b.resyncReq && b.reqSent
    let gap := b.resyncReq && !done
    { d with belay := { b with rxMirror := some seq, resyncReq := gap, reqSent := b.reqSent && !done
                               inOrder := if gap then b.inOrder else seq } }
  else
    let d1 := d.put F.RDN_STATUS_synced 0
    { d1 with belay := { b with rxMirror := some seq, resyncReq := true, reqSent := false } }

/-- The entry of an update written as a host write of the whole entry would, of a context dword 0 alone (R90, R426); or the update
discarded, and counted where its memory is absent. -/
def Dev.mirrorWrite (a code : Nat) (bytes : List Byte) (d : Dev) : Dev :=
  match cellAt a with
  | none => d.msgError
  | some c =>
    if c.base ≠ a ∨ c.area.mirror ≠ some code ∨ !d.cellPresent c then d.msgError
    else if !d.domainOn c.area.domain ∨ d.busy ∨ (c.area.page = 16 ∧ !d.flag F.TOP_READY_fwd) then d
    else
      let content := if code = 6 then
          (keyUnwrap (leBytes 32 d.pairKey) (bytes.drop 32)).map (fun k => bytes.take 32 ++ k)
        else some bytes
      match content with
      | none => d.msgError
      | some bs =>
        let dword := fun (k : Nat) => BitVec.ofNat 32 (leNat (slice bs (4 * k) 4))
        let d1 := if bs.length < c.size then
            ({ d with parity := d.parity.filter (· != c.base) }).putDword c a (dword 0)
          else
            let held := (List.range (c.size / 4 - 1)).foldl (fun m k => Sparse.put m (a + 4 * k) (dword k)) d.host.entry
            ({ d with host := { d.host with entry := held } }).commitEntry c (a + c.size - 4) (dword (c.size / 4 - 1))
        d1.wrap F.RDN_MIR_RCVD 1

/-- A MIRROR received. -/
def Dev.mirrorReceive (bs : List Byte) (clean : Bool) (d : Dev) : Dev :=
  match d.takeBelay 3 bs clean with
  | (none, d0) => d0
  | (some body, d0) =>
    if d0.role = Role.active then d0
    else (d0.mirrorOrder (octets body 8 4)).mirrorWrite (octets body 0 4) (octet body 4) (body.drop 12)

/-- A RESYNC_DONE received: in step, where every update up to the one it names came in order; else there is a gap, which calls for a
walk (R428, R429). -/
def Dev.resyncDone (bs : List Byte) (clean : Bool) (d : Dev) : Dev :=
  match d.takeBelay 5 bs clean with
  | (none, d0) => d0
  | (some body, d0) =>
    if d0.role = Role.active then d0
    else
      let b := d0.belay
      let last := octets body 0 4
      let waits := b.resyncReq && !b.reqSent
      -- before the first MIRROR of this sender only the sequence 0 names none that should have come
      let known := b.rxMirror.getD 0 == last
      let d1 := { d0 with belay := { b with rxMirror := some last, resyncReq := waits || !known, reqSent := false, doneSince := true } }
      let d2 := d1.when (!known) (Dev.put F.RDN_STATUS_synced 0)
      if known ∧ !waits ∧ !d2.flag F.RDN_STATUS_img_mismatch then (d2.put F.RDN_STATUS_synced 1).event R.RDN_EVENT 8 else d2

/-! ### Lockstep (R430–R432) -/

/-- The candidate code of DPLL_T's followed slot; 0xFF where it follows none (log entry 31). -/
def Dev.followedCand (d : Dev) : Nat := (d.followsCand 0).getD 0xFF

/-- A DPLL_STATE sent (Table RDN-3). -/
def Dev.dpllStateSend (d : Dev) : Dev :=
  if !d.isMember then d
  else d.sendBelay 4 ([BitVec.ofNat 8 (d.dplState 0), BitVec.ofNat 8 (d.dplState 1),
    BitVec.ofNat 8 (d.get (F.DPL_STATUS_slot_valid 0)), BitVec.ofNat 8 d.followedCand] ++
    beBytes 4 (d.word (R.DPL_STEER 0)).toNat ++ beBytes 4 (d.word (R.DPL_STEER 1)).toNat ++ List.replicate 4 0)

/-- The divergence threshold in ps (Table RDN-9). -/
def Dev.divTh (d : Dev) : Nat := max 20 (min 2000 (d.get F.RDN_DIV_TH))

/-- The comparison of the two time bases (R431). -/
def Dev.compareTimes (d : Dev) : Dev :=
  match [78, 79].find? (fun k => d.phxState k == Phx.track) with
  | none =>
    let n := d.belay.invalid + 1
    let d1 := d.put F.RDN_STATUS_cmp_valid 0
    ({ d1 with belay := { d1.belay with invalid := n } }).when (n == 4) (Dev.event R.RDN_EVENT 9)
  | some k =>
    let o := d.pairInt (R.PHX_OFFSET_LO k) (R.PHX_OFFSET_HI k)
    let d1 := (d.put F.RDN_STATUS_cmp_valid 1).sput F.RDN_DIV_LAST o
    ({ d1 with belay := { d1.belay with invalid := 0 } }).when (decide (d.divTh * 65536 < 1000 * o.natAbs))
      (Dev.fault R.RDN_EVENT 5 E.RDN_DIVERGE 0)

/-- A DPLL_STATE received (R431, R432). -/
def Dev.dpllStateReceive (bs : List Byte) (clean : Bool) (d : Dev) : Dev :=
  match d.takeBelay 4 bs clean with
  | (none, d0) => d0
  | (some body, d0) =>
    let d1 := d0.compareTimes
    let differs := octet body 0 != d1.dplState 0 || octet body 3 != d1.followedCand
    let n := if differs then d1.belay.differs + 1 else 0
    ({ d1 with belay := { d1.belay with differs := n } }).when (decide (2 ≤ n)) (Dev.fault R.RDN_EVENT 6 E.RDN_DPLL_MISMATCH 0)

/-! ### The interlock and the timers -/

/-- The filtered level of ILK_N changes (R408). -/
def Dev.ilkChange (level : Bool) (d : Dev) : Dev := d.put F.RDN_STATUS_ilk_level (bit level)

/-- A standby has seen the line high for rank × 2 µs and claims it (R409). -/
def Dev.ilkClaim (d : Dev) : Dev :=
  if d.blockPresent 21 ∧ d.role = Role.standby ∧ d.flag F.RDN_CFG_ilk_en ∧ d.flag F.RDN_STATUS_ilk_level ∧ !d.heldBack then
    d.enterActive
  else d

/-- The guard timer runs out (Table RDN-4). -/
def Dev.guardExpiry (d : Dev) : Dev :=
  if d.role ≠ Role.guard then d else ({ d with belay := { d.belay with guardDone := true } }).rdnEval

/-- The holdoff ends (R416); after a warm reset it starts at the reset's end (R433). -/
def Dev.holdoffExpiry (d : Dev) : Dev := if d.blockPresent 21 && !d.busy then (d.put F.RDN_STATUS_holdoff 0).rdnEval else d

/-- RDN_CTRL.switchover written 1 (R417). -/
def Dev.switchover (d : Dev) : Dev :=
  let b := d.belay
  let ok := d.role == Role.active && d.flag F.RDN_STATUS_mate_ok && d.get F.RDN_STATUS_mate_role == Role.standby &&
    d.flag F.RDN_STATUS_synced && !b.mateHold && !b.mateFault && !b.mateHoldoff
  if ok then d.put F.RDN_CTRL_switchover 1
  else if d.flag F.RDN_CTRL_switchover then d
  else d.event R.RDN_EVENT 14

/-- The first cycle of an accepted switchover in which the mirror queue is empty (R417). -/
def Dev.switchoverYield (d : Dev) : Dev :=
  if d.flag F.RDN_CTRL_switchover ∧ d.belay.queue = [] then d.yieldNow 0 else d

/-- RDN_CTRL.clear_fault written 1 (R418). -/
def Dev.clearFault (d : Dev) : Dev := ((d.put F.RDN_STATUS_fault_lock 0).bothFaulted).rdnEval

/-! ### Announces (R419–R421) -/

/-- The announce of the member (R419). -/
def Dev.announceBytes (d : Dev) : List Byte :=
  let body := beBytes 6 d.annDa ++ beBytes 6 d.phxSa ++ [0x88, 0xB5, 0x81, 3, BitVec.ofNat 8 (d.get F.RDN_CFG_rank),
    BitVec.ofNat 8 (bit (d.flag F.RDN_CFG_ilk_en))] ++ beBytes 8 d.identity ++ beBytes 4 d.belay.annSeq ++ List.replicate 30 0
  body ++ fcs body

/-- The announce that waits on a port leaves if the port stands at a frame boundary and it fits the gap, as a report does (R313, R419).
The flag says that it left. -/
def Dev.announceLeave (p : Nat) (d : Dev) : Bool × Dev :=
  match Sparse.get? d.belay.annDue p with
  | none => (false, d)
  | some bs =>
    let gone := { d with belay := { d.belay with annDue := Sparse.del d.belay.annDue p } }
    if !d.isActive ∨ !d.portReady p then (false, gone)
    else if (d.sendingOn p).isSome ∨ !d.fitsGap p (bs.length + d.secLen p bs) then (false, d)
    else (true, gone.insertFrame p bs)

/-- The 16 µs of an ACTIVE member (R133, R419): an announce falls due on every belay-controlled port that has link, in place of one
that still waits, and leaves at once or waits for a frame boundary. -/
def Dev.announceSend (d : Dev) : Dev :=
  if !d.isActive then d
  else
    let ports := (List.range 81).filter (fun p => p != 64 && d.belayPort p && d.portPresent p && d.portReady p)
    let one := fun (p : Nat) (e : Dev) =>
      (({ e with belay := { e.belay with annDue := Sparse.put e.belay.annDue p d.announceBytes } }.leaveL1 p).announceLeave p).2
    let d1 := Dev.each ports one d
    { d1 with belay := { d1.belay with annSeq := (d1.belay.annSeq + 1) % 2 ^ 32 } }

/-- An announce consumed on a port. -/
def Dev.announceReceive (bs : List Byte) (d : Dev) : Dev :=
  if !d.isAnnounce bs then d
  else if octet bs 14 ≠ 0x81 ∨ !fcsOk bs ∨ octets bs 18 8 ≠ d.mateId then d.msgError
  else if octet bs 15 ≠ Role.active then d
  else if d.role = Role.guard then { d with belay := { d.belay with guardDone := false } }
  else d.dualActive (octet bs 16)

/-! ### Resets (R433) -/

/-- The fields of a member that a reset of RDN starts over; `resync` as it returns. -/
def Dev.belayClear (resync : Bool) (d : Dev) : Dev :=
  (({ d with belay := { resyncReq := resync } }).setMirrorQ []).driveIlk false

/-- A warm or watchdog reset begins (R433): an ACTIVE member yields with reason 3. -/
def Dev.belayWarm (d : Dev) : Dev :=
  if d.isActive then (d.sendBelay 2 (d.yieldBody 3)).leaveActive Role.off (some 3) else d

/-- A block reset of RDN (R433): an ACTIVE member leaves its role without a word. -/
def Dev.belayBlockReset (d : Dev) : Dev :=
  let stood := d.role == Role.standby || d.role == Role.guard
  let d1 := if d.isActive then d.leaveActive Role.off none else d.put F.RDN_STATUS_role Role.off
  d1.belayClear stood

end Sys2Proof.Machine
end

