-- ==== Sys2Proof/Machine/Wipe.lean ====
section
/-! DEFINITION. What a reset or a domain off does to frames, tables and counters: discards without a count (R75, R76, R80,
R460, R540, Table TOP-5), and free stacks built anew (R221). -/

namespace Sys2Proof.Machine

/-! ### Frames -/

/-- A copy goes without a count (R540): a placeholder vanishes, a frame's copy is consumed as one that cannot deliver. -/
def Dev.wipeCopy (p : Nat) (c : Copy) (d : Dev) : Dev :=
  if c.holder.isSome ∨ (d.frame? c.frame).isNone then d else d.consumeCopy c.frame p false true

/-- A queued copy goes so; its stamp request is answered (R301). -/
def Dev.wipeWaiting (p : Nat) (c : Copy) (d : Dev) : Dev :=
  (match c.holder, d.frame? c.frame with
   | none, some f => d.unsentStamp f p
   | _, _ => d).wipeCopy p c

/-- A copy of frame `i` is in transmission on a port or waits preempted there: its SFD has left. -/
def Dev.sendsFrame (d : Dev) (i p : Nat) : Bool :=
  let mine := fun (x : Option Sending) => match x with | some s => s.copy.holder.isNone && s.copy.frame == i | none => false
  mine (d.sendingOn p) || mine (Sparse.get? d.qsc.suspended p)

/-- The entries that answer the stamp requests of a frame a reset discards (R301): one for each copy whose SFD has not left, or one with
port 64 for a frame that has no copies yet. -/
def Dev.lostEntries (d : Dev) (i : Nat) : List TxStamp :=
  let f := d.frame i
  if !f.wantsStamp ∨ f.dropped.isSome ∨ f.waits then []
  else if f.copies = [] then (if f.port = 64 then [d.unsentEntry f 64] else [])
  else (f.refused ++ (f.open_.map (·.port)).filter (fun p => !d.sendsFrame i p)).map (d.unsentEntry f)

/-- The stamp requests of frames that go in one core cycle are answered in ascending port order (R302). -/
def Dev.lostStamps (l : List Nat) (d : Dev) : Dev :=
  Dev.each (((l.map d.lostEntries).flatten).foldl (fun acc x => insertBy (fun a b => a.port < b.port) x acc) []) Dev.pushStamp d

/-- The copy in transmission on a port ends with an error code where a reset stops the port, on a tunnel port with K30.7; it is not
captured (R540). The spec leaves the ending open: DESIGN CHOICE, log 12. -/
def Dev.cutPart (p : Nat) (d : Dev) : Dev :=
  match d.sendingOn p with
  | some s => if p = 64 then d else d.sendCut p (d.wireBytes p s false none)
  | none => d

/-- The copy in transmission on a port is cut, and it and the preempted one go without a count. -/
def Dev.wipeSending (p : Nat) (d₀ : Dev) : Dev :=
  let d := d₀.cutPart p
  let l := (match d.sendingOn p with | some s => [s.copy] | none => []) ++
    (match Sparse.get? d.qsc.suspended p with | some s => [s.copy] | none => [])
  Dev.each l (Dev.wipeCopy p) ((d.setSending p none).setSuspended p none)

/-- Every queued copy of a port goes without a count. -/
def Dev.wipePort (p : Nat) (d : Dev) : Dev :=
  Dev.each (List.range 8) (fun q e => Dev.each (e.queue p q) (Dev.wipeWaiting p) (e.setQueue p q [])) d

/-- The copy of frame `i` that a port transmits ends with the inverted FCS, on a tunnel port with K30.7 (R168, R255), without a count
(R540). -/
def Dev.cutSending (i p : Nat) (d : Dev) : Dev :=
  match d.sendingOn p with
  | none => d
  | some s =>
    if s.copy.holder.isSome ∨ s.copy.frame ≠ i then d
    else
      let body := d.wireBytes p s false none
      let d1 := ((d.setSending p none).sendBad p body).put (F.QSC_STOMP_reason p) 0x33
      (d1.fault (R.QSC_EVENT p) 1 E.QSC_STOMP p).consumeCopy i p true true

/-- The same for the copy of frame `i` that waits preempted on a port. -/
def Dev.cutSuspended (i p : Nat) (d : Dev) : Dev :=
  match Sparse.get? d.qsc.suspended p with
  | none => d
  | some s =>
    if s.copy.holder.isSome ∨ s.copy.frame ≠ i then d
    else
      let running := d.sendingOn p
      (((d.setSuspended p none).setSending p (some s)).cutSending i p).setSending p running

/-- The queued copies of frame `i` on a port go without a count. -/
def Dev.wipeQueued (i p : Nat) (d : Dev) : Dev :=
  Dev.each (List.range 8) (fun q e =>
    let (gone, kept) := (e.queue p q).partition (fun c => c.holder.isNone && c.frame == i)
    if gone.isEmpty then e else Dev.each gone (Dev.wipeWaiting p) (e.setQueue p q kept)) d

/-- A frame goes without a count (R540): copies in transmission end stomped, all others vanish, and its buffer is freed; a
header still on its way leaves a record that waits for it. -/
def Dev.wipeFrame (i : Nat) (d : Dev) : Dev :=
  let f := d.frame i
  let d1 := d.setFrame i { f with complete := true, bad := 0x33 }
  let d2 := Dev.each (f.copies.map (·.port)) (fun p e => ((e.cutSending i p).cutSuspended i p).wipeQueued i p) d1
  match d2.frame? i with
  | none => d2
  | some g =>
    if g.enq then Dev.each (g.open_.map (·.port)) (fun p e => if (e.frame? i).isSome then e.consumeCopy i p false true else e) d2
    else if g.looked then d2.freeFrame i g.port 0
    else
      let d3 := match g.buf with
        | some h => d2.freeBuffer h (ownerTag g.port 0) false
        | none => d2
      d3.setFrame i { g with dropped := some 0x33, buf := none, chain := none }

/-- The frame a port receives goes without a count. -/
def Dev.wipeArriving (p : Nat) (d : Dev) : Dev :=
  match d.current p with
  | none => d
  | some i =>
    let d1 := d.setCurrent p none
    if (d1.frame? i).isNone then d1
    else if !(d1.frame i).windowed ∨ (d1.frame i).waits then d1.delFrame i
    else d1.wipeFrame i

/-- Every queue of the device emptied, every transmission ended, the buffers freed (R75): the reset of QSC. -/
def Dev.wipeQueues (d : Dev) : Dev :=
  let d1 := Dev.each (List.range 81) (fun p e => (e.wipePort p).wipeSending p) d
  { d1 with qsc := { d1.qsc with queues := [], deficit := [], turn := [], sending := [], suspended := [], skVisit := 0 } }.disableSyncs

/-- The free stacks of the four pools rebuilt from their sizes, every cache empty, and their modes with them (R221, R224,
Table TOP-1). -/
def Dev.buildPools (d : Dev) : Dev :=
  Dev.each (List.range 4) (fun k e =>
    if e.blockPresent 17 then e.setPool k { size := e.get (F.BPM_POOL_CFG_buffers k) } else e) d

/-- Every frame of the device gone, every buffer free, every header and copy with them: the reset of BPM, which ends every
quarantine (R492). Buckets keep their owners with nothing in flight; the packet memory keeps what it held. -/
def Dev.wipeFrames (d₀ : Dev) : Dev :=
  let d := d₀.lostStamps (d₀.fwd.frames.map (·.1))
  let fwd := { d.fwd with
    frames := [], rxCur := [], waiting := []
    buckets := d.fwd.buckets.map (fun b => (b.1, { b.2 with inflight := 0 })) }
  let d1 := { d with fwd := fwd }
  let d2 := Dev.each (List.range 8) (fun k e => Dev.each (List.range 12) (fun x y => y.setEngQueue k x []) e) d1
  let d3 := Dev.each (List.range 81) (fun p e => e.setHeaderFifo p []) d2
  let d4 := { d3 with
    qsc := { d3.qsc with queues := [], deficit := [], turn := [], sending := [], suspended := [] }
    bpm := { cells := d3.bpm.cells, spoiled := d3.bpm.spoiled }
    host := { d3.host with bypassQ := [] } }
  let d5 := Dev.each (List.range 81) (fun p e => Dev.each (List.range 8) (fun q x => x.put (F.BPM_QCELLS p q) 0) e) d4
  (Dev.each (List.range 16) (fun n e => e.setWord (R.TST_QUAR n) 0) (d5.put F.TST_QUAR_CNT 0)).buildPools.disableSyncs

/-- The headers in flight and their frames go without a count (R540): the reset of FWD. -/
def Dev.wipeHeaders (d : Dev) : Dev :=
  let inFlight := (d.fwd.frames.filter (fun f => f.2.windowed && !f.2.waits && !f.2.looked)).map (·.1)
  let d1 := Dev.each inFlight (fun i x =>
    let f := x.frame i
    if f.dropped.isSome then x.forget i else x.freeFrame i f.port 0) (d.lostStamps inFlight)
  let d2 := { d1 with fwd := { d1.fwd with waiting := [] } }
  let d3 := Dev.each (List.range 8) (fun k e => Dev.each (List.range 12) (fun x y => y.setEngQueue k x []) e) d2
  Dev.each (List.range 81) (fun p e => e.setHeaderFifo p []) d3

/-! ### Tables (Table TOP-5) -/

/-- The memories of FWD: from the exact-match table to the hit bits. -/
def Dev.wipeFwdTables (d : Dev) : Dev := { d.clearMem emBase (hitBase + 4 * 4096) with
  parity := d.parity.filter (fun a => decide (a < emBase) || decide (hitBase + 4 * 4096 ≤ a)) }

/-- The memories of MSC. -/
def Dev.wipeMscTables (d : Dev) : Dev := { d.clearMem chanBase (saBase + 64 * 8192) with
  parity := d.parity.filter (fun a => decide (a < chanBase) || decide (saBase + 64 * 8192 ≤ a)) }

/-- The stream keeper's flows and templates. -/
def Dev.wipeKeeper (d : Dev) : Dev :=
  let d1 := (d.clearMem flowBase (tmplBase + 16 * 256)).clearMem tmplData (tmplData + 4 * 131072)
  { d1.put F.QSC_SK_FILLING 0 with
    parity := d1.parity.filter (fun a => decide (a < flowBase) || decide (tmplData + 4 * 131072 ≤ a)) }

/-- The gate banks. -/
def Dev.wipeGates (d : Dev) : Dev := d.clearMem gateBase (gateBase + 0x1000 * 81)

/-- The PTP key table. -/
def Dev.wipePtpKeys (d : Dev) : Dev := d.clearMem ptpKeyBase (ptpKeyBase + 64 * 16)

end Sys2Proof.Machine
end

