-- ==== Sys2Proof/Machine/Power.lean ====
section
/-! DEFINITION. Power domains, latency tolerance and the time-only state (R458–R472). -/

namespace Sys2Proof.Machine

/-! ### Domains: exits, entries in use, idleness -/

/-- The exit time of a domain in ns (Table PWR-1). -/
def domainExit (k : Nat) : Nat := nthD [120000, 60000, 80000, 100000, 30000, 30000, 30000, 30000, 40000] k 0

/-- An entry of a memory has bit 31 of dword `k` set: its valid or enable bit. -/
def Dev.anyValid (d : Dev) (base size count k : Nat) : Bool :=
  d.mem.any (fun c => decide (base ≤ c.1) && decide (c.1 < base + size * count) && (c.1 - base) % size == 4 * k + 3 && c.2.getLsbD 7)

/-- The memories of a domain hold an entry in use (R465). -/
def Dev.tablesInUse (d : Dev) (k : Nat) : Bool :=
  match k with
  | 0 => d.anyValid emBase 64 131072 15 || d.anyValid tcamBase 128 8192 31 || d.anyValid actBase 16 131072 3 ||
      d.anyValid mcBase 16 4096 3 || d.anyValid ctxBase 64 4096 0
  | 1 => d.anyValid flowBase 32 4096 0 || d.anyValid tmplBase 16 256 3 ||
      (List.range 81).any (fun p => d.flag (F.QSC_GCL_CTRL_enable p))
  | 3 => d.anyValid chanBase 32 4096 2 || d.anyValid saBase 64 8192 0 || d.anyValid ptpKeyBase 64 16 1
  | _ => false

/-- The table rule keeps a domain on (R465). -/
def Dev.tableHeld (d : Dev) (k : Nat) : Bool := d.tablesInUse k && !(d.word R.PWR_ALLOW_TABLE_LOSS).getLsbD k

/-- The latency tolerance of a cluster (R461). -/
def Dev.clusterTol (d : Dev) (k : Nat) : Nat :=
  min (d.word (R.PWR_LAT_TOL_CL k)).toNat (d.word (R.PWR_LAT_TOL_GRP k)).toNat

/-- The least of the tolerances of some units; without a unit, the greatest value (R461). -/
def leastTol (l : List Nat) : Nat := l.foldl min 0xFFFFFFFF

/-- The latency tolerance of a domain (R461). -/
def Dev.domainTol (d : Dev) (k : Nat) : Nat :=
  let ports := ((List.range 81).filter d.portPresent).map d.portTol
  let clusters := ((List.range 8).filter d.regionPresent).map d.clusterTol
  if k = 0 then leastTol (ports ++ clusters)
  else if k ≤ 3 then leastTol ports
  else if k ≤ 7 then
    leastTol (((List.range 64).filter (fun p => d.portPresent p && d.flag (F.MAC_CFG_enable p) && p / 16 == k - 4)).map d.portTol)
  else min (d.word (R.PWR_LAT_TOL_ROPE 0)).toNat (d.word (R.PWR_LAT_TOL_ROPE 1)).toNat

/-- The idle condition of a domain (R464). -/
def Dev.domainIdle (d : Dev) (k : Nat) : Bool :=
  if k ≤ 2 then
    (List.range 81).all (fun p => p == 64 || !d.portReady p) &&
      (List.range 8).all (fun n => !d.flag (F.HIF_TXR_SIZE_enable n) && !d.flag (F.HIF_RXR_SIZE_enable n)) &&
      d.bpm.bufs.all (fun b => !b.2.owned)
  else if k = 3 then
    (List.range 64).all (fun p => d.get (F.MSC_PORT_CFG_mode p) == 0) &&
      (List.range 81).all (fun p => p == 64 || d.get (F.SEC_PTP_POLICY_mode p) == 0) && !d.flag F.SEC_STATUS_att_busy
  else if k ≤ 7 then
    ((List.range 16).map (fun i => 16 * (k - 4) + i)).all (fun l => d.get (F.HSL_STATUS_pwr_state l) == Lane.l2)
  else
    d.lanes.gatedQuads.contains 0 && d.lanes.gatedQuads.contains 1 &&
      (!d.flag F.RDN_CFG_link_en || !d.flag F.RDN_CTRL_enable)

/-! ### Switching off -/

/-- A domain is off and no longer on its way (R458). -/
def Dev.markOff (k : Nat) (d : Dev) : Dev :=
  let d1 := d.put F.PWR_DOM_STATUS_on (clrBit (d.get F.PWR_DOM_STATUS_on) k)
  d1.put F.PWR_DOM_STATUS_changing (clrBit (d1.get F.PWR_DOM_STATUS_changing) k)

/-- What goes when a domain goes off (R460, Tables PWR-1 and TOP-5): its tables, frames, links, counters and ready bits. -/
def Dev.loseDomain (k : Nat) (d : Dev) : Dev :=
  match k with
  | 0 => ((d.wipeHeaders.wipeFwdTables.put F.TOP_READY_fwd 0).clearAllEngines).clearOwner 16
  | 1 => (d.wipeQueues.wipeKeeper.wipeGates.put F.TOP_READY_qsc 0).clearOwner 18
  | 2 => (d.wipeFrames.put F.TOP_READY_bpm 0).clearOwner 17
  | 3 => (((d.wipeMscTables.wipePtpKeys.put F.TOP_READY_sec 0).put F.TOP_READY_msc 0).clearOwner 4).clearOwner 23
  | 8 =>
    let d1 := Dev.each (List.range 16) (fun n e => if e.ropeState n = Rlk.down then e else e.ropeEnter n Rlk.down) d
    (d1.setQuads 0).clearOwner 13
  | _ =>
    let lanes := (List.range 16).map (fun i => 16 * (k - 4) + i)
    Dev.each lanes (fun l e => (((e.linkDown l).laneOff l).clearOwnerAt 14 l).clearOwnerAt 15 l) d

/-- A domain goes off (R464–R466). -/
def Dev.switchOff (k : Nat) (d : Dev) : Dev :=
  (((d.loseDomain k).markOff k).setBit R.PWR_DOM_HOLD k false).event R.PWR_EVENT 0

/-- The table rule starts or ceases to keep a domain on that would go off (R465). -/
def Dev.setHold (k : Nat) (b : Bool) (d : Dev) : Dev :=
  (d.when (b && !d.bitAt R.PWR_DOM_HOLD k) (Dev.event R.PWR_EVENT 3)).setBit R.PWR_DOM_HOLD k b

/-- A domain the device may switch, and that is on. -/
def Dev.maySwitch (d : Dev) (k : Nat) : Bool := decide (k < 9) && d.domainEnabled k && d.domainOn k && !d.busy

/-- A domain is to go off by request, or by its idleness within the tolerance (R462, R464, R466). -/
def Dev.wantsOff (d : Dev) (k : Nat) : Bool :=
  hasBit (d.get F.PWR_DOM_OFF_REQ) k || (d.domainIdle k && decide (domainExit k ≤ d.domainTol k))

/-- A partial re-structure under way needs a domain: PD_SEC, or the lanes of its group (R467). -/
def Dev.imageNeeds (d : Dev) (k : Nat) : Bool := d.prRunning && (k == 3 || k == 4 + d.img.prGroup / 2)

/-- The device refuses a request of a domain, for a reason (R466, R468). -/
def Dev.refusePower (reason k : Nat) (d : Dev) : Dev :=
  ((d.put F.PWR_REFUSE_reason reason).put F.PWR_REFUSE_domain k).event R.PWR_EVENT 2

/-- The table rule keeps a domain on, which a request that stands then meets (R465, R466). -/
def Dev.holdOn (k : Nat) (d : Dev) : Dev :=
  if d.bitAt R.PWR_DOM_HOLD k then d
  else (d.setHold k true).when (hasBit (d.get F.PWR_DOM_OFF_REQ) k) (Dev.refusePower 1 k)

/-- The device looks whether a domain goes off. -/
def Dev.domainOff (k : Nat) (d : Dev) : Dev :=
  if !d.maySwitch k ∨ !d.wantsOff k then d.setHold k false
  else if d.tableHeld k then d.holdOn k
  else if d.imageNeeds k then d
  else d.switchOff k

/-- The table rule still keeps a domain on that would otherwise go off (R465). -/
def Dev.holds (d : Dev) (k : Nat) : Bool := d.maySwitch k && d.wantsOff k && d.tableHeld k

/-- The bits of PWR_DOM_HOLD whose domains the table rule keeps on at this moment (R465). -/
def Dev.holdsNow (d : Dev) : Word :=
  (List.range 9).foldl (fun w k => setBits w k 1 (bit (d.bitAt R.PWR_DOM_HOLD k && d.holds k))) (d.word R.PWR_DOM_HOLD)

/-- The bits of PWR_DOM_HOLD whose cause is gone fall (R465). -/
def Dev.holdEdge (d : Dev) : Dev := if d.word R.PWR_DOM_HOLD = 0 then d else d.setWord R.PWR_DOM_HOLD d.holdsNow

/-- PWR_DOM_OFF_REQ written (R466). -/
def Dev.writeOffReq (w : Word) (d : Dev) : Dev :=
  let old := d.get F.PWR_DOM_OFF_REQ
  let new := bits w 0 9
  let d1 := d.put F.PWR_DOM_OFF_REQ new
  Dev.each (List.range 9) (fun k e =>
    if hasBit new k then
      if hasBit old k ∨ !e.maySwitch k then e
      else if e.tableHeld k then (e.setHold k true).refusePower 1 k
      else if e.imageNeeds k then e
      else e.switchOff k
    else if hasBit old k then (e.setHold k false).wake k
    else e) d1

/-! ### Switching on -/

/-- The units of a domain are usable again (R458, R460, Table TOP-2), those of a block in reset at its end (R65), those of the
datapath not while the time-only state holds them (R468). -/
def Dev.domainUsable (k : Nat) (d : Dev) : Dev :=
  if !d.applied ∨ d.busy ∨ d.timeOnlyHolds k then d
  else
    let runs := fun (pg : Nat) => d.blockPresent pg && !d.blockInReset pg
    match k with
    | 0 => d.when (runs 16) (Dev.put F.TOP_READY_fwd 1)
    | 1 => d.when (runs 18) (Dev.put F.TOP_READY_qsc 1)
    | 2 => d.when (runs 17) (Dev.put F.TOP_READY_bpm 1)
    | 3 => (d.put F.TOP_READY_sec 1).when (runs 23) (Dev.put F.TOP_READY_msc 1)
    | 8 => d.when (d.blockPresent 13) (fun e =>
        Dev.each (List.range 16) Dev.ropeStart (e.setQuads e.img.ropeQuads))
    | _ => Dev.each ((List.range 16).map (fun i => 16 * (k - 4) + i)) Dev.l2Exit d

/-- A domain reports power good (R458); the pools of PD_BUF stand as at their start (R221). -/
def Dev.powerGood (k : Nat) (d : Dev) : Dev :=
  if !d.domainChanging k then d
  else
    let d1 := d.put F.PWR_DOM_STATUS_changing (clrBit (d.get F.PWR_DOM_STATUS_changing) k)
    let d2 := (d1.put F.PWR_DOM_STATUS_on (orBit (d1.get F.PWR_DOM_STATUS_on) k)).event R.PWR_EVENT 1
    (d2.when (k == 2) Dev.buildPools).domainUsable k

/-- A domain does not report power good within twice its exit time (R467). -/
def Dev.powerFail (k : Nat) (d : Dev) : Dev :=
  if !d.domainChanging k then d else (d.markOff k).fault R.PWR_EVENT 6 E.PWR_DOMAIN_FAIL k

/-! ### Reduced states under tolerance (R462, R463) -/

/-- Every unit in a state whose exit its tolerance no longer admits starts to leave it; a tolerance lowered below a domain's exit
time wakes the domain. `old` is the device before the write (R463, R464). -/
def Dev.tolSync (old d : Dev) : Dev :=
  let lane := fun (l : Nat) (e : Dev) =>
    match e.lanePort l with
    | none => e
    | some p =>
      if e.get (F.HSL_STATUS_pwr_state l) = Lane.l1 ∧ e.portTol p < 280 then e.l1Exit l
      else if e.get (F.HSL_STATUS_pwr_state l) = Lane.l2 ∧ e.portTol p < 48000 then e.l2Exit l
      else e
  let d1 := Dev.each (List.range 64) lane d
  let d2 := Dev.each (List.range 8) (fun k e =>
    let a := e.when (decide (e.clusterTol k < 40)) (Dev.setBit R.PWR_CL_GATED k false)
    a.when (decide (a.clusterTol k < 16)) (Dev.put (F.PWR_ENG_GATED k) 0)) d1
  let quads := d2.lanes.gatedQuads.filter (fun r => decide (20000 ≤ (d2.word (R.PWR_LAT_TOL_ROPE r)).toNat))
  let d3 := { d2 with lanes := { d2.lanes with gatedQuads := quads } }
  Dev.each (List.range 9) (fun k e => if e.domainTol k < domainExit k ∧ e.domainTol k < old.domainTol k then e.wake k else e) d3

/-- An engine's queue and pipeline have been empty for 64 core cycles: it is gated, or its whole cluster where `e` names no
engine (Table PWR-2). -/
def Dev.engineGate (k : Nat) (e : Option Nat) (d : Dev) : Dev :=
  if !d.regionPresent k ∨ !d.blockPresent 16 ∨ !d.domainOn 0 then d
  else
    match e with
    | some i =>
      if i ≠ d.expressEngine k ∧ d.engQueue k i = [] ∧ 16 ≤ d.clusterTol k then d.setBit (R.PWR_ENG_GATED k) i true else d
    | none =>
      let quiet := (List.range 12).all (fun i => d.engQueue k i == []) && (clusterPorts k).all (fun p => d.headerFifo p == [])
      if quiet && decide (40 ≤ d.clusterTol k) then d.setBit R.PWR_CL_GATED k true else d

/-- Every lane of a rope quad is disabled: its PLL and lanes are gated (Table PWR-2). -/
def Dev.ropeQuadGate (r : Nat) (d : Dev) : Dev :=
  let off := (List.range 8).all (fun i => !d.flag (F.RLK_CFG_enable (8 * r + i)))
  if d.blockPresent 13 ∧ off ∧ 20000 ≤ (d.word (R.PWR_LAT_TOL_ROPE r)).toNat then
    { d with lanes := { d.lanes with gatedQuads := addOnce r d.lanes.gatedQuads } }
  else d

/-- A rope lane is enabled: its quad is no longer gated. -/
def Dev.ropeUngate (n : Nat) (d : Dev) : Dev :=
  if d.flag (F.RLK_CFG_enable n) then { d with lanes := { d.lanes with gatedQuads := d.lanes.gatedQuads.erase (n / 8) } } else d

/-! ### The time-only state (R468–R470) -/

/-- The reason for which a request of the time-only state is refused, and the domain that holds a table (R468). -/
def Dev.timeOnlyRefusal (d : Dev) : Option (Nat × Nat) :=
  match [0, 1, 3].find? (fun k => d.domainOn k && d.tableHeld k) with
  | some k => some (1, k)
  | none =>
    if d.isActive then some (2, 0)
    else
      let s := d.get F.IMG_STATUS_state
      if (1 ≤ s ∧ s ≤ 3) ∨ (5 ≤ s ∧ s ≤ 7) then some (3, 0) else none

/-- The time-only state is entered (R468, Table PWR-4 at 0 µs; R504). -/
def Dev.timeOnlyGo (d : Dev) : Dev :=
  let d1 := (d.put F.PWR_CTRL_time_only 1).put F.PWR_STATE_mode 1
  let d2 := ((((d1.put F.TOP_READY_fwd 0).put F.TOP_READY_bpm 0).put F.TOP_READY_qsc 0).put F.TOP_READY_sec 0).put
    F.TOP_READY_msc 0
  let d3 := Dev.each (List.range 81) (fun p e => e.flushPort p 0x26) d2
  Dev.each (List.range 16) Dev.syncTunnel d3

/-- PWR_CTRL.time_only written 1 (R468). -/
def Dev.timeOnlyEntry (d : Dev) : Dev :=
  if d.get F.PWR_STATE_mode ≠ 0 then d
  else
    match d.timeOnlyRefusal with
    | some (r, k) => (d.put F.PWR_CTRL_time_only 0).refusePower r k
    | none => d.timeOnlyGo

/-- 12 µs later (Table PWR-4): the datapath domains are off, one still powering on with them, the ports without PHX have dropped
link and gone to L2, the lane domains that can go off are off. -/
def Dev.timeOnlyDone (d : Dev) : Dev :=
  if d.get F.PWR_STATE_mode ≠ 1 then d
  else
    let d1 := Dev.each [2, 1, 0, 3] (fun k e => if e.domainOn k then e.switchOff k else e.markOff k) d
    let off := (List.range 64).filter (fun p => d1.portPresent p && !d1.flag (F.PHX_CFG_enable p))
    let d2 := Dev.each off (fun p e => Dev.each (e.portLanes p) Dev.laneOff (e.linkDown p)) d1
    let d3 := Dev.each [4, 5, 6, 7] (fun k e => if e.maySwitch k ∧ e.domainIdle k then e.switchOff k else e) d2
    (d3.put F.PWR_STATE_mode 2).event R.PWR_EVENT 4

/-- PWR_CTRL.time_only written 0 (R470): the datapath domains power on together, one still on is usable at once, the lanes held
in L2 start. -/
def Dev.timeOnlyExit (d : Dev) : Dev :=
  if d.get F.PWR_STATE_mode = 0 ∨ d.get F.PWR_STATE_mode = 3 then d
  else
    let d1 := (d.put F.PWR_CTRL_time_only 0).put F.PWR_STATE_mode 3
    let ports := (List.range 64).filter (fun p => d1.portPresent p && d1.flag (F.MAC_CFG_enable p))
    let d2 := Dev.each (ports.map (fun p => 4 + p / 16)) Dev.wake
      (Dev.each [0, 1, 2, 3] (fun k e => if e.domainOn k then e.domainUsable k else e.wake k) d1)
    Dev.each ports (fun p e => Dev.each (e.portLanes p) Dev.l2Exit e) d2

/-- 120 µs after that (R470). -/
def Dev.timeOnlyExitDone (d : Dev) : Dev :=
  if d.get F.PWR_STATE_mode ≠ 3 then d
  else Dev.each (List.range 16) Dev.syncTunnel ((d.put F.PWR_STATE_mode 0).event R.PWR_EVENT 5)

/-- PWR_CTRL written. -/
def Dev.writePwrCtrl (w : Word) (d : Dev) : Dev := if w.getLsbD 0 then d.timeOnlyEntry else d.timeOnlyExit

end Sys2Proof.Machine
end

