-- ==== Sys2Proof/Machine/Security.lean ====
section
/-! DEFINITION. The SEC unit (R435–R447): fuse operations, attestation, the test access port and debug access, tamper. -/

namespace Sys2Proof.Machine

/-! ### The policy and the fuses (R437–R439) -/

abbrev Policy.prAfterLock : Nat := 0
abbrev Policy.otpProg : Nat := 1
abbrev Policy.attestEn : Nat := 2
abbrev Policy.debugChal : Nat := 3
abbrev Policy.zeroize : Nat := 4

/-- A bit of byte 0 of the applied policy (Table SEC-3). -/
def Dev.policyBit (d : Dev) (i : Nat) : Bool := d.applied && hasBit d.sec.policy i

/-! The OTP array (R435, Table SEC-1): numbers in it are read with their lowest byte first, and strings in ascending order. -/

/-- The fuses of a byte. -/
def Dev.fuseByte (d : Dev) (a : Nat) : Byte := Sparse.getD d.sec.fuses a 0

/-- The fuses of `n` bytes from `a` on. -/
def Dev.fuseBytes (d : Dev) (a n : Nat) : List Byte := (List.range n).map (fun k => d.fuseByte (a + k))

/-- The number they hold. -/
def Dev.fuseNum (d : Dev) (a n : Nat) : Nat := leNat (d.fuseBytes a n)

/-- Fuses of a byte programmed: a bit changes only from 0 to 1. -/
def Dev.blowByte (a : Nat) (v : Byte) (d : Dev) : Dev :=
  let w := d.fuseByte a ||| v
  if w = 0 then d else { d with sec := { d.sec with fuses := Sparse.put d.sec.fuses a w } }

/-- Fuses from byte `a` on programmed. -/
def Dev.blow (a : Nat) (bs : List Byte) (d : Dev) : Dev :=
  Dev.each (List.range bs.length) (fun k => Dev.blowByte (a + k) (bs.getD k 0)) d

/-- Where the digest of a slot stands, and the thermometer of the floor. -/
abbrev digestFuse (s : Nat) : Nat := 0xF0 + 48 * s
abbrev slotFuse : Nat := 0x1B0
abbrev floorFuse : Nat := 0x1B1
abbrev modeFuse : Nat := 0x1C1

/-- A slot is dirty: its digest area holds 1 bits and it is not programmed (R438). -/
def Dev.slotDirty (d : Dev) (s : Nat) : Bool :=
  (d.fuseBytes (digestFuse s) 48).any (· != 0) && !(d.fuseByte slotFuse).getLsbD s

/-- The consecutive 1 bits from bit 0 on, of `n`. -/
def onesFrom : Nat → Nat → Nat
  | 0, _ => 0
  | n + 1, v => if v % 2 = 1 then onesFrom n (v / 2) + 1 else 0

/-- The rollback floor that the fuses hold (R436). -/
def Dev.fusedFloor (d : Dev) : Nat := onesFrom 128 (d.fuseNum floorFuse 16)

/-- The digest of a slot read into its shadow. -/
def Dev.readDigest (s : Nat) (d : Dev) : Dev :=
  Dev.each (List.range 12) (fun i e => e.setWord (R.SEC_OWNER_DIG s i) (BitVec.ofNat 32 (d.fuseNum (digestFuse s + 4 * i) 4))) d

/-- Registers that show `n` words of the array from byte `a` on. -/
def Dev.readWords (r : Nat → Nat) (a n : Nat) (d : Dev) : Dev :=
  Dev.each (List.range n) (fun i e => e.setWord (r i) (BitVec.ofNat 32 (d.fuseNum (a + 4 * i) 4))) d

/-- The whole array read into its shadows at a power-on reset (R4, R435). -/
def Dev.readFuses (d : Dev) : Dev :=
  let id := d.fuseNum 0x570 4
  let d1 := ((d.put F.TOP_ID_step_letter (field id 28 4)).put F.TOP_ID_step_digit (field id 24 4)).put F.TOP_ID_variant (field id 4 4)
  let d2 := (Dev.each (List.range 4) Dev.readDigest d1).readWords R.SEC_DEV_PUB 0x30 24
  let d3 := (d2.readWords R.SEC_DEV_CERT 0x90 24).readWords (fun i => R.SYN_OTP_BAND_LO 0 + 4 * i) 0x200 128
  let d4 := d3.readWords (fun i => R.SEC_SERIAL_LO + 4 * i) 0x578 2
  let slots := (d.fuseByte slotFuse).toNat
  (((d4.put F.SEC_STATUS_slots_prog (slots % 16)).put F.SEC_STATUS_slots_rev (slots / 16)).put F.SEC_STATUS_floor d.fusedFloor).put
    F.SEC_STATUS_debug_mode ((d.fuseByte modeFuse).toNat % 4)

/-- The slots programmed and not revoked. -/
def Dev.goodSlots (d : Dev) : List Nat :=
  (List.range 4).filter (fun s => hasBit (d.get F.SEC_STATUS_slots_prog) s && !hasBit (d.get F.SEC_STATUS_slots_rev) s)

/-- The staged digest. -/
def Dev.stagedDigest (d : Dev) : List Word := (List.range 12).map (fun i => d.word (R.SEC_OTP_STAGE i))

/-- The value a fuse operation is to write: a floor for op 3, a mode for op 4. -/
def Dev.otpValue (d : Dev) (op : Nat) : Nat :=
  if op = 3 then min 128 (d.get F.IMG_SEC_VERSION) else d.get F.SEC_OTP_PROG_debug

/-- The reason for which a fuse operation is refused (R437, Table SEC-2), none where it runs. -/
def Dev.otpRefusal (d : Dev) (op slot : Nat) : Option Nat :=
  let prog := d.get F.SEC_STATUS_slots_prog
  let rev := d.get F.SEC_STATUS_slots_rev
  if d.locked || !d.policyBit Policy.otpProg then some 1
  else if !d.flag F.SEC_STATUS_vpp_ok then some 2
  else if op = 1 then
    (if hasBit prog slot then some 3 else if d.slotDirty slot then some 4 else none)
  else if op = 2 then
    (if d.goodSlots.all (· == slot) then some 5 else if hasBit rev slot then some 6 else none)
  else if op = 3 then (if d.otpValue 3 ≤ d.get F.SEC_STATUS_floor then some 6 else none)
  else if d.otpValue 4 ≤ d.get F.SEC_STATUS_debug_mode ∨ d.otpValue 4 = 2 then some 6
  else none

/-- SEC_OTP_PROG.go written 1 (R437): the operation its op names starts, or is refused; op 0 and 5–7 do nothing. -/
def Dev.otpGo (d : Dev) : Dev :=
  let op := d.get F.SEC_OTP_PROG_op
  let slot := d.get F.SEC_OTP_PROG_slot
  if d.sec.otp.isSome then d.put F.SEC_OTP_STATUS_reason 8
  else if op = 0 ∨ 5 ≤ op then d
  else
    match d.otpRefusal op slot with
    | some r => d.put F.SEC_OTP_STATUS_reason r
    | none =>
      let run : OtpRun := { op := op, slot := slot, value := d.otpValue op, digest := if op = 1 then d.stagedDigest else [] }
      (({ d with sec := { d.sec with otp := some run } }).put F.SEC_STATUS_otp_busy 1).put F.SEC_OTP_PROG_go 1

/-- SEC_OTP_PROG written. -/
def Dev.writeOtpProg (w : Word) (d : Dev) : Dev :=
  let d1 := ((d.put F.SEC_OTP_PROG_op (bits w 0 3)).put F.SEC_OTP_PROG_slot (bits w 4 2)).put F.SEC_OTP_PROG_debug (bits w 8 2)
  if w.getLsbD 31 then d1.otpGo else d1

/-- VPP_FUSE stands in its range, or not (Table SEC-6). -/
def Dev.setVpp (ok : Bool) (d : Dev) : Dev := d.put F.SEC_STATUS_vpp_ok (bit ok)

/-- What a fuse operation that verifies leaves in the fuses and their shadows (R438). -/
def Dev.otpEffect (o : OtpRun) (d : Dev) : Dev :=
  if o.op = 1 then
    let d1 := (d.blow (digestFuse o.slot) (o.digest.flatMap (fun w => leBytes 4 w.toNat))).blow slotFuse [BitVec.ofNat 8 (2 ^ o.slot)]
    (d1.readDigest o.slot).put F.SEC_STATUS_slots_prog (orBit (d.get F.SEC_STATUS_slots_prog) o.slot)
  else if o.op = 2 then
    (d.blow slotFuse [BitVec.ofNat 8 (2 ^ (4 + o.slot))]).put F.SEC_STATUS_slots_rev (orBit (d.get F.SEC_STATUS_slots_rev) o.slot)
  else if o.op = 3 then
    let d1 := d.blow floorFuse (leBytes 16 (2 ^ o.value - 1))
    d1.put F.SEC_STATUS_floor d1.fusedFloor
  else
    let d1 := d.blow modeFuse [BitVec.ofNat 8 o.value]
    d1.put F.SEC_STATUS_debug_mode (d.get F.SEC_STATUS_debug_mode ||| o.value)

/-- Some of the 1 bits of a byte, and at least one. -/
def partByte (v : Byte) (m : Nat) : Byte :=
  let ones := (List.range 8).filter (fun b => v.getLsbD b)
  let some := ones.filter (fun b => hasBit m b)
  BitVec.ofNat 8 ((if some = [] then [nthD ones (m / 256 % ones.length) 0] else some).foldl orBit 0)

/-- What a slot program that did not end has programmed of the bytes: those before some byte whole, and some bits of that one; at least
one bit of them all. -/
def partDigest (bs : List Byte) (m : Nat) : List Byte :=
  let first := bs.findIdx (· != 0)
  let n := first + m % (bs.length - first)
  let v := bs.getD n 0
  bs.take n ++ (if v = 0 then [] else [partByte v (m / bs.length)])

/-- A fuse operation that did not end (R438): a digest byte by byte up to some place, a floor raised by less than it was to be, a
revocation or a debug mode with its fuse programmed or not, the lower bit of a mode first. The next power-on reads what is left. -/
def Dev.otpPartial (o : OtpRun) (d₀ : Dev) : Dev :=
  let m := Config.partFuse d₀.fresh
  let d := d₀.draw
  if o.op = 1 then d.blow (digestFuse o.slot) (partDigest (o.digest.flatMap (fun w => leBytes 4 w.toNat)) m)
  else if o.op = 2 then d.when (m % 2 == 1) (Dev.blow slotFuse [BitVec.ofNat 8 (2 ^ (4 + o.slot))])
  else if o.op = 3 then
    let old := d.get F.SEC_STATUS_floor
    d.blow floorFuse (leBytes 16 (2 ^ (old + m % max 1 (o.value - old)) - 1))
  else
    let lower := if o.value % 2 = 1 ∧ !(d.fuseByte modeFuse).getLsbD 0 then 1 else o.value
    d.when (m % 2 == 1) (Dev.blow modeFuse [BitVec.ofNat 8 (if m % 4 = 3 then o.value else lower)])

/-- A fuse operation ends (R438). -/
def Dev.otpDone (ok : Bool) (d : Dev) : Dev :=
  match d.sec.otp with
  | none => d
  | some o =>
    let d1 := (({ d with sec := { d.sec with otp := none } }).put F.SEC_STATUS_otp_busy 0).put F.SEC_OTP_PROG_go 0
    if ok then (d1.otpEffect o).event R.SEC_EVENT 2
    else ((d1.otpPartial o).put F.SEC_OTP_STATUS_reason 7).fault R.SEC_EVENT 3 E.SEC_OTP_FAIL o.op

/-- Power or a cold reset interrupts a fuse operation (R438). -/
def Dev.otpInterrupted (d : Dev) : Dev :=
  match d.sec.otp with
  | none => d
  | some o =>
    let d1 := d.otpPartial o
    ({ d1 with sec := { d1.sec with otp := none } }).put F.SEC_STATUS_otp_busy 0

/-! ### Attestation (R441, R442) -/

/-- A register's word as four bytes, most significant first. -/
def Dev.wordBe (d : Dev) (a : Nat) : List Byte := beBytes 4 (d.word a).toNat

/-- A register's word as four bytes in the order of its byte lanes. -/
def Dev.wordLe (d : Dev) (a : Nat) : List Byte := leBytes 4 (d.word a).toNat

/-- Debug is open (R444): by the fuses alone, or by an accepted response. -/
def Dev.debugOpen (d : Dev) : Bool := d.get F.SEC_STATUS_debug_mode == 0 || d.flag F.SEC_STATUS_debug_open

/-- Bytes 0x000–0x15F of the report (Table SEC-4). -/
def Dev.reportBody (d : Dev) : List Byte :=
  let run := fun (n : Nat) (r : Nat → Nat) (f : Nat → List Byte) => ((List.range n).map (fun i => f (r i))).flatten
  let flags := bit (d.flag F.IMG_STATUS_unowned) + 2 * bit d.locked + 4 * bit d.debugOpen +
    8 * bit (d.flag F.SEC_STATUS_zeroized)
  let slots := d.get F.SEC_STATUS_slots_prog + 16 * d.get F.SEC_STATUS_slots_rev
  [0x54, 0x56, 0x41, 0x54] ++ beBytes 2 1 ++ beBytes 2 0x1C0 ++
    d.wordBe R.TOP_ID ++ d.wordBe R.SEC_SERIAL_HI ++ d.wordBe R.SEC_SERIAL_LO ++
    run 8 R.SEC_ATT_NONCE d.wordLe ++ run 12 R.IMG_HASH d.wordLe ++
    d.wordBe R.IMG_VERSION ++ beBytes 2 (d.get F.IMG_SEC_VERSION) ++
    [BitVec.ofNat 8 (d.get F.IMG_STATUS_key_slot), BitVec.ofNat 8 flags] ++
    run 8 R.IMG_GROUP_VER d.wordBe ++
    [BitVec.ofNat 8 slots, BitVec.ofNat 8 (d.get F.SEC_STATUS_floor), BitVec.ofNat 8 (d.get F.SEC_STATUS_debug_mode), 0] ++
    todBytes d.now ++
    [BitVec.ofNat 8 (d.get F.TBS_STATUS_epoch), BitVec.ofNat 8 (d.dplState 0), BitVec.ofNat 8 d.followedCand,
     BitVec.ofNat 8 (d.get F.PHX_CTRL_hops)] ++
    d.wordBe R.TOP_READY ++ [BitVec.ofNat 8 (d.get F.REF_CTRL_phase), BitVec.ofNat 8 (d.get F.PHX_CTRL_summit), 0, 0] ++
    d.wordBe (R.DPL_HO_STATUS 0) ++ d.wordBe (R.DPL_HO_ELAPSED 0) ++ d.wordBe R.DPL_LRN_STATUS ++
    d.wordBe R.SEC_TAMPER_CNT ++ [BitVec.ofNat 8 (d.get F.SEC_TAMPER_LAST_source), 0, 0, 0] ++
    List.replicate 0x44 0 ++ run 24 R.SEC_DEV_PUB d.wordLe

/-- SEC_CTRL.att_req written 1 (R441, R442): a refusal leaves it 0, also while a request runs, which goes on. -/
def Dev.attestRequest (d : Dev) : Dev :=
  if !d.flag F.TOP_READY_sec ∨ !d.policyBit Policy.attestEn ∨ d.flag F.SEC_STATUS_zeroized ∨ d.flag F.SEC_STATUS_att_busy then
    (d.put F.SEC_CTRL_att_req 0).event R.SEC_EVENT 1
  else
    (({ d with sec := { d.sec with report := d.reportBody } }).put F.SEC_CTRL_att_req 1).put F.SEC_STATUS_att_busy 1

/-- The device private key (Table SEC-1). -/
def Dev.privateKey (d : Dev) : Nat := beNat (d.fuseBytes 0 48)

/-- The report appears, signed (R441). -/
def Dev.attestDone (d : Dev) : Dev :=
  if !d.flag F.SEC_STATUS_att_busy then d
  else
    let sig := ecdsaSign d.privateKey (sha384 d.sec.report) (1 + Config.signNonce d.fresh % (p384Order - 1))
    let d1 := ((d.draw.clearMem reportBase (reportBase + 448)).store reportBase (d.sec.report ++ sig))
    ((({ d1 with sec := { d1.sec with report := [] } }).put F.SEC_CTRL_att_req 0).put F.SEC_STATUS_att_busy 0).event R.SEC_EVENT 0

/-! ### The test access port (R443) -/

/-- An instruction other than EXTEST takes the port: the balls are the device's again, and with a PERST_N that is high the PCIe link
trains again. -/
def Dev.leaveExtest (d : Dev) : Dev := { d with sec := { d.sec with extest := false } }

/-- BYPASS, and every instruction that reaches internal state while debug is not open (R443, `Dev.debugOpen`): the one-bit register gives a 0, then what went in (IEEE 1149.1). The bits are bytes, first bit lowest. -/
def Dev.tapBypass (data : List Byte) (d : Dev) : Dev :=
  d.leaveExtest.emit (.jtag (leBytes data.length (2 * leNat data)))

/-- IDCODE: 0x1648_0E93. -/
def Dev.tapIdcode (d : Dev) : Dev := d.leaveExtest.emit (.jtag (leBytes 4 0x16480E93))

/-- SAMPLE/PRELOAD: the levels at the balls come out, the boundary register is loaded. -/
def Dev.tapSample (pins data : List Byte) (d : Dev) : Dev :=
  let d1 := d.leaveExtest
  ({ d1 with sec := { d1.sec with boundary := data } }).emit (.jtag pins)

/-! ### Debug access (R444, R445) -/

/-- The debug mode is challenge and the policy serves it. -/
def Dev.servesDebug (d : Dev) : Bool := d.get F.SEC_STATUS_debug_mode == 1 && d.policyBit Policy.debugChal

/-- DBG_CHAL: a new challenge, or zeros. -/
def Dev.debugChallenge (d : Dev) : Dev :=
  if !d.servesDebug ∨ 3 ≤ d.sec.failed then d.emit (.jtag (List.replicate 48 0))
  else
    let n := (d.sec.attempts + 1) % 2 ^ 32
    let c := beBytes 32 (Config.randomNumber d.fresh) ++ d.wordBe R.SEC_SERIAL_HI ++ d.wordBe R.SEC_SERIAL_LO ++ d.wordBe R.TOP_ID ++ beBytes 4 n
    ({ d.draw with sec := { d.sec with challenge := some c, attempts := n } }).emit (.jtag c)

/-- DBG_RESP: slot, key of 97 B, signature of 96 B. -/
def Dev.debugResponse (slot : Nat) (key sig : List Byte) (d : Dev) : Dev :=
  if !d.servesDebug ∨ 3 ≤ d.sec.failed then d
  else
    let digest := leNat (sha384 key)
    let fused := ((List.range 12).map (fun i => (d.word (R.SEC_OWNER_DIG slot i)).toNat * 2 ^ (32 * i))).sum
    let ok := match d.sec.challenge with
      | some c => decide (slot < 4) && digest == fused && hasBit (d.get F.SEC_STATUS_slots_prog) slot &&
          !hasBit (d.get F.SEC_STATUS_slots_rev) slot && ecdsaVerify key (sha384 c) sig
      | none => false
    let d1 := { d with sec := { d.sec with challenge := none } }
    if ok then (d1.put F.SEC_STATUS_debug_open 1).fault R.SEC_EVENT 5 E.SEC_DEBUG_OPEN slot
    else ({ d1 with sec := { d1.sec with failed := d1.sec.failed + 1 } }).event R.SEC_EVENT 6

/-! ### Tamper (R446, R447) -/

/-- The key fields of the PTP keys and the valid bits of the associations cleared (R446). -/
def Dev.zeroize (d : Dev) : Dev :=
  let keys := fun (a : Nat) => decide (ptpKeyBase ≤ a) && decide (a < ptpKeyBase + 64 * 16) && decide (32 ≤ (a - ptpKeyBase) % 64)
  let valid := fun (a : Nat) => decide (saBase ≤ a) && decide (a < saBase + 64 * 8192) && (a - saBase) % 64 == 3
  let d1 := { d with mem := d.mem.filter (fun c => !keys c.1) }
  let at_ := (d1.mem.filter (fun c => valid c.1)).map (·.1)
  (Dev.each at_ (fun a e => e.store a [e.byte a &&& 0x7F]) d1).put F.SEC_STATUS_zeroized 1

/-- A tamper source trips (R446). -/
def Dev.tamper (s : Nat) (d : Dev) : Dev :=
  if !hasBit d.sec.tamperEn s then d
  else
    let d1 := ((d.sat F.SEC_TAMPER_CNT 1).put F.SEC_TAMPER_LAST_source s).fault R.SEC_EVENT 4 E.SEC_TAMPER s
    d1.when (d1.policyBit Policy.zeroize) Dev.zeroize

/-- The words of SEC_PAIR_KEY changed (Table SEC-6). -/
def Dev.pairKeySync (d : Dev) : Dev := d.put F.SEC_STATUS_pair_key (bit (d.pairKey != 0))

end Sys2Proof.Machine
end

