-- ==== Sys2Proof/Machine/Observe.lean ====
section
/-! DEFINITION. The harvester (R481–R484), the cairn ring's writes, arming and triggers (R487–R490), the in-service tests
(R491, R492). -/

namespace Sys2Proof.Machine

/-! ### The harvester -/

/-- The ring's slots and the slot stride (Table CNT-6). -/
def Dev.harvestSlots (d : Dev) : Nat := max 2 (min 1024 (d.get F.CNT_HARV_SLOTS))

/-- The slot stride, bits 5:0 of which read 0. -/
def Dev.harvestStride (d : Dev) : Nat := d.get F.CNT_HARV_SLOT_BYTES / 64 * 64

/-- CNT_HARV_STATUS.running follows the enable and the readiness (R481, Table TOP-2). -/
def Dev.harvestSync (d : Dev) : Dev :=
  d.put F.CNT_HARV_STATUS_running (bit (d.flag F.CNT_CTRL_harv_en && d.flag F.TOP_READY_cnt))

/-- Why a snapshot is skipped (R484). -/
def Dev.skipReason (d : Dev) : Option Nat :=
  if (d.get F.CNT_HARV_HEAD + 1) % d.harvestSlots = d.get F.CNT_HARV_TAIL % d.harvestSlots then some 1
  else if d.obs.record.isSome then some 2
  else if d.harvestStride < d.get F.CNT_HARV_REC_LEN then some 3
  else if !d.flag F.TOP_READY_hif ∨ !d.host.busMaster then some 4
  else none

/-- The owner of a counter is off or absent (R482, R479). -/
def Dev.ctrAway (d : Dev) (i : Nat) : Bool := !(d.ctrPresent i && d.domainOn (ctrDomain i))

/-- The status byte of a counter in a record (R482). -/
def Dev.ctrStatus (d : Dev) (i : Nat) : Byte :=
  let c := d.ctr i
  BitVec.ofNat 8 (bit c.ovf + 2 * bit c.wrapped + 4 * bit (c.cleared || (d.groupClears i).2) + 8 * bit (d.ctrAway i) +
    16 * (d.ctrGen i % 16))

/-- The counters out of the harvest set. -/
def Dev.leftOut (d : Dev) : List Nat := (d.obs.ctrs.filter (fun c => !c.2.harvest)).map (·.1)

/-- The record of a snapshot (R482, Table CNT-5). `manual` says that CNT_CTRL.now asked for it. -/
def Dev.recordBytes (manual : Bool) (d : Dev) : List Byte :=
  let set := d.harvestSet
  let t := d.now
  let n := set.length
  let marks := bit d.timeReady + 2 * bit (d.obs.lastSet != d.leftOut) + 4 * bit manual
  let head := leBytes 4 0x53544E43 ++ leBytes 4 d.obs.seqNo ++ leBytes 2 (fracOf t) ++ leBytes 4 (nsOf t) ++
    leBytes 6 (secOf t) ++ [BitVec.ofNat 8 (d.get F.TBS_STATUS_epoch), BitVec.ofNat 8 marks, 0, 0] ++ leBytes 4 n ++
    leBytes 4 d.obs.skipsSince ++ leBytes 4 (recordLen n) ++ List.replicate 28 0
  let body := set.flatMap (fun i => leBytes 8 (d.ctrRead i)) ++ set.map d.ctrStatus
  head ++ body ++ List.replicate (recordLen n - 64 - 9 * n) 0

/-- The marks since the last snapshot fall (R482). -/
def Dev.clearMarks (d : Dev) : Dev :=
  let d1 := Dev.each (d.obs.ctrs.map (·.1)) (fun i e => e.setCtr i { e.ctr i with wrapped := false, cleared := false }) d
  { d1 with obs := { d1.obs with clears := d1.obs.clears.map (fun x => (x.1, (x.2.1, false))) } }

/-- A snapshot is taken or skipped (R482, R484). -/
def Dev.takeSnapshot (manual : Bool) (d : Dev) : Dev :=
  let d0 := { d with obs := { d.obs with seqNo := (d.obs.seqNo + 1) % 2 ^ 32 } }
  match d0.skipReason with
  | some r =>
    let d1 := ((d0.sat F.CNT_HARV_SKIP 1).put F.CNT_HARV_STATUS_reason r).fault R.CNT_EVENT 1 E.CNT_SKIP r
    { d1 with obs := { d1.obs with skipsSince := d1.obs.skipsSince + 1 } }
  | none =>
    let d1 := d0.count (devCtr 7) 1
    let rec_ : Record := ⟨d1.get F.CNT_HARV_HEAD, d1.recordBytes manual⟩
    let d2 := (d1.put F.CNT_HARV_STATUS_writing 1).clearMarks
    { d2 with obs := { d2.obs with record := some rec_, skipsSince := 0, lastSet := d2.leftOut } }

/-- A snapshot instant that has come, or the edge after a write of CNT_CTRL.now (R481). -/
def Dev.snapshot (d : Dev) : Dev :=
  let manual := d.flag F.CNT_CTRL_now
  if !d.flag F.TOP_READY_cnt ∨ !(manual || d.snapDue) then d
  else ((d.when (!manual) Dev.markSnap).put F.CNT_CTRL_now 0).takeSnapshot manual

/-- CNT_CTRL.now written 1: one snapshot at the next core-clock edge (R481). -/
def Dev.snapshotNow (d : Dev) : Dev := (d.put F.CNT_CTRL_now 1).snapshot

/-- The record is written, or the HIF reports an error on its write (R483, R484). -/
def Dev.recordDone (ok : Bool) (d : Dev) : Dev :=
  match d.obs.record with
  | none => d
  | some r =>
    let d1 := { d.put F.CNT_HARV_STATUS_writing 0 with obs := { d.obs with record := none } }
    if ok then
      let addr := d1.pair R.CNT_HARV_RING_LO R.CNT_HARV_RING_HI + r.slot * d1.harvestStride
      (((d1.emit (.record addr r.bytes)).put F.CNT_HARV_HEAD ((r.slot + 1) % d1.harvestSlots)).put F.CNT_HARV_SEQ
        (leNat (slice r.bytes 4 4))).event R.CNT_EVENT 0
    else d1.fault R.CNT_EVENT 3 E.CNT_DMA_ERR 0

/-- CNT_CTRL written (R480, R481). -/
def Dev.writeCntCtrl (w : Word) (d : Dev) : Dev :=
  let rises := w.getLsbD 0 && !d.flag F.CNT_CTRL_harv_en
  let d1 := (d.put F.CNT_CTRL_harv_en (bits w 0 1)).put F.CNT_CTRL_freeze (bits w 1 1)
  let d2 := if rises then ({ d1 with obs := { d1.obs with seqNo := 0, skipsSince := 0, snapStart := d1.tbs.edges } }).markSnap else d1
  if w.getLsbD 4 then d2.harvestSync.snapshotNow else d2.harvestSync

/-! ### The cairn ring -/

/-- Capture after a trigger stops once its entries are written (R489). -/
def Dev.cairnStop (d : Dev) : Dev :=
  let filled := d.get F.CRG_STATUS_state == 1 && d.get F.CRG_CTRL_mode == 2 && !d.flag F.CRG_CTRL_dest &&
    decide (16384 ≤ d.get F.CRG_STATUS_count)
  let posted := d.get F.CRG_STATUS_state == 2 && d.obs.postLeft == 0 && d.obs.fifo.isEmpty
  if filled || posted then (d.put F.CRG_STATUS_state 3).event R.CRG_EVENT 1 else d

/-- The oldest entry of the FIFO is written to the ring (R487–R489). -/
def Dev.cairnWrite (d : Dev) : Dev :=
  match d.obs.fifo with
  | [] => d
  | c :: rest =>
    let e := d.get F.CRG_HEAD
    let d1 := { d with obs := { d.obs with fifo := rest } }
    let d2 := if d.flag F.CRG_CTRL_dest then d1.emit (.cairn (d.pair R.CRG_HRING_LO R.CRG_HRING_HI + 160 * e) c.bytes)
      else d1.store (ringBase + 256 * e) (c.bytes ++ List.replicate 96 0)
    ((d2.put F.CRG_HEAD ((e + 1) % d.ringSize)).sat F.CRG_STATUS_count 1).cairnStop

/-- CRG_CTRL.arm written 1 (R489). -/
def Dev.cairnArm (d : Dev) : Dev :=
  if d.capturing then d
  else
    let d1 := (((d.clearMem ringBase (ringBase + 256 * 16384)).put F.CRG_HEAD 0).setWord R.CRG_STATUS 0).put F.CRG_TRIG_IDX 0
    let d2 := { d1 with obs := { d1.obs with fifo := [], entryNo := 0, trigNext := false, postLeft := 0 } }
    d2.put F.CRG_STATUS_state (bit (d2.get F.CRG_CTRL_mode != 0))

/-- A trigger that is no candidate: the fault trigger, the host's, the armed time (R490). -/
def Dev.triggerBy (src : Nat) (d : Dev) : Dev := if d.mayTrigger src then d.trigger.cairnStop else d

/-- The time base has reached CRG_TRIG_TIME, whose seconds compare as 48 bits with the upper 16 at 0 (R490, R101). -/
def Dev.trigTimeCome (d : Dev) : Bool :=
  decide (d.get F.CRG_TRIG_TIME_SEC * 1000000000 + d.get F.CRG_TRIG_TIME_NS ≤ d.nowNs)

/-- The trigger of the armed time (R490). -/
def Dev.timeTrigger (d : Dev) : Dev := if d.trigTimeCome then d.triggerBy 3 else d

/-- The mode and the destination written (R489). -/
def Dev.cairnMode (mode dest : Nat) (d : Dev) : Dev :=
  if mode = 0 then ((d.put F.CRG_CTRL_mode 0).put F.CRG_CTRL_dest dest).put F.CRG_STATUS_state 0
  else if !d.capturing then (d.put F.CRG_CTRL_mode mode).put F.CRG_CTRL_dest dest
  else if mode = d.get F.CRG_CTRL_mode ∧ dest = d.get F.CRG_CTRL_dest then d
  else d.event R.CRG_EVENT 2

/-- CRG_CTRL written: the mode, then arm, then the host's trigger (Table CRG-2). -/
def Dev.writeCrgCtrl (w : Word) (d : Dev) : Dev :=
  let d1 := d.cairnMode (bits w 0 2) (bits w 2 1)
  let d2 := if w.getLsbD 4 then d1.cairnArm else d1
  if w.getLsbD 5 then d2.triggerBy 2 else d2

/-! ### In-service test -/

/-- The target of a test operation is absent (R491, Table TST-1). -/
def Dev.testAbsent (d : Dev) (op : Nat) : Bool :=
  let u := d.get F.TST_TARGET_unit
  match op with
  | 1 => 4 ≤ u || !d.blockPresent 17
  | 2 => 12 ≤ d.get F.TST_TARGET_engine || !d.blockPresent 16 || !d.regionPresent (d.get F.TST_TARGET_cluster)
  | 3 => 92 ≤ u || !d.tdcPresent u
  | 4 => if u < 64 then !d.lanePresent u else 80 ≤ u || !d.blockPresent 13 || !d.regionPresent Region.time
  | 5 => !d.blockPresent 20
  | 6 => 7 ≤ u || !d.blockPresent (if u < 5 then 16 else 23)
  | _ => false

/-- No entry of a mirrored memory is valid (Table TST-1, Table RDN-7). -/
def Dev.memoryUnused (d : Dev) (code : Nat) : Bool :=
  let k := nthD [15, 31, 3, 3, 0, 2, 0] code 0
  match mirrored code with
  | some (base, size, count) => !d.anyValid base size count k
  | none => false

/-- The precondition of a test operation holds (Table TST-1). -/
def Dev.testReady (d : Dev) (op : Nat) : Bool :=
  let u := d.get F.TST_TARGET_unit
  match op with
  | 1 => d.flag F.TOP_READY_bpm
  | 2 => d.retired (d.get F.TST_TARGET_cluster) (d.get F.TST_TARGET_engine)
  | 3 => !d.flag (F.TDC_STATUS_fault u) && !d.flag (F.TDC_STATUS_trimming u)
  | 4 =>
    if u < 64 then d.flag (F.HSL_STATUS_cdr_lock u) && decide (d.get (F.HSL_STATUS_pwr_state u) ≤ Lane.l1)
    else (d.rope (u - 64)).link.cdr && d.ropeState (u - 64) == Rlk.run
  | 5 => !d.capturing || d.flag F.CRG_CTRL_dest
  | 6 => d.memoryUnused u
  | _ => false

/-- The start of a test operation refused (R491). -/
def Dev.testRefused (reason : Nat) (d : Dev) : Dev :=
  let d1 := (d.put F.TST_STATUS_reason reason).event R.TST_EVENT 2
  if reason = 1 then d1 else (d1.put F.TST_STATUS_state 4).put F.TST_CTRL_go 0

/-- The buffers a sweep covers (Table TST-1). -/
def Dev.sweepRange (d : Dev) : List Nat :=
  let k := d.get F.TST_TARGET_unit
  let size := (d.pool k).size
  let lo := d.get F.TST_RANGE
  let n := d.get F.TST_COUNT
  let hi := if n = 0 then size else min size (lo + n)
  ((List.range (hi - lo)).map (fun i => handle k (lo + i)))

/-- What a test operation does at its start: the sweep's list of free buffers, and the memory a destructive test leaves
cleared (Table TST-1). -/
def Dev.testBegin (op : Nat) (d : Dev) : Dev :=
  match op with
  | 1 =>
    let free := d.sweepRange.filter (fun h => !(d.buf h).owned)
    let d1 := d.put (F.TST_RES 1) (d.sweepRange.length - free.length)
    { d1 with obs := { d1.obs with sweep := free } }
  | 5 => d.clearMem ringBase (ringBase + 256 * 16384)
  | 6 =>
    match mirrored (d.get F.TST_TARGET_unit) with
    | some (base, size, count) =>
      let d1 := d.clearMem base (base + size * count)
      { d1 with obs := { d1.obs with testMem := some (base, base + size * count) } }
    | none => d
  | _ => d

/-- What a destructive test leaves at its end: the ring, or the memory tested, reads 0 (Table TST-1). -/
def Dev.testWipe (op : Nat) (d : Dev) : Dev :=
  if op = 5 then d.clearMem ringBase (ringBase + 256 * 16384)
  else match d.obs.testMem with
    | some (lo, hi) => d.clearMem lo hi
    | none => d

/-- TST_CTRL.go written 1 (R491). -/
def Dev.testGo (d : Dev) : Dev :=
  let op := d.get F.TST_CTRL_op
  if d.obs.testing.isSome then d.testRefused 1
  else if op = 0 ∨ 7 ≤ op then d.testRefused 2
  else if d.testAbsent op then d.testRefused 3
  else if !d.testReady op then d.testRefused 2
  else
    let d1 := ((d.put F.TST_STATUS_state 1).put F.TST_STATUS_reason 0).put F.TST_CTRL_go 1
    let d2 := Dev.each (List.range 4) (fun i e => e.put (F.TST_RES i) 0) d1
    let d3 := d2.testBegin op
    { d3 with obs := { d3.obs with testing := some op, testUnit := (d3.word R.TST_TARGET).toNat } }

/-- The running operation ends without a result: an abort, a warm or a watchdog reset (R491). -/
def Dev.testAbort (d : Dev) : Dev :=
  if d.obs.testing.isNone then d
  else
    let d1 := (Dev.each (List.range 4) (fun i e => e.put (F.TST_RES i) 0) d).put F.TST_CTRL_go 0
    { d1.put F.TST_STATUS_state 5 with obs := { d1.obs with testing := none, testMem := none, sweep := [] } }

/-- TST_CTRL written: abort before go (Table TST-3). -/
def Dev.writeTstCtrl (w : Word) (d : Dev) : Dev :=
  let d1 := d.put F.TST_CTRL_op (bits w 0 4)
  let d2 := if w.getLsbD 30 then d1.testAbort else d1
  if w.getLsbD 31 then d2.testGo else d2

/-- A test operation started by a write of TST_CTRL with its code and go (R491). -/
def Dev.startTest (op : Nat) (d : Dev) : Dev := d.writeTstCtrl (BitVec.ofNat 32 (2 ^ 31 + op))

/-- A buffer that failed its test is quarantined (R492). -/
def Dev.quarantine (h : Nat) (d : Dev) : Dev :=
  let d1 := d.setBuf h { owned := true, tag := 0xFF }
  let d2 := ({ d1 with bpm := { d1.bpm with quarantined := addOnce h d1.bpm.quarantined } }).syncPool (handlePool h)
  let d3 := (d2.put F.TST_QUAR_CNT (d2.get F.TST_QUAR_CNT + 1)).raise E.TST_MEM_FAIL h
  match (List.range 16).find? (fun n => !d3.flag (F.TST_QUAR_valid n)) with
  | some n => (d3.put (F.TST_QUAR_handle n) h).put (F.TST_QUAR_valid n) 1
  | none => d3.put F.TST_STATUS_quar_ovf 1

/-- A test operation completes (Table TST-1): the handles that failed a sweep, or its results. -/
def Dev.testDone (failed : List Nat) (r0 r1 : Word) (d : Dev) : Dev :=
  match d.obs.testing with
  | none => d
  | some op =>
    let target := BitVec.ofNat 32 d.obs.testUnit
    let bad := (failed.filter d.obs.sweep.contains).eraseDups
    let fail := match op with
      | 1 => bad != []
      | 3 => decide (r0.toInt < -3) || decide (3 < r0.toInt)
      | 4 => false
      | _ => r0 != 0
    let d1 := match op with
      | 1 => Dev.each bad Dev.quarantine
          ((d.put (F.TST_RES 0) d.obs.sweep.length).put (F.TST_RES 2) bad.length)
      | 4 => (d.put (F.TST_RES 0) r0.toNat).put (F.TST_RES 1) r1.toNat
      | _ => d.put (F.TST_RES 0) r0.toNat
    let d2 := match op with
      | 2 => d1.when fail (Dev.raise E.TST_LOGIC_FAIL (16 * bits target 12 3 + bits target 8 4))
      | 5 => d1.when fail (Dev.raise E.TST_MEM_FAIL r0.toNat)
      | 6 => d1.when fail (Dev.raise E.TST_MEM_FAIL r0.toNat)
      | _ => d1
    let d3 := (d2.put F.TST_STATUS_state (if fail then 3 else 2)).put F.TST_CTRL_go 0
    let d4 := (d3.event R.TST_EVENT 0).when fail (Dev.event R.TST_EVENT 1)
    let d5 := d4.testWipe op
    { d5 with obs := { d5.obs with testing := none, testMem := none, sweep := [] } }

end Sys2Proof.Machine
end

