-- ==== Sys2Proof/Machine/Fields.lean ====
section
/-! DEFINITION. Fields as the resets, the image and the update groups change them: restoring fields to their reset values (R13,
R14), writing a register-value pair (R39), shadows and their firing (R97–R100, R104, R108). -/

namespace Sys2Proof.Machine

/-! ### Restoring fields -/

/-- The fields a host or an image sets, which parity covers: those of Type RW, WO and WL (R39, R106). -/
def FieldRow.settable (f : FieldRow) : Bool := f.ty == .rw || f.ty == .wo || f.ty == .wl

/-- Which fields a reset restores: by the register's row, its first index and the field. -/
abbrev Reach := RegRow → Nat → FieldRow → Bool

/-- A word with the fields a reset reaches at their reset values. -/
def restoreWord (reach : Reach) (a : Nat) (w : Word) : Word :=
  match rowAt a with
  | none => w
  | some (r, i, _) =>
    let v := resetWord a
    r.fields.foldl (fun x f => if reach r i f then setBits x f.lsb f.width (bits v f.lsb f.width) else x) w

/-- A buffered field of the word at `a` is one a reset reaches. -/
def reachesShadow (reach : Reach) (a : Nat) : Bool :=
  match rowAt a with
  | none => false
  | some (r, i, _) => r.fields.any (fun f => f.upd != .i && reach r i f)

/-- A write-once field of the word at `a` is one a reset reaches. -/
def reachesOnce (reach : Reach) (a : Nat) : Bool :=
  match rowAt a with
  | none => false
  | some (r, i, _) => r.fields.any (fun f => f.ty == .wo && reach r i f)

/-- A field of the word at `a` that parity covers is one a reset reaches. -/
def reachesSettable (reach : Reach) (a : Nat) : Bool :=
  match rowAt a with
  | none => false
  | some (r, i, _) => r.fields.any (fun f => f.settable && reach r i f)

/-- The registers of some pages with the fields a reset reaches restored, their shadows with them, and the parity of the words
written anew right again (R13, R100, R106). -/
def Dev.restore (pages : Nat → Bool) (reach : Reach) (d : Dev) : Dev :=
  let hit := fun (a : Nat) => pages (a / 0x10000)
  let csr := (d.csr.map (fun c => if hit c.1 then (c.1, restoreWord reach c.1 c.2) else c)).filter
    (fun c => c.2 != resetWord c.1)
  let shadow := d.shadow.filter (fun c => !(hit c.1 && reachesShadow reach c.1))
  let written := d.rst.written.filter (fun a => !(hit a && reachesOnce reach a))
  let parity := d.parity.filter (fun a => if a < 2 ^ 28 then !(hit a && reachesSettable reach a)
    else !(hit (a - 2 ^ 28) && reachesShadow reach (a - 2 ^ 28)))
  { d with csr := csr, shadow := shadow, parity := parity, rst := { d.rst with written := written } }

/-- A warm, block or port reset restores the fields with Keep H and N (R13, R14). -/
def shallow (f : FieldRow) : Bool := f.keep == .h || f.keep == .n

/-! ### Update groups (R12, R97, R98) -/

/-- The number of a register group: the register's address at its first instance, and the region (R12). -/
def groupKey (pg off region : Nat) : Nat := 16 * (0x10000 * pg + off) + region

/-- The update group of the register at an address, as the image maps it. -/
def Dev.ugOf (d : Dev) (a : Nat) : Nat :=
  match rowAt a with
  | none => 0
  | some (r, i, _) =>
    let pg := a / 0x10000
    Sparse.getD d.img.ug (groupKey pg r.off (instRegion pg r.kind i)) 0

/-- HIF_UG_PEND follows the shadow writes that no firing has reached (R100). -/
def Dev.syncPend (d : Dev) : Dev :=
  d.put F.HIF_UG_PEND (d.shadow.foldl (fun m s => if s.2.2 then m else orBit m (d.ugOf s.1)) 0)

/-- The shadow of the register at `a` (R97): the word written, or the active word. -/
def Dev.shadowWord (d : Dev) (a : Nat) : Word :=
  match Sparse.get? d.shadow a with
  | some (w, _) => w
  | none => d.word a

/-- A shadow written, the write waiting for a firing (R97, R106). -/
def Dev.setShadow (a : Nat) (w : Word) (d : Dev) : Dev :=
  ({ d with shadow := Sparse.put d.shadow a (w, false)
            parity := d.parity.filter (fun x => x != a + 2 ^ 28) }).syncPend

/-- A parity mismatch on the word at `a` (R108). -/
def Dev.parityHit (a : Nat) (d : Dev) : Dev :=
  ((d.put F.HIF_PAR_ADDR a).sat F.HIF_PAR_CNT 1).raise (E.CFG_PARITY (a / 0x10000)) a

/-- What follows a new active value of the buffered register at `a` (R335, R346, R464): `old` is the word before. -/
def Dev.fired (a : Nat) (old : Word) (d : Dev) : Dev :=
  match a / 0x10000 with
  | 9 => match (List.range 32).find? (fun s => R.REF_SLOT_CFG s == a) with
    | some s => d.slotStrobed s old
    | none => d
  | 23 => if R.MSC_PORT_CFG 0 ≤ a ∧ (a - R.MSC_PORT_CFG 0) % 64 = 0 ∧ bits (d.word a) 0 2 ≠ 0 then d.wake 3 else d
  | _ => d

/-- The pulse output whose configuration the register at `a` holds. -/
def ppsOfAddr (a : Nat) : Option Nat :=
  (List.range 4).find? (fun k => R.OUT_PPS_CFG k == a || R.OUT_PPS_PERIOD k == a || R.OUT_PPS_OFS_NS k == a ||
    R.OUT_PPS_OFS_FRAC k == a || R.OUT_PPS_WIDTH k == a)

/-- What the firing of a register group starts (R247, R273, R401): gate lists, the time adjustment, pulse outputs of which a
word was written. -/
def Dev.afterFiring (mask : Nat) (written : List Nat) (d : Dev) : Dev :=
  let gates := (List.range 81).filter (fun p => p != 64 && d.portPresent p && d.blockPresent 18 &&
    hasBit mask (d.ugOf (R.QSC_GCL_CTRL p)))
  let d1 := Dev.each gates Dev.gclFire d
  let d2 := Dev.each ((List.range 4).filter (fun k => written.any (fun a => ppsOfAddr a == some k))) Dev.ppsFired d1
  if d2.blockPresent 6 && hasBit mask (d2.ugOf R.TBS_ADJ_CTRL) && d2.get F.TBS_ADJ_CTRL_op != 0 then
    d2.adjust (d2.get F.TBS_ADJ_CTRL_op)
  else d2

/-- One shadow of a fired group copied to its active value, whose parity is then right, or left for its own (R98, R106, R108). -/
def Dev.copyShadow (a : Nat) (d : Dev) : Dev :=
  match Sparse.get? d.shadow a with
  | none => if d.parity.contains (a + 2 ^ 28) then d.parityHit a else d
  | some (w, _) =>
    if d.parity.contains (a + 2 ^ 28) then ({ d with shadow := Sparse.put d.shadow a (w, true) }).parityHit a
    else
      let old := d.word a
      let new := match rowAt a with
        | some (r, _, _) => r.fields.foldl (fun x f =>
            if f.upd == .i then x else setBits x f.lsb f.width (bits w f.lsb f.width)) old
        | none => w
      (({ d with shadow := Sparse.del d.shadow a, parity := d.parity.filter (· != a) }).setWord a new).fired a old

/-- The update groups of a mask fire on one edge (R98, R104). -/
def Dev.fireGroups (mask : Nat) (d : Dev) : Dev :=
  let pending := (d.shadow.map (·.1)).filter (fun a => hasBit mask (d.ugOf a))
  let spoilt := ((d.parity.filter (2 ^ 28 ≤ ·)).map (· - 2 ^ 28)).filter
    (fun a => hasBit mask (d.ugOf a) && !pending.contains a)
  let d1 := Dev.each (pending ++ spoilt) Dev.copyShadow d
  (d1.afterFiring mask pending).syncPend

/-! ### Register-value pairs (R39) -/

/-- A pair of a register-value section written directly, the shadow with the active value (R39, R48, R98). -/
def Dev.applyPair (a : Nat) (v : Word) (d : Dev) : Dev :=
  match rowAt a with
  | none => d
  | some (r, _, _) =>
    let old := d.word a
    let new := r.fields.foldl (fun x f => if f.settable then setBits x f.lsb f.width (bits v f.lsb f.width) else x) old
    let once := r.fields.any (fun f => f.ty == .wo)
    let d1 := { d.setWord a new with
      shadow := Sparse.del d.shadow a
      parity := d.parity.filter (fun x => x != a && x != a + 2 ^ 28)
      rst := { d.rst with written := if once then addOnce a d.rst.written else d.rst.written } }
    if r.fields.any (fun f => f.upd != .i) then d1.fired a old else d1

/-- The pairs of a register-value section, each 4 bytes of address and 4 of value (R39). -/
def regPairs : List Byte → List (Nat × Word)
  | a0 :: a1 :: a2 :: a3 :: v0 :: v1 :: v2 :: v3 :: rest =>
    (leNat [a0, a1, a2, a3], BitVec.ofNat 32 (leNat [v0, v1, v2, v3])) :: regPairs rest
  | _ => []

/-- The pairs of a section applied in order; the pending writes of their shadows end (R100). -/
def Dev.applyPairs (l : List (Nat × Word)) (d : Dev) : Dev := (Dev.each l (fun x e => e.applyPair x.1 x.2) d).syncPend

end Sys2Proof.Machine
end

