-- ==== Sys2Proof/Machine/Image.lean ====
section
/-! DEFINITION. The structure image (R32–R60): its layout, the checks of Table IMG-4, its application, partial re-structure. -/

namespace Sys2Proof.Machine

/-! ### Layout (R34–R38) -/

/-- A little-endian number of `n` bytes at offset `o`. -/
def numAt (bs : List Byte) (o n : Nat) : Nat := leNat (slice bs o n)

/-- An entry of the section table (R37). -/
structure SecEntry where
  type : Nat
  region : Nat
  off : Nat
  len : Nat

/-- The section table (R34, R37). -/
def secTable (bs : List Byte) : List SecEntry :=
  (List.range (numAt bs 0x0C 2)).map (fun i =>
    let o := 0x100 + 16 * i
    ⟨numAt bs o 2, numAt bs (o + 2) 1, numAt bs (o + 4) 4, numAt bs (o + 8) 4⟩)

/-- Sections by type and region. -/
abbrev Secs := List (Nat × Nat × List Byte)

/-- The sections of an image. -/
def sections (bs : List Byte) : Secs := (secTable bs).map (fun e => (e.type, e.region, slice bs e.off e.len))

/-- The payload of a section. -/
def Secs.find? (s : Secs) (type region : Nat) : Option (List Byte) :=
  (List.find? (fun x => x.1 == type && x.2.1 == region) s).map (fun x => x.2.2)

/-- The payload of a section, empty where there is none. -/
def Secs.get (s : Secs) (type region : Nat) : List Byte := (Secs.find? s type region).getD []

/-- The section types with the kind of their region (0 port group, 1 time, 2 global) and whether they are required (Table
IMG-3). -/
def sectionTypes : List (Nat × Nat × Bool) :=
  [(0x0001, 0, true), (0x0002, 0, true), (0x0003, 0, true), (0x0004, 0, false), (0x0100, 1, true), (0x0101, 1, false),
   (0x0200, 2, true), (0x0201, 2, true), (0x0202, 2, true), (0x0203, 2, true), (0x0204, 2, true), (0x0205, 2, true),
   (0x0206, 2, true), (0x0207, 2, false)]

/-- The regions of a kind. -/
def kindRegions (k : Nat) : List Nat := if k = 0 then List.range 8 else if k = 1 then [8] else [9]

/-! ### The header and the table (Table IMG-4, checks 1–6) -/

/-- The image length field. -/
def imageLen (bs : List Byte) : Nat := numAt bs 8 4

/-- The image is partial. -/
def isPartial (bs : List Byte) : Bool := numAt bs 0x0E 1 == 1

/-- Check 1: magic, then format and header length, then the header fields, the first byte of owner_key among them (R36, R42; log
entry 85). -/
def checkHeader (bs : List Byte) : Option Nat :=
  let zero := fun (o n : Nat) => (slice bs o n).all (· == 0)
  let scope := numAt bs 0x0E 1
  let region := numAt bs 0x0F 1
  let ok := zero 0x1D 3 && zero 0xB1 15 && zero 0xC4 60 && numAt bs 0x1B 1 < 2 && numAt bs 0x1C 1 ≤ 2 && numAt bs 0x14 4 != 0 &&
    numAt bs 0x50 1 == 4 && scope ≤ 1 && (if scope = 0 then region == 0xFF && zero 0x20 48 else region ≤ 7)
  if numAt bs 0 4 ≠ 0x4B464C53 then some 0x01
  else if numAt bs 4 2 ≠ 1 ∨ numAt bs 6 2 ≠ 0x100 then some 0x02
  else if !ok then some 0x14
  else none

/-- Check 3: part, stepping and variant against TOP_ID. -/
def Dev.checkPart (d : Dev) (bs : List Byte) : Bool :=
  let id := d.word R.TOP_ID
  numAt bs 0x10 2 == 0x6480 && numAt bs 0x12 1 == bits id 24 8 && hasBit (numAt bs 0x13 1) (bits id 4 4)

/-- Check 4: the section table's bounds, alignment, overlap and count (R36, R37). -/
def checkTable (bs : List Byte) : Bool :=
  let n := numAt bs 0x0C 2
  let len := imageLen bs
  let tab := 0x100 + 16 * n
  let es := secTable bs
  let limit := if isPartial bs then 32 else 255
  let apart := fun (x y : SecEntry) => x.off + x.len ≤ y.off || y.off + y.len ≤ x.off
  let pairs := (List.range n).all (fun i => (List.range i).all (fun j =>
    match es[i]?, es[j]? with | some x, some y => apart x y | _, _ => true))
  decide (1 ≤ n) && decide (n ≤ limit) && decide (tab + 96 ≤ len) &&
    es.all (fun e => e.off % 16 == 0 && decide (tab ≤ e.off) && decide (e.off + e.len + 96 ≤ len)) && pairs

/-- Check 6: regions and occurrences (R38). -/
def checkRegions (bs : List Byte) : Bool :=
  let es := secTable bs
  let own := numAt bs 0x0F 1
  let legal := es.all (fun e => sectionTypes.any (fun t => t.1 == e.type && (kindRegions t.2.1).contains e.region))
  let once := es.all (fun e => (es.filter (fun x => x.type == e.type && x.region == e.region)).length == 1)
  let regions := if isPartial bs then [own] else 9 :: es.map (·.region)
  let inside := !isPartial bs || es.all (fun e => e.region == own)
  let full := sectionTypes.all (fun t => !t.2.2 || (kindRegions t.2.1).all (fun r =>
    !regions.contains r || es.any (fun e => e.type == t.1 && e.region == r)))
  legal && once && inside && full

/-! ### Keys and signature (checks 7–11) -/

/-- Check 7: the key slot (R41). -/
def Dev.checkSlot (d : Dev) (bs : List Byte) : Bool :=
  let slot := numAt bs 0x1A 1
  if d.get F.SEC_STATUS_slots_prog = 0 then slot == 0xFF else decide (slot < 4) && d.goodSlots.contains slot

/-- The digest fused in an owner slot. -/
def Dev.ownerDigest (d : Dev) (s : Nat) : List Byte :=
  (List.range 12).flatMap (fun i => leBytes 4 (d.word (R.SEC_OWNER_DIG s i)).toNat)

/-- Check 8: the owner key's digest (R41). -/
def Dev.checkKey (d : Dev) (bs : List Byte) : Bool :=
  d.get F.SEC_STATUS_slots_prog == 0 || sha384 (slice bs 0x50 97) == d.ownerDigest (numAt bs 0x1A 1)

/-- The digest of an image (R40). -/
def imageDigest (bs : List Byte) : List Byte := sha384 (bs.take (imageLen bs - 96))

/-- The digest of the applied image as IMG_HASH holds it. -/
def Dev.imgHash (d : Dev) : List Byte := (List.range 12).flatMap (fun i => leBytes 4 (d.word (R.IMG_HASH i)).toNat)

/-- Check 11: a partial image was built against the applied one. -/
def Dev.checkBase (d : Dev) (bs : List Byte) : Bool :=
  !isPartial bs || (d.applied && slice bs 0x20 48 == d.imgHash)

/-! ### What the sections decide, as registers -/

/-- An Ethernet port's mode is one of Table HSL-2. -/
def portMode (x : PortPlan) : Bool :=
  [(0, 1, 0, [0]), (1, 1, 1, [0, 1]), (2, 1, 2, [2]), (3, 4, 1, [0, 1]), (3, 2, 2, [2]), (3, 1, 3, [2]), (4, 4, 2, [2]),
   (4, 2, 3, [2]), (5, 8, 2, [2]), (5, 4, 3, [2])].any
    (fun (m : Nat × Nat × Nat × List Nat) =>
      m.1 == x.speed && m.2.1 == x.lanes && m.2.2.1 == x.rate && m.2.2.2.contains x.fec)

/-- The lanes of a planned port. -/
def portSpan (x : PortPlan) : List Nat := (List.range x.lanes).map (x.port + ·)

/-- The fixed latencies of a mode in ps: receive, transmit (Table TBS-2). -/
def ethFixed (speed lanes fec : Nat) : Nat × Nat :=
  match speed, lanes, fec with
  | 0, _, _ => (118400, 163200)
  | 1, _, 0 => (52480, 71680)
  | 1, _, _ => (282880, 107520)
  | 2, _, _ => (160640, 64000)
  | 3, 4, 0 => (27264, 41088)
  | 3, 4, _ => (91264, 55168)
  | 3, 2, _ => (92544, 55808)
  | 3, _, _ => (90624, 54528)
  | 4, 4, _ => (62080, 40320)
  | 4, _, _ => (60800, 39680)
  | _, 8, _ => (47360, 32640)
  | _, _, _ => (46080, 32000)

/-- Picoseconds in 1/65,536 ns, rounded to nearest (R292). -/
def psUnits (ps : Nat) : Nat := (65536 * ps + 500) / 1000

/-- A port of a LANE_MAP section in the registers (R116, R118, R292, Table MAC-1). -/
def Dev.planPort (x : PortPlan) (d : Dev) : Dev :=
  let d1 := Dev.each (portSpan x) (fun l e =>
    ((e.put (F.HSL_CFG_rate l) x.rate).put (F.HSL_CFG_used l) 1).put (F.HSL_CFG_port l) x.port) d
  let d2 := ((d1.put (F.MAC_CFG_speed x.port) x.speed).put (F.MAC_CFG_lanes x.port) x.lanes).put (F.MAC_CFG_fec x.port) x.fec
  let f := ethFixed x.speed x.lanes x.fec
  (d2.put (F.TBS_RX_FIXED x.port) (psUnits f.1)).put (F.TBS_TX_FIXED x.port) (psUnits f.2)

/-- The lanes of a group unused (before its LANE_MAP). -/
def Dev.unplanLanes (g : Nat) (d : Dev) : Dev :=
  Dev.each ((List.range 8).map (8 * g + ·)) (fun l e =>
    (((((((e.put (F.HSL_CFG_rate l) 0).put (F.HSL_CFG_used l) 0).put (F.HSL_CFG_port l) 0).put (F.MAC_CFG_speed l) 0).put
      (F.MAC_CFG_lanes l) 0).put (F.MAC_CFG_fec l) 0).put (F.TBS_RX_FIXED l) 0).put (F.TBS_TX_FIXED l) 0) d

/-- A port of a PORT_CLASS section in the registers. -/
def Dev.planClass (x : ClassPlan) (d : Dev) : Dev :=
  (((d.put (F.BPM_PCLASS_default_pool x.port) x.pools).put (F.BPM_PCLASS_spill x.port) x.spill).put
    (F.QSC_FWD_MODE_ct x.port) x.cutThrough).put (F.QSC_FWD_MODE_express x.port) x.express

/-- A port group's sections in the registers, those of `only` where given (R57). -/
def Dev.planGroup (s : Secs) (g : Nat) (only : Nat → Bool) (d : Dev) : Dev :=
  let d1 := if only 1 then Dev.each (Config.lanePlan (Secs.get s 1 g)) Dev.planPort (d.unplanLanes g) else d
  let d2 := if only 2 then Dev.each (Config.classPlan (Secs.get s 2 g)) Dev.planClass d1 else d1
  let c := Config.clusterPlan (Secs.get s 3 g)
  let d3 := if only 3 then (d2.put (F.FWD_CL_CFG_express g) (c.express.headD 0)).put (F.FWD_CL_CFG_adj_allowed g) (bit c.adjacent)
    else d2
  if only 4 then d3.applyPairs (regPairs (Secs.get s 4 g)) else d3

/-- The blocks a full image leaves present: UNITS, the fuses, the regions (R3, R51). -/
def Dev.presentMask (d : Dev) (s : Secs) : Nat :=
  let units := leNat (Secs.get s 0x200 9)
  let time := (Secs.find? s 0x100 8).isSome
  let noMsc := d.get F.TOP_ID_variant == 3
  ((List.range 24).filter (fun pg => alwaysPresent pg || (hasBit units pg && (time || !timePage pg) && !(noMsc && pg == 23)))).foldl
    orBit 0

/-- The regions of a full image. -/
def regionMask (s : Secs) : Nat := (s.map (fun (x : Nat × Nat × List Byte) => x.2.1)).foldl orBit (orBit 0 9)

/-- The global region's sections in the registers. -/
def Dev.planGlobal (s : Secs) (d : Dev) : Dev :=
  let part := Config.partPlan (Secs.get s 0x201 9)
  let pools := Config.poolPlan (Secs.get s 0x202 9)
  let d1 := (d.put F.IMG_PRESENT (d.presentMask s)).put F.IMG_REGIONS (regionMask s)
  let d2 := Dev.each (List.range 3) (fun t e =>
    let x := nthD part.em t (0, 0)
    let y := nthD part.tcam t (0, 0)
    (((e.put (F.FWD_PART_EM_base t) x.1).put (F.FWD_PART_EM_size t) x.2).put (F.FWD_PART_TC_base t) y.1).put
      (F.FWD_PART_TC_size t) y.2) d1
  let first := fun (k : Nat) => ((List.range k).map (fun j => nthD pools j 0 * poolCells j)).sum
  let d3 := Dev.each (List.range 4) (fun k e =>
    (e.put (F.BPM_POOL_CFG_buffers k) (nthD pools k 0)).put (F.BPM_POOL_BASE_cell k) (first k)) d2
  let pol := Secs.get s 0x206 9
  let d4 := { d3 with
    img := { d3.img with
      ug := (Config.groupPlan (Secs.get s 0x203 9)).foldl (fun (m : Sparse Nat) (x : Nat × Nat) => Sparse.put m x.1 x.2) []
      domains := Config.domainPlan (Secs.get s 0x204 9)
      pinmux := Secs.get s 0x205 9 }
    sec := { d3.sec with policy := octet pol 0, tamperEn := octet pol 1 } }
  d4.applyPairs (regPairs (Secs.get s 0x207 9))

/-- The time region's sections in the registers (R381). -/
def Dev.planTime (s : Secs) (d : Dev) : Dev :=
  let bytes := Secs.get s 0x100 8
  let t := Config.timePlan bytes
  let d1 := (d.put F.SYN_PLAN_time_less (bit t.timeLess)).put F.SYN_PLAN_band_otp (bit t.bandOtp)
  let d2 := if t.bandOtp then Dev.each (List.range 64) (fun i e =>
      (e.setWord (R.SYN_BAND_LO i) (e.word (R.SYN_OTP_BAND_LO i))).setWord (R.SYN_BAND_HI i) (e.word (R.SYN_OTP_BAND_HI i))) d1
    else d1
  let d3 := { d2 with img := { d2.img with timePlan := bytes, ropeQuads := t.quads % 4 } }
  d3.applyPairs (regPairs (Secs.get s 0x101 8))

/-! ### Content checks (check 12, R39, R43, R216, R392) -/

/-- The region of a register (R33). -/
def regRegion (a : Nat) : Option Nat :=
  match rowAt a with
  | some (r, i, _) => some (instRegion (a / 0x10000) r.kind i)
  | none => none

/-- Every pair of a register-value section lies in its region (R39). -/
def pairsInside (s : Secs) : Bool :=
  s.all (fun (x : Nat × Nat × List Byte) => !([0x0004, 0x0101, 0x0207].contains x.1) ||
    (regPairs x.2.2).all (fun p => p.1 % 4 == 0 && regRegion p.1 == some x.2.1))

/-- The groups an image describes. -/
def groupsOf (s : Secs) : List Nat := (List.range 8).filter (fun g => s.any (fun (x : Nat × Nat × List Byte) => x.2.1 == g))

/-- A port group's content (R43, R118, R119, Table IMG-3). -/
def groupContent (s : Secs) (g : Nat) : Bool :=
  let ports := Config.lanePlan (Secs.get s 1 g)
  let lanes := ports.flatMap portSpan
  let classes := Config.classPlan (Secs.get s 2 g)
  let c := Config.clusterPlan (Secs.get s 3 g)
  ports.all (fun x => portMode x && x.port % x.lanes == 0 && (portSpan x).all (fun l => l / 8 == g)) &&
    lanes.eraseDups.length == lanes.length && decide ((ports.filter (fun x => x.speed == 5)).length ≤ 2) &&
    classes.all (fun x => portGroup x.port == g && decide (x.port ≤ 80) && decide ((bitList 8 x.express).length ≤ 2)) &&
    c.express.length == 1 && c.express.all (· < 12)

/-- Partitions lie within 32 units and do not overlap. -/
def partsOk (l : List (Nat × Nat)) : Bool :=
  let used := l.filter (fun x => x.2 != 0)
  l.all (fun x => decide (x.1 + x.2 ≤ 32)) && decide ((l.map (·.2)).sum ≤ 32) &&
    (List.range used.length).all (fun i => (List.range i).all (fun j =>
      let x := nthD used i (0, 0)
      let y := nthD used j (0, 0)
      x.1 + x.2 ≤ y.1 || y.1 + y.2 ≤ x.1))

/-- The pools a port's frames can take beyond those of known length: default pools, spill-up, chaining (R216, R220, R226). -/
def Dev.poolsReached (d : Dev) (p : Nat) : List Nat :=
  let base := (List.range 8).map (d.defaultPool p)
  -- a frame of known length takes pool 0 or a larger one first, and goes on from there
  let spill := if (List.range 8).any (d.spills p) then poolsFrom 1 else []
  let mx := d.maxFrame p
  let chain := ((List.range 4).filter (fun k => d.get (F.BPM_POOL_CFG_buffers k) != 0 && poolBytes k < mx)).map (fun k => chainPool k mx)
  let more := if (List.range 8).any (d.spills p) then chain.flatMap poolsFrom else []
  base ++ spill ++ chain ++ more

/-- Every pool a port reaches has buffers, on a device planned with the image. -/
def Dev.poolContent (d : Dev) : Bool :=
  ((List.range 81).filter (fun p => d.regionPresent (portGroup p) && (64 ≤ p || d.portPresent p))).all (fun p =>
    (d.poolsReached p).all (fun k => d.get (F.BPM_POOL_CFG_buffers k) != 0))

/-- The regions the instances of a row lie in. -/
def RegRow.regions (r : RegRow) (pg : Nat) : List Nat :=
  ((List.range r.count1).map (fun i => instRegion pg r.kind i)).eraseDups

/-- Every buffered register group of a present unit and region is mapped to an update group (R12, R43). -/
def Dev.groupsMapped (d : Dev) : Bool :=
  (List.range 24).all (fun pg => !d.blockPresent pg || (pageRows pg).all (fun r =>
    !(r.fields.any (fun f => f.upd != .i)) || (r.regions pg).all (fun x =>
      !d.regionPresent x || ((Sparse.get? d.img.ug (groupKey pg r.off x)).any (· < 8)))))

/-- Every present unit's power domain is enabled (R43, Table PWR-1): the lanes of a port group lie in the domain of their quad, the
TDC channels, all of the time region (R33), in those of their lanes. -/
def Dev.domainsEnabled (d : Dev) : Bool :=
  let on := fun (k : Nat) => hasBit d.img.domains k
  let lanes := d.blockPresent 14 || d.blockPresent 15
  (!d.blockPresent 16 || on 0) && (!d.blockPresent 18 || on 1) && (!d.blockPresent 17 || on 2) && (!d.blockPresent 23 || on 3) &&
    (!d.blockPresent 13 || on 8) && (List.range 8).all (fun g => !(lanes && d.regionPresent g) || on (4 + g / 2)) &&
    (!(d.blockPresent 7 && d.regionPresent Region.time) || [4, 5, 6, 7, 8].all on)

/-- The content of a full image, on a device planned with it. -/
def Dev.fullContent (d : Dev) (s : Secs) : Bool :=
  let part := Config.partPlan (Secs.get s 0x201 9)
  let pools := Config.poolPlan (Secs.get s 0x202 9)
  let cells := ((List.range 4).map (fun k => nthD pools k 0 * poolCells k)).sum
  (groupsOf s).all (groupContent s) && pairsInside s && decide (cells ≤ 294912) && pools.all (· < 2 ^ 19) && partsOk part.em &&
    partsOk part.tcam && d.groupsMapped && d.domainsEnabled && d.poolContent &&
    (d.get F.SYN_SSC_CORE_mode == 0 || d.get F.SYN_SSC_CORE_mode == 3 || d.flag F.SYN_PLAN_time_less)

/-- The device planned with a full image. -/
def Dev.planFull (s : Secs) (d : Dev) : Dev :=
  let d1 := d.planGlobal s
  let d2 := if (Secs.find? s 0x100 8).isSome then d1.planTime s else d1
  Dev.each (groupsOf s) (fun g e => e.planGroup s g (fun _ => true)) d2

/-- Check 12. -/
def Dev.checkContent (d : Dev) (bs : List Byte) : Bool :=
  let s := sections bs
  if isPartial bs then
    let g := numAt bs 0x0F 1
    groupContent s g && pairsInside s && (d.planGroup s g (fun _ => true)).poolContent
  else (d.planFull s).fullContent s

/-- The checks of Table IMG-4 in order; the first failure's reason (R42). `want` is the group a partial image is asked for. -/
def Dev.verify (d : Dev) (bs : List Byte) (want : Option Nat := none) : Option Nat :=
  let limit := if isPartial bs then 131072 else 4194304
  match checkHeader bs with
  | some r => some r
  | none =>
    if limit < imageLen bs then some 0x03
    else if !d.checkPart bs then some 0x04
    else if !checkTable bs then some 0x05
    else if !((secTable bs).all (fun e => sectionTypes.any (fun t => t.1 == e.type))) then some 0x06
    else if want.any (· != numAt bs 0x0F 1) || !checkRegions bs then some 0x07
    else if !d.checkSlot bs then some 0x08
    else if !d.checkKey bs then some 0x09
    else if !ecdsaVerify (slice bs 0x50 97) (imageDigest bs) (slice bs (imageLen bs - 96) 96) then some 0x0A
    else if numAt bs 0x18 2 < d.get F.SEC_STATUS_floor then some 0x0B
    else if !d.checkBase bs then some 0x0C
    else if !d.checkContent bs then some 0x0D
    else none

/-! ### Application (R48–R50) -/

/-- The staged full image. -/
def Dev.staged (d : Dev) : List Byte := d.bytes stagingBase (min 4194304 (max 256 (leNat (d.bytes (stagingBase + 8) 4))))

/-- The bytes of group `g`'s slot in the group store. -/
def slotBase (g : Nat) : Nat := storeBase + 131072 * g

/-- The sections that give group `g` its structure: its slot's, else the full image's (R50). -/
def Dev.groupSecs (d : Dev) (g : Nat) : Secs :=
  match Sparse.get? d.img.groups g with
  | some n => sections (d.bytes (slotBase g) n)
  | none => sections d.staged

/-- Blocks are ready as the global region is applied (Table TOP-1, R459). -/
def Dev.globalReady (d : Dev) : Dev :=
  let on := fun (pg dom : Nat) => bit (d.blockPresent pg && d.domainOn dom)
  (((((d.put F.TOP_READY_sec (bit (d.domainOn 3))).put F.TOP_READY_fwd (on 16 0)).put F.TOP_READY_bpm (on 17 2)).put
    F.TOP_READY_qsc (on 18 1)).put F.TOP_READY_msc (on 23 3)).put F.TOP_READY_cnt (bit (d.blockPresent 19))

/-- The global region starts: enabled domains on, free stacks, buckets with their default owners, services. -/
def Dev.startGlobal (d : Dev) : Dev :=
  let enabled := d.img.domains % 512
  let d1 := d.put F.PWR_DOM_STATUS_on (d.get F.PWR_DOM_STATUS_on / 512 * 512 + enabled)
  let d2 := d1.put F.PWR_DOM_STATUS_changing (d1.get F.PWR_DOM_STATUS_changing / 512 * 512)
  let d3 := d2.buildPools.clearAllEngines
  ((d3.put F.CNT_HARV_REC_LEN (recordLen d3.harvestCount)).globalReady.harvestSync).pairKeySync

/-- The time region starts (Table TOP-1): the root's lock attempt, the holdover history, the rope lanes, the outputs. -/
def Dev.startTime (d : Dev) : Dev :=
  let d1 := if d.blockPresent 10 then d.startAttempt 1 else d
  let d2 := if d1.blockPresent 8 then (d1.put F.TOP_READY_hold 1).showModel else d1
  let d3 := if d2.blockPresent 13 then
      Dev.each (List.range 16) (fun n e => (e.ropeLatency n).ropeStart n) (d2.setQuads d2.img.ropeQuads)
    else d2
  let d4 := if d3.blockPresent 11 then Dev.each (List.range 4) Dev.ppsFired d3 else d3
  if d4.blockPresent 12 then d4.phxEvalAll else d4

/-- A port group starts: lanes that serve no enabled port are held in L2, enabled ports start (R118, R125, R134). `ports` are
those whose lanes start. -/
def Dev.startGroup (g : Nat) (ports : List Nat) (d : Dev) : Dev :=
  let d1 := d.put F.TOP_READY_group (orBit (d.get F.TOP_READY_group) g)
  let idle := ((List.range 8).map (8 * g + ·)).filter (fun l => !d1.flag (F.HSL_CFG_used l))
  let d2 := Dev.each idle Dev.laneOff d1
  let mine := ports.filter (fun p => p / 8 == g && p < 64 && d2.portPresent p)
  let d3 := Dev.each mine (fun p e => if e.flag (F.MAC_CFG_enable p) then e.enablePort p else Dev.each (e.portLanes p) Dev.laneOff e) d2
  Dev.each (((List.range 8).map (8 * g + ·)).filter d3.portPresent) Dev.preemptWrite d3

/-- The gate lists a group's image enables are taken (R247, R248). -/
def Dev.startGates (g : Nat) (d : Dev) : Dev :=
  let lists := (List.range 81).filter (fun p => p != 64 && portGroup p == g && d.portPresent p && d.flag (F.QSC_GCL_CTRL_enable p))
  Dev.each lists Dev.gclFire d

/-- The facts about the applied full image (Tables IMG-7, IMG-9). -/
def Dev.imageFacts (bs : List Byte) (d : Dev) : Dev :=
  let digest := imageDigest bs
  let d1 := ((d.put F.IMG_LEN (imageLen bs)).put F.IMG_VERSION (numAt bs 0x14 4)).put F.IMG_SEC_VERSION (numAt bs 0x18 2)
  let d2 := Dev.each (List.range 12) (fun i e => e.setWord (R.IMG_HASH i) (BitVec.ofNat 32 (numAt digest (4 * i) 4))) d1
  let slot := numAt bs 0x1A 1
  let d3 := (d2.put F.IMG_STATUS_key_slot (if slot = 0xFF then 0 else slot)).put F.IMG_STATUS_unowned (bit (slot == 0xFF))
  { d3 with img := { d3.img with full := some (imageLen bs), spoiled := false } }

/-- A verified full image is applied: the global region, the time region, the port groups (R48, Table IMG-5). -/
def Dev.applyFull (bs : List Byte) (d : Dev) : Dev :=
  let s := sections bs
  let d1 := ((d.imageFacts bs).planGlobal s).startGlobal
  let d2 := if (Secs.find? s 0x100 8).isSome then (d1.planTime s).startTime else d1
  let d3 := Dev.each (groupsOf s) (fun g e =>
    (((e.planGroup s g (fun _ => true)).clearEngines g).startGroup g (List.range 64)).startGates g) d2
  let d4 := ((d3.put F.IMG_STATUS_state Img.appliedSt).put F.IMG_CTRL_start_full 0).event R.IMG_EVENT 0
  let d5 := if numAt bs 0x1B 1 % 2 = 1 then (d4.put F.IMG_STATUS_locked 1).put F.IMG_CTRL_lock 1 else d4
  (d5.put F.TOP_READY_img 1).rdnEval

/-- A full load fails for good (R42, R45, R47). -/
def Dev.loadFails (reason : Nat) (d : Dev) : Dev :=
  (((d.put F.IMG_STATUS_state Img.failed).put F.IMG_STATUS_reason reason).put F.IMG_CTRL_start_full 0).fault R.IMG_EVENT 1
    E.IMG_FAIL 0

/-- Three verifications were abandoned since the last cold or power-on reset (R440). -/
def Dev.refusesImages (d : Dev) : Bool := decide (3 ≤ d.sec.abandoned)

/-- The reason for which a full image of the staging memory is not applied. -/
def Dev.fullReason (d : Dev) : Option Nat :=
  let bs := d.staged
  if d.refusesImages then some 0x13
  else if numAt bs 0x0E 1 = 1 ∧ checkHeader bs = none then some 0x14
  else d.verify bs

/-- The loader begins to read a flash slot (R44, R45). -/
def Dev.readSlot (slot : Nat) (d : Dev) : Dev :=
  let d1 := (d.put F.IMG_STATUS_state Img.loading).put F.IMG_STATUS_source slot
  { d1 with img := { d1.img with reading := some slot } }

/-- A flash slot fails: slot B is read next, or the load fails (R45). -/
def Dev.flashSlotFails (reason : Nat) (slot : Nat) (d : Dev) : Dev :=
  let d1 := { d with img := { d.img with reading := none } }
  if slot = 0 then (d1.put F.IMG_STATUS_reason reason).readSlot 1 else d1.loadFails reason

/-- A flash slot was read into the staging memory (R45): it is verified and applied, or the next is read. A slot that fails
check 1 is read no further than its header. -/
def Dev.slotRead (image : List Byte) (d : Dev) : Dev :=
  match d.img.reading with
  | none => d
  | some slot =>
    let read := if (checkHeader image).isSome then image.take 256 else image.take 4194304
    let d1 := (d.clearMem stagingBase storeBase).store stagingBase read
    match d1.fullReason with
    | some r => if d1.refusesImages then ({ d1 with img := { d1.img with reading := none } }).loadFails r else Dev.flashSlotFails r slot d1
    | none => ({ d1 with img := { d1.img with reading := none } }).applyFull d1.staged

/-- The flash does not answer within 1 ms (R45). -/
def Dev.flashTimeout (d : Dev) : Dev :=
  match d.img.reading with
  | none => d
  | some slot => Dev.flashSlotFails 0x11 slot d

/-- IMG_CTRL.start_full written 1 (R47). -/
def Dev.startFull (d : Dev) : Dev :=
  let s := d.get F.IMG_STATUS_state
  if s = Img.empty ∨ s = Img.failed then
    let d1 := d.put F.IMG_STATUS_source 2
    match d1.fullReason with
    | some r => d1.loadFails r
    | none => d1.applyFull d1.staged
  else
    (d.put F.IMG_STATUS_reason (if s = Img.appliedSt then 0x12 else 0x0E)).fault R.IMG_EVENT 1 E.IMG_FAIL 0

/-! ### Partial re-structure (R53–R59) -/

/-- The partial image in the pending window. -/
def Dev.pendingImage (d : Dev) : List Byte := d.bytes pendingBase 131072

/-- The Ethernet ports that carry the selected references of DPLL_T and DPLL_F. -/
def Dev.refPorts (d : Dev) : List Nat := ([0, 1].filterMap d.followsCand).filter (· < 64)

/-- The planned port that takes a lane, if any. -/
def planAt (l : List PortPlan) (lane : Nat) : Option PortPlan := l.find? (fun x => (portSpan x).contains lane)

/-- The lanes whose LANE_MAP entries differ between two sections (R57). -/
def lanesChanged (g : Nat) (a b : List Byte) : List Nat :=
  if a = b then []
  else
    let x := Config.lanePlan a
    let y := Config.lanePlan b
    ((List.range 8).map (8 * g + ·)).filter (fun l => planAt x l != planAt y l)

/-- The lanes of group `g` that the partial image changes. -/
def Dev.prLanes (d : Dev) (g : Nat) (bs : List Byte) : List Nat :=
  lanesChanged g (Secs.get (d.groupSecs g) 1 g) (Secs.get (sections bs) 1 g)

/-- A partial re-structure refused or failed (R53, R55, R59). -/
def Dev.prFails (reason : Nat) (running : Bool) (d : Dev) : Dev :=
  let d1 := (d.put F.IMG_STATUS_reason reason).fault R.IMG_EVENT 3 E.IMG_PR_FAIL (d.get F.IMG_CTRL_pr_group)
  if running then (d1.put F.IMG_STATUS_state Img.appliedSt).put F.IMG_CTRL_pr_start 0 else d1

/-- IMG_CTRL written with pr_start (R53–R56, R467). -/
def Dev.prStart (g : Nat) (flush loss : Bool) (d : Dev) : Dev :=
  let d1 := ((d.put F.IMG_CTRL_pr_group g).put F.IMG_CTRL_pr_flush (bit flush)).put F.IMG_CTRL_allow_ref_loss (bit loss)
  let s := d1.get F.IMG_STATUS_state
  let carries := (d1.prLanes g d1.pendingImage).any (fun l => d1.refPorts.any (fun p => (d1.portLanes p).contains l))
  if (1 ≤ s ∧ s ≤ 3) ∨ (5 ≤ s ∧ s ≤ 7) then d1.prFails 0x0E false
  else if s ≠ Img.appliedSt then d1.prFails 0x0C false
  else if d1.refusesImages then d1.prFails 0x13 false
  else if carries ∧ !loss then d1.prFails 0x0F false
  else if d1.locked ∧ !d1.policyBit Policy.prAfterLock then d1.prFails 0x10 false
  else
    let d2 := (d1.put F.IMG_STATUS_state Img.prVerifying).put F.IMG_CTRL_pr_start 1
    Dev.each [3, 4 + g / 2] Dev.startPower { d2 with img := { d2.img with prGroup := g } }

/-- The ports of the group being re-structured. -/
def regionPorts (g : Nat) : List Nat := (List.range 81).filter (fun p => portGroup p == g)

/-- The queues of the group's ports flushed (R56). -/
def Dev.prFlush (d : Dev) : Dev := Dev.each (regionPorts d.img.prGroup) (fun p e => e.flushPort p 0x26) d

/-- A domain that a partial re-structure needs is still off; its verification waits for it (R467). -/
def Dev.prPowerWaits (d : Dev) : Bool :=
  [3, 4 + d.img.prGroup / 2].any (fun k => d.domainEnabled k && !d.domainOn k)

/-- Verification of the partial image ends (R56): the group enters pr_quiescing, or the operation fails. -/
def Dev.prVerifyDone (d : Dev) : Dev :=
  if d.get F.IMG_STATUS_state ≠ Img.prVerifying ∨ d.prPowerWaits then d
  else
    let bs := d.pendingImage
    let reason := match checkHeader bs with
      | some r => some r
      | none => if !isPartial bs then some 0x14 else d.verify bs (some d.img.prGroup)
    match reason with
    | some r => d.prFails r true
    | none =>
      let d1 := d.put F.IMG_STATUS_state Img.prQuiescing
      let d2 := { d1 with img := { d1.img with prLen := imageLen bs } }
      if d2.flag F.IMG_CTRL_pr_flush then d2.prFlush else d2

/-- The drain limit expires (R56). -/
def Dev.prDrainTimeout (d : Dev) : Dev := if d.get F.IMG_STATUS_state = Img.prQuiescing then d.prFlush else d

/-- The group's queues are empty and the buckets of its cluster, and those its engines hold, have nothing in flight. -/
def Dev.prQuiet (d : Dev) : Bool :=
  let g := d.img.prGroup
  (regionPorts g).all (fun p => (List.range 8).all (fun q => (d.queue p q).isEmpty) && (d.sendingOn p).isNone) &&
    d.fwd.buckets.all (fun b => !(b.1 / 4096 == g || b.2.ownerCl == g) || b.2.inflight == 0)

/-- Every bucket is quiet (R56, R57): borrowed buckets go home, the changed sections are applied, the image goes to the
group store. -/
def Dev.prQuiesced (d : Dev) : Dev :=
  if d.get F.IMG_STATUS_state ≠ Img.prQuiescing ∨ !d.prQuiet then d
  else
    let g := d.img.prGroup
    let bs := d.bytes pendingBase d.img.prLen
    let s := sections bs
    let old := d.groupSecs g
    let changed := fun (t : Nat) => Secs.find? old t g != Secs.find? s t g
    let lanes := d.prLanes g bs
    let gone := (List.range 64).filter (fun p => p / 8 == g && d.portPresent p && (d.portLanes p).any lanes.contains)
    let d1 := Dev.each gone Dev.disablePort (d.put F.IMG_STATUS_state Img.prApplying)
    let was := gone.filter (fun p => d.flag (F.MAC_CFG_enable p))
    let d2 := Dev.each was (fun p e => e.put (F.MAC_CFG_enable p) 1) d1
    let d3 := (d2.planGroup s g changed).returnBuckets g
    let starts := (List.range 64).filter (fun p => p / 8 == g && d3.portPresent p &&
      ((d3.portLanes p).any lanes.contains || d3.flag (F.MAC_CFG_enable p) != d.flag (F.MAC_CFG_enable p)))
    let d4 := (d3.startGroup g starts).when (changed 4) (Dev.startGates g)
    let d5 := (d4.clearMem (slotBase g) (slotBase (g + 1))).store (slotBase g) bs
    let d6 := { d5 with img := { d5.img with groups := Sparse.put d5.img.groups g d.img.prLen } }
    let d7 := (d6.put (F.IMG_GROUP_VER g) (numAt bs 0x14 4)).put F.IMG_CTRL_pr_start 0
    ((d7.put F.IMG_STATUS_state Img.appliedSt).event R.IMG_EVENT 2).rdnEval

/-- The image lock (R94). -/
def Dev.setLock (d : Dev) : Dev := (d.put F.IMG_CTRL_lock 1).put F.IMG_STATUS_locked 1

/-- A tamper event while an image is verified abandons the check (R440). -/
def Dev.abandonVerify (d : Dev) : Dev :=
  let s := d.get F.IMG_STATUS_state
  let d1 := { d with sec := { d.sec with abandoned := d.sec.abandoned + 1 } }
  if s = Img.prVerifying then d1.prFails 0x13 true
  else if s = Img.loading ∨ s = Img.verifying then
    if d1.img.reading.isSome ∧ !d1.refusesImages then d1.readSlot 0
    else ({ d1 with img := { d1.img with reading := none } }).loadFails 0x13
  else d

/-- A tamper source trips (R440, R446): R446 reports an enabled one alone; the check of an image is abandoned whether it is enabled or
not, for none is until an image is applied (log entry 100). -/
def Dev.tamperTrip (s : Nat) (d : Dev) : Dev := (d.tamper s).abandonVerify

end Sys2Proof.Machine
end

