-- ==== Sys2Proof/Machine/Resets.lean ====
section
/-! DEFINITION. Resets (R61–R81, R540, Tables TOP-3 to TOP-5): power-on and cold reset and the boot that follows, warm and
watchdog reset, block, port and host resets, the watchdog. -/

namespace Sys2Proof.Machine

/-! ### Causes and readiness -/

/-- A reset kind sets its bit of TOP_RST_CAUSE (R68). -/
def Dev.cause (i : Nat) (d : Dev) : Dev := d.setBit R.TOP_RST_CAUSE i true

/-- TOP_READY.hif and the bit of port 64 with it (R64, R67). -/
def Dev.setHif (on : Bool) (d : Dev) : Dev :=
  if on then (d.put F.TOP_READY_hif 1).put (readyBit 64) 1 else (d.put F.TOP_READY_hif 0).portDown 64

/-- A power-on or cold reset is held (R79). -/
def Dev.held (d : Dev) : Bool := d.rst.phase != .released

/-- A page of the time region, which a warm reset does not reach (R69). -/
def warmPage (pg : Nat) : Bool := !timePage pg

/-! ### Power-on and cold reset (R61, R64, Table TOP-5) -/

/-- A register word as a cold reset leaves it: fields with Keep A, and those of the fuses and the MRAM, stand (R13, R15). -/
def coldWord (a : Nat) (w : Word) : Word :=
  restoreWord (fun _ _ f => f.keep != .a && f.rst != .otp && f.rst != .mram) a w

/-- A register word as a power-on reset leaves it: the fuses and the MRAM are read again. -/
def powerOnWord (a : Nat) (w : Word) : Word := restoreWord (fun _ _ f => f.rst != .otp && f.rst != .mram) a w

/-- The registers with each word passed through a reset. -/
def resetCsr (f : Nat → Word → Word) (m : Sparse Word) : Sparse Word :=
  (m.map (fun c => (c.1, f c.1 c.2))).filter (fun c => c.2 != resetWord c.1)

/-- The device as a power-on or cold reset leaves it: registers by `f`, nothing else but the fuses, the MRAM
history and the free values drawn (Table TOP-5, R438); the responses failed count since power-on (R444). The line ILK_N is released and its level is the pin's (R410). -/
def Dev.wiped (f : Nat → Word → Word) (phase : ResetPhase) (d : Dev) : Dev :=
  let off := phase == .powerOn
  let e := d.otpInterrupted.when off Dev.readFuses
  let level := e.get F.RDN_STATUS_ilk_level
  let e1 : Dev := {
    csr := resetCsr f e.csr
    fresh := e.fresh
    freshTime := e.freshTime
    sent := e.sent
    host := { perstN := e.host.perstN }
    sec := { fuses := e.sec.fuses, failed := if off then 0 else e.sec.failed
             attempts := if off then 0 else e.sec.attempts }
    img := { fromFlash := e.img.fromFlash }
    rst := { phase := phase }
    learn := { blocks := e.learn.blocks.map (fun b => { b with entries := b.entries.map (fun x => { x with at_ := none }) })
               model := e.learn.model } }
  e1.put F.RDN_STATUS_ilk_level level

/-- The release of a power-on or cold reset (R61, R372, R44, R45): IMG_SRC is sampled, the history comes from the MRAM, the loader
starts. -/
def Dev.boot (flash mramOk : Bool) (d : Dev) : Dev :=
  let d1 := { d with rst := { d.rst with phase := .released }, img := { d.img with fromFlash := flash } }
  let d2 := d1.learnLoad mramOk
  let d3 := { d2 with host := { d2.host with training := d2.host.perstN } }
  if flash then d3.readSlot 0 else d3

/-- A cold reset begins (R68): the device is held until RESETN rises. -/
def Dev.coldBegin (d : Dev) : Dev := (d.wiped coldWord .cold).cause 1

/-- A warm or watchdog reset before any full image acts as a cold reset (R72): it is released at once with the source sampled
last, and sets only its own cause. -/
def Dev.coldInstead (i : Nat) (d : Dev) : Dev := ((d.wiped coldWord .released).boot d.img.fromFlash true).cause i

/-! ### The watchdog (R78) -/

/-- The count starts anew with its full period; a period of 0 acts as 1. -/
def Dev.watchdogStart (d : Dev) : Dev :=
  if !d.flag F.TOP_WDOG_CTRL_enable ∨ d.busy then d
  else
    let d1 := d.put F.TOP_WDOG_COUNT (max 1 (d.get F.TOP_WDOG_CTRL_period))
    { d1 with rst := { d1.rst with watchdogEdges := 0 } }

/-- A millisecond of the count. It stops at 1: the step to 0 is the watchdog's own command. -/
def Dev.watchdogMs (d : Dev) : Dev :=
  let n := d.get F.TOP_WDOG_COUNT
  if d.busy ∨ d.held ∨ n ≤ 1 then d else d.put F.TOP_WDOG_COUNT (n - 1)

/-- One edge of the time clock passes at the watchdog; the count stops while a warm reset runs. -/
def Dev.watchdogEdge (d : Dev) : Dev :=
  let n := d.rst.watchdogEdges + 1
  if d.busy then d
  else if n < 614400 then { d with rst := { d.rst with watchdogEdges := n } }
  else ({ d with rst := { d.rst with watchdogEdges := 0 } }).watchdogMs

/-! ### Warm and watchdog reset (R69–R73, Table TOP-4) -/

/-- The frame in transmission on a port ends with an error code, and is counted (R70, Table TOP-4). -/
def Dev.cutShort (p : Nat) (d : Dev) : Dev :=
  match d.sendingOn p with
  | some s =>
    let bs := d.wireBytes p s false none
    (d.when (p != 64) (Dev.sendCut p bs)).countSent p s.queue bs.length
  | none => d

/-- Counters, capture and test units as a warm reset leaves them (Table TOP-5, R479, R489, R491): configurations stay. -/
def Dev.observeReset (d : Dev) : Dev :=
  let d1 := Dev.each [2, 4, 14, 15, 16, 17, 18, 19, 23] Dev.clearOwner d
  { d1.clearMem ringBase (ringBase + 256 * 16384) with
    obs := { ctrs := d1.obs.ctrs, clears := d1.obs.clears, seqNo := d1.obs.seqNo
             snapStart := d1.obs.snapStart, snapMark := d1.obs.snapMark } }

/-- Everything outside the time region but the registers, as a warm reset discards it (R70, R75, Table TOP-5). -/
def Dev.warmWipe (d : Dev) : Dev :=
  let d1 := (Dev.each (List.range 81) Dev.cutShort d).wipeFrames.wipeFwdTables.wipeMscTables.wipeKeeper
  let d2 := d1.clearAllEngines.observeReset
  { d2 with
    host := { d2.host with descs := [], bypassQ := [], done := [], hold := [], entry := [] }
    lanes := { gatedQuads := d2.lanes.gatedQuads, synth := d2.lanes.synth, ropeSynth := d2.lanes.ropeSynth }
    qsc := { d2.qsc with heldMac := [] } }

/-- The registers a warm reset reaches (R13, R69); the level of ILK_N, which is the pin's, the link of PCIe and the held-off
state of a member that yielded stand. -/
def Dev.warmRegisters (d : Dev) : Dev :=
  let level := d.get F.RDN_STATUS_ilk_level
  let d1 := d.restore warmPage (fun _ _ f => shallow f)
  ((d1.put F.RDN_STATUS_ilk_level level).put (readyBit 64) (d.get F.TOP_READY_hif)).syncPend

/-- The ready bits a warm reset clears. -/
def Dev.unready (d : Dev) : Dev := d.setWord R.TOP_READY (d.word R.TOP_READY &&& 0xFF00FF01#32)

/-- The global region and the port groups from the staging memory and the group store (R39, R50). -/
def Dev.reapply (d : Dev) : Dev :=
  let s := sections d.staged
  let d1 := (d.planGlobal s).startGlobal
  Dev.each (groupsOf s) (fun g e => ((e.planGroup (e.groupSecs g) g (fun _ => true)).clearEngines g).startGroup g (List.range 64)) d1

/-- The block and port resets under way end with the deeper one (R79); those held during a partial re-structure are gone
(R58). -/
def Dev.endResets (d : Dev) : Dev :=
  let d1 := { d with rst := { d.rst with heldBlocks := [], heldPorts := [] } }
  ((d1.setWord R.TOP_BLK_RST 0).setWord R.TOP_PORT_RST_0 0).setWord R.TOP_PORT_RST_1 0

/-- What RLK, PHX and OUT do once no reset of theirs runs. -/
def Dev.timeBlocksRun (d : Dev) : Dev :=
  let quads := bit (d.blockPresent 13 && d.domainOn 8) * d.img.ropeQuads
  ((Dev.each (List.range 16) Dev.ropeStart (d.setQuads quads)).phxEvalAll).syncParked

/-- A warm or watchdog reset begins. `soft` says that TOP_RST_CTRL.warm asked for it. -/
def Dev.warmBegin (soft : Bool) (d : Dev) : Dev :=
  let mode := d.get F.PWR_STATE_mode
  let active := d.isActive
  let d1 := d.belayWarm
  let pr := d1.prRunning
  let d2 := (d1.endResets.warmWipe.belayClear false).warmRegisters
  let d3 := d2.when pr (Dev.put F.IMG_STATUS_state Img.appliedSt)
  let d4 := (d3.reapply.unready.put F.TOP_RST_CTRL_busy 1).put F.TOP_RST_CTRL_warm (bit soft)
  let d5 := (d4.when active (Dev.put F.RDN_STATUS_holdoff 1)).when (mode != 0) (Dev.put F.PWR_STATE_mode 3)
  let d6 := { d5 with rst := { d5.rst with warmEdges := 0 } }
  Dev.each (List.range 16) Dev.syncTunnel d6.timeBlocksRun

/-- The time-clock edges to the 1,010 µs and in the 0.25 ms of Table TOP-4. -/
abbrev warmGlobalEdges : Nat := 620544
abbrev warmGroupEdges : Nat := 153600

/-- One edge of the time clock passes in a warm reset (Table TOP-4): at 1,010 µs the global region is ready again, a port group
0.25 ms after the one before it, its tunnel ports with it (R172). -/
def Dev.warmEdge (d : Dev) : Dev :=
  if !d.busy then d
  else
    let n := d.rst.warmEdges + 1
    let e := { d with rst := { d.rst with warmEdges := n } }
    let g := (n - warmGlobalEdges) / warmGroupEdges - 1
    if n = warmGlobalEdges then e.globalReady
    else if warmGlobalEdges < n ∧ (n - warmGlobalEdges) % warmGroupEdges = 0 ∧ g < 8 ∧ e.regionPresent g = true then
      Dev.each [g, g + 8] Dev.syncTunnel (e.put F.TOP_READY_group (orBit (e.get F.TOP_READY_group) g))
    else e

/-- A warm or watchdog reset ends (Table TOP-4 at 3,010 µs, R70, R78, R433, R466, R470). -/
def Dev.warmEnd (d : Dev) : Dev :=
  if !d.busy then d
  else
    let d1 := (d.put F.TOP_RST_CTRL_busy 0).put F.TOP_RST_CTRL_warm 0
    let groups := ((List.range 8).filter d1.regionPresent).foldl orBit 0
    let d2 := ((d1.globalReady.put F.TOP_READY_group groups).put F.TOP_READY_img 1).watchdogStart
    let d3 := d2.timeOnlyExitDone.timeBlocksRun
    let d4 := Dev.each (d3.qsc.oper.map (·.1)) Dev.resumeList (Dev.each (List.range 16) Dev.syncTunnel d3)
    (Dev.each (bitList 9 (d4.get F.PWR_DOM_OFF_REQ)) Dev.domainOff d4).rdnEval

/-! ### Block resets (R74, R75) -/

/-- The blocks TOP_BLK_RST accepts (R74). -/
def blockResettable (pg : Nat) : Bool := pg == 7 || (11 ≤ pg && pg ≤ 23)

/-- The switched domains that hold a block whole (Table PWR-1). -/
def blockDomains (pg : Nat) : List Nat :=
  match pg with
  | 13 => [8] | 14 => [4, 5, 6, 7] | 15 => [4, 5, 6, 7] | 16 => [0] | 17 => [2] | 18 => [1] | 23 => [3] | _ => []

/-- A block reset waits: a partial re-structure of a group that owns instances of the block runs (R58), or the block's domain is
off, or all its domains that are enabled (Table PWR-3). -/
def Dev.blockWaits (d : Dev) (pg : Nat) : Bool :=
  (d.prRunning && [14, 15, 16, 17, 18, 23].contains pg) ||
    (blockDomains pg != [] && (blockDomains pg).all (fun k => !d.domainOn k))

/-- What a block reset does before its registers return: links and roles end. -/
def Dev.blockBefore (pg : Nat) (d : Dev) : Dev :=
  match pg with
  | 13 => Dev.each (List.range 16) (fun n e => if e.ropeState n = Rlk.down then e else e.ropeEnter n Rlk.down) d
  | 14 => Dev.each (List.range 64) Dev.linkDown d
  | 15 => Dev.each (List.range 64) Dev.portDown d
  | 16 => d.wipeHeaders
  | 17 => d.wipeFrames
  | 18 => d.wipeQueues.wipeKeeper
  | 21 => d.belayBlockReset
  | 22 => d.testAbort
  | _ => d

/-- What a block reset leaves once its registers have returned (R75, Tables TOP-2 and TOP-5). -/
def Dev.blockAfter (pg : Nat) (d : Dev) : Dev :=
  match pg with
  | 7 => Dev.each (List.range 92) Dev.trimStart (d.put F.TOP_READY_tdc 0)
  | 11 => (Dev.each (List.range 4) Dev.ppsFired { d with moves := [], outs := [] }).syncParked
  | 12 => (Dev.each d.gridLinks (fun k e => e.setPhi k (e.phi k)) d).phxEvalAll
  | 13 => d.setQuads 0
  | 14 => Dev.each (List.range 64) (fun p e => (e.faultSync p).phxEval p) { d with lanes := { d.lanes with inverted := [], prbs := [], measured := [] } }
  | 15 => Dev.each (List.range 64) Dev.phxEval { d with lanes := { d.lanes with breakLink := [], disableDue := [] } }
  | 16 => d.wipeFwdTables.clearAllEngines.put F.TOP_READY_fwd 0
  | 17 => d.buildPools.put F.TOP_READY_bpm 0
  | 18 => Dev.each (List.range 64) Dev.preemptWrite (d.put F.TOP_READY_qsc 0)
  | 19 => ({ d with obs := { d.obs with record := none, lastSet := [], skipsSince := 0 } }.put F.TOP_READY_cnt 0).harvestSync
  | 20 => { d.clearMem ringBase (ringBase + 256 * 16384) with
      obs := { d.obs with fifo := [], samplers := [], entryNo := 0, trigNext := false, postLeft := 0 } }
  | 22 => { d with obs := { d.obs with testing := none, testUnit := 0, testMem := none, sweep := [] } }
  | 23 => d.wipeMscTables.put F.TOP_READY_msc 0
  | _ => d

/-- A block reset runs (R14, R68, R75): its bit and its cause, and its effect. -/
def Dev.blockStart (pg : Nat) (d : Dev) : Dev :=
  let level := d.get F.RDN_STATUS_ilk_level
  let d0 := (d.setBit R.TOP_BLK_RST pg true).cause 7
  let d1 := { d0 with rst := { d0.rst with heldBlocks := d0.rst.heldBlocks.filter (· != pg) } }
  let d2 := ((d1.blockBefore pg).restore (· == pg) (fun _ _ f => shallow f)).clearOwner pg
  let d3 := d2.when (pg == 21) (Dev.put F.RDN_STATUS_ilk_level level)
  (d3.blockAfter pg).syncPend

/-- A block reset is requested of a block that accepts it and is present (R58, R79). -/
def Dev.blockRequest (pg : Nat) (d : Dev) : Dev :=
  if d.busy ∨ d.held ∨ d.bitAt R.TOP_BLK_RST pg then d.cause 7
  else if d.blockWaits pg then
    let d1 := d.setBit R.TOP_BLK_RST pg true
    { d1 with rst := { d1.rst with heldBlocks := addOnce pg d1.rst.heldBlocks } }
  else d.blockStart pg

/-- TOP_BLK_RST written (R74). The bit of TBS, DPL, REF or SYN while that block is absent is refused, as its own sentence has it, and has
no outcome of R52: DESIGN CHOICE (log entry 15). -/
def Dev.writeBlockReset (w : Word) (d : Dev) : Dev :=
  Dev.each (bitList 24 w.toNat) (fun pg e =>
    if !blockResettable pg then e.put F.TOP_RST_CTRL_refused 1
    else if !e.blockPresent pg then e.absentWrite R.TOP_BLK_RST
    else e.blockRequest pg) d

/-- The ready bit of a block after its reset (R65, R75), which the time-only state holds at 0 (R468, R469). -/
def Dev.blockReady (pg : Nat) (d : Dev) : Dev :=
  let on := fun (k : Nat) => bit (d.blockPresent pg && d.domainOn k && !d.timeOnlyHolds k)
  match pg with
  | 16 => d.put F.TOP_READY_fwd (on 0)
  | 17 => d.put F.TOP_READY_bpm (on 2)
  | 18 => d.put F.TOP_READY_qsc (on 1)
  | 19 => (d.put F.TOP_READY_cnt (bit (d.blockPresent 19))).harvestSync
  | 23 => d.put F.TOP_READY_msc (on 3)
  | _ => d

/-- An Ethernet port starts again after a reset that dropped its link: its lanes where `lanes`, else its negotiation. -/
def Dev.portRestart (lanes : Bool) (p : Nat) (d : Dev) : Dev :=
  if !d.portPresent p ∨ !d.flag (F.MAC_CFG_enable p) then d
  else if lanes then d.enablePort p
  else (((d.rxResid p).txResid p).faultSync p).anStart p

/-- A block reset ends (Table TOP-3). -/
def Dev.blockEnd (pg : Nat) (d : Dev) : Dev :=
  if !d.blockInReset pg then d
  else
    let d1 := (d.setBit R.TOP_BLK_RST pg false).blockReady pg
    match pg with
    | 11 => d1.syncParked
    | 12 => d1.phxEvalAll
    | 13 => d1.timeBlocksRun
    | 14 => Dev.each (List.range 64) (Dev.portRestart true) d1
    | 15 => Dev.each (List.range 64) (Dev.portRestart false) d1
    | 21 => d1.rdnEval
    | _ => d1

/-! ### Port resets (R76) -/

/-- A port reset runs (R14, R76, R540): the port, its lanes, its instances in the blocks of the global page range. -/
def Dev.portStart (p : Nat) (d : Dev) : Dev :=
  let lanes := d.portLanes p
  let d0 := (d.setBit (portRstReg p) (p % 32) true).cause 8
  let d1 := { d0 with
    rst := { d0.rst with heldPorts := d0.rst.heldPorts.filter (· != p) }
    lanes := { d0.lanes with
      breakLink := d0.lanes.breakLink.filter (· != p)
      disableDue := d0.lanes.disableDue.filter (· != p)
      measured := d0.lanes.measured.filter (fun x => !lanes.contains x)
      inverted := d0.lanes.inverted.filter (fun x => !lanes.contains x.1)
      prbs := d0.lanes.prbs.filter (fun x => !lanes.contains x.1) } }
  let d2 := (((d1.wipeArriving p).wipePort p).wipeSending p).put (readyBit p) 0
  let d3 := (d2.restore (· == 14) (fun r i f => shallow f && r.kind == .lane && lanes.contains i)).restore
    (fun pg => [4, 15, 16, 17, 18, 23].contains pg) (fun r i f => shallow f && r.kind == .port && i == p)
  let d4 := Dev.each [4, 15, 16, 17, 18, 23] (fun pg e => e.clearOwnerAt pg p) d3
  let d5 := Dev.each lanes (Dev.clearOwnerAt 14) d4
  (((d5.setHeaderFifo p (d5.headerFifo p)).preemptWrite p).phxEval p).syncPend

/-- A port reset is requested of a present port (R58, R79). -/
def Dev.portRequest (p : Nat) (d : Dev) : Dev :=
  if d.busy ∨ d.held ∨ d.bitAt (portRstReg p) (p % 32) then d.cause 8
  else if d.prRunning ∧ portGroup p = d.img.prGroup then
    let d1 := d.setBit (portRstReg p) (p % 32) true
    { d1 with rst := { d1.rst with heldPorts := addOnce p d1.rst.heldPorts } }
  else d.portStart p

/-- TOP_PORT_RST_0 or TOP_PORT_RST_1 written (R74). -/
def Dev.writePortReset (hi : Bool) (w : Word) (d : Dev) : Dev :=
  Dev.each ((bitList 32 w.toNat).map (· + 32 * bit hi)) (fun p e =>
    if e.portPresent p then e.portRequest p else e.absentWrite (portRstReg p)) d

/-- A port reset ends (Table TOP-3). -/
def Dev.portEnd (p : Nat) (d : Dev) : Dev :=
  if !d.bitAt (portRstReg p) (p % 32) ∨ d.rst.heldPorts.contains p then d
  else (d.setBit (portRstReg p) (p % 32) false).portRestart true p

/-- The block and port resets that were held, and no longer are, run (R58, Table PWR-5). -/
def Dev.runHeld (d : Dev) : Dev :=
  let d1 := Dev.each (d.rst.heldBlocks.filter (fun pg => !d.blockWaits pg)) Dev.blockStart d
  if d1.prRunning then d1 else Dev.each d1.rst.heldPorts Dev.portStart d1

/-! ### Host reset (R77) -/

/-- The frame a transmit ring was bringing ends without its last byte as its ring is reset (R77, R255): nothing of the next one joins it. -/
def Dev.abortFetch (n : Nat) (d : Dev) : Dev :=
  match d.current (ringKey n) with
  | none => d
  | some i =>
    let d1 := d.setCurrent (ringKey n) none
    let f := d1.frame i
    if (d1.frame? i).isNone then d1
    else if !f.windowed ∨ f.waits then (d1.lostStamps [i]).delFrame i
    else (d1.setFrame i { f with short := true }).endBad i 0x33

/-- A host reset begins: PCIe hot reset or FLR (R68, R77, R79). The interrupt unit's part is the state's own. -/
def Dev.hostReset (flr : Bool) (d : Dev) : Dev :=
  let d0 := d.cause (if flr then 5 else 4)
  if d.held ∨ d.host.hostReset then d0
  else
    let d1 := (Dev.each (List.range 8) Dev.abortFetch (d0.setHif false)).restore (· == 2) (fun _ _ f => f.keep == .n)
    { d1 with host := { d1.host with
      hostReset := true, d3hot := false, busMaster := false, bars := [], dlUp := false, training := d1.host.perstN, linkRate := 0, linkWidth := 0
      descs := [], done := [], hold := d1.host.hold.filter (fun h => h.1 != 2) } }

/-! ### The PCIe link (R64, R113) -/

/-- PERST_N rises: the link may train (R64). -/
def Dev.perstRelease (d : Dev) : Dev := { d with host := { d.host with perstN := true, training := !d.held } }

/-- PERST_N is driven low: it takes the link, until its next release (R64), and no link_down (R113). -/
def Dev.perstLow (d : Dev) : Dev :=
  ({ d with host := { d.host with
    d3hot := false, busMaster := false, bars := [], dlUp := false, perstN := false, training := false, linkRate := 0, linkWidth := 0 } }).setHif false

/-- The data link layer reports DL_Up (R64), trained to the highest rate and width that the other end has too (R82): what the other
end has is open, so both are free values. -/
def Dev.dlUp (d : Dev) : Dev :=
  if d.held ∨ !d.host.perstN ∨ d.sec.extest then d
  else ({ d.draw with host := { d.host with
    dlUp := true, hostReset := false, training := false
    linkRate := Config.linkRate d.fresh % 4 + 1, linkWidth := 2 ^ (Config.linkWidth d.fresh % 3) } }).setHif true

/-- The data link layer reports DL_Down (R64, R113): a fault unless a host reset or PERST_N explains it. -/
def Dev.dlDown (d : Dev) : Dev :=
  let d1 := { d with host := { d.host with dlUp := false, training := d.host.perstN, linkRate := 0, linkWidth := 0 } }
  let lost := d.flag F.TOP_READY_hif && !d.host.hostReset && d.host.perstN
  (d1.when lost (Dev.fault R.HIF_EVENT 4 E.HIF_LINK_DOWN 0)).setHif false

/-! ### EXTEST (R443) -/

/-- EXTEST: the balls carry the scan data, so forwarding and every output are lost: the lanes, the ropes, the PCIe link, and the drive of
ILK_N, without which no member that has an interlock is ACTIVE (R408). INT_N and the pulses follow `extest`. -/
def Dev.tapExtest (data : List Byte) (d : Dev) : Dev :=
  let d0 := { d with sec := { d.sec with boundary := data, extest := true } }
  let d1 := Dev.each (List.range 64) Dev.cdrLoss d0
  let d2 := Dev.each (List.range 64) Dev.linkDown d1
  let d3 := Dev.each (List.range 16) (fun n e => if e.ropeState n = Rlk.down then e else e.ropeEnter n Rlk.down) d2
  (d3.when d3.host.dlUp Dev.dlDown).heartbeatMissRelease

/-- EXTEST_PULSE and EXTEST_TRAIN: as EXTEST, with test pulses on the lanes. -/
def Dev.tapExtestLanes (data : List Byte) (d : Dev) : Dev := d.tapExtest data

/-- The level of clock output `j` at its ball, or none where the ball carries scan data (R443) or the output is parked. -/
def Dev.clockBall (d : Dev) (j : Nat) : Option Bool :=
  if d.sec.extest || hasBit (d.get F.OUT_STATUS_parked) j then none else some (d.outHigh j)

end Sys2Proof.Machine
end

