-- ==== Sys2Proof/Machine/Faults.lean ====
section
/-! DEFINITION. The fault unit (R496–R513): events become log entries, counts, reactions, recovery windows; the resets that
reach the fault unit's own state. -/

namespace Sys2Proof.Machine

/-- A change of the device alone. -/
def State.onDev (f : Dev → Dev) (s : State) : State := { s with dev := f s.dev }

/-- A bit of FLT_EVENT (Table FLT-6). -/
def Dev.fltEvent (i : Nat) (d : Dev) : Dev := d.event R.FLT_EVENT i

/-- The device is halted (R504). -/
def Dev.halted (d : Dev) : Bool := d.flag F.FLT_STATUS_halted

/-! ### The registers that show the unit -/

/-- A log entry as FLT_LOG_0 shows it. -/
def LogEntry.word0 (e : LogEntry) : Word :=
  BitVec.ofNat 32 (e.code % 512 + 512 * (e.cls % 4) + 2048 * bit e.escalated + 4096 * (e.reaction % 8) + 65536 * (e.repeats % 256) +
    2 ^ 24 * (e.subsys % 8))

/-- FLT_LOG_0–3, FLT_LOG_COUNT and FLT_STATUS.win brought up to date (R505, Table FLT-6). -/
def State.fltSync (s : State) : State :=
  let d := s.dev
  let d1 := match s.flt.log with
    | [] => (((d.setWord R.FLT_LOG_0 0).setWord R.FLT_LOG_1 0).setWord R.FLT_LOG_2 0).setWord R.FLT_LOG_3 0
    | e :: _ => (((d.setWord R.FLT_LOG_0 e.word0).setWord R.FLT_LOG_1 (BitVec.ofNat 32 e.inst)).setWord R.FLT_LOG_2
        (BitVec.ofNat 32 (e.ns % 2 ^ 30 + 2 ^ 31 * bit e.timeValid))).setWord R.FLT_LOG_3 (BitVec.ofNat 32 e.sec)
  let win := (s.flt.windows.map (·.1)).foldl orBit 0
  { s with dev := (d1.put F.FLT_LOG_COUNT s.flt.log.length).put F.FLT_STATUS_win win }

/-! ### Windows (R510) -/

/-- A window opens, or opens again. -/
def State.openWindow (sub r : Nat) (a : Await) (s : State) : State :=
  { s with flt := { s.flt with windows := Sparse.put s.flt.windows sub ⟨r, a⟩ } }

/-- Windows that wait for something wait for something else. -/
def State.rewait (f : Await → Await) (s : State) : State :=
  { s with flt := { s.flt with windows := s.flt.windows.map (fun w => (w.1, { w.2 with await := f w.2.await })) } }

/-- What a window waited for is complete: its closing time runs. -/
def State.completed (a : Await) (s : State) : State := s.rewait (fun x => if x = a then .nothing else x)

/-- FLT_WIN_s after its reaction completed a window closes. -/
def State.windowClose (sub : Nat) (s : State) : State :=
  match Sparse.get? s.flt.windows sub with
  | some w =>
    if w.await = .nothing then ({ s with flt := { s.flt with windows := Sparse.del s.flt.windows sub } }).fltSync else s
  | none => s

/-! ### Resets as the whole state sees them -/

/-- The interrupt unit and the fault unit as a cold reset leaves them (Table TOP-5, R505, R510): of the windows, only those that
wait for the end of a halt stand. -/
def State.coldUnits (s : State) : State :=
  let keep := if s.dev.halted then s.flt.windows.filter (fun w => w.2.await == .halt) else []
  { s with flt := { windows := keep }, irq := {} }

/-- A cold reset begins (R68, R79). -/
def State.coldReset (s : State) : State :=
  if s.dev.held then s.onDev (Dev.cause 1) else (s.coldUnits.onDev Dev.coldBegin).fltSync

/-- A power-on or cold reset is released (R61, R79). -/
def State.release (flash mramOk : Bool) (s : State) : State :=
  ((s.onDev (Dev.boot flash mramOk)).completed .halt).fltSync

/-- VDD_AON fails or comes back (R61, R523): power-on reset, in which nothing but the fuses and the MRAM stands. -/
def State.powerOff (s : State) : State :=
  let d := s.dev.wiped powerOnWord .powerOn
  ({ s with dev := { d with host := {}, img := {} }, flt := {}, irq := {} }).fltSync

/-- A warm or watchdog reset is requested with its cause (R68, R70, R72, R79, R500); while another runs a request of software
sets TOP_RST_CTRL.warm, which clears at the end of the running one. The second component says that it acted as a
cold reset. -/
def State.warmRequest (cause : Nat) (soft : Bool) (s : State) : State × Bool :=
  let d := s.dev
  if d.busy ∨ d.held then (s.onDev (fun e => (e.cause cause).when (soft && e.busy) (Dev.put F.TOP_RST_CTRL_warm 1)), false)
  else if !d.applied ∨ d.img.spoiled then
    (((s.coldUnits.onDev (Dev.coldInstead cause)).completed .halt).fltSync, true)
  else
    let was := d.halted
    let s1 := s.onDev (fun e => (e.cause cause).warmBegin soft)
    let s2 := s1.onDev (Dev.put F.FLT_STATUS_halted 0)
    (s2.rewait (fun a => match a with
      | .block _ => .warm
      | .halt => if was then .warm else .halt
      | x => x), false)

/-- A reset of any kind runs (R504). -/
def Dev.anyReset (d : Dev) : Bool :=
  d.held || d.busy || (List.range 24).any d.blockInReset ||
    (List.range 64).any (fun p => d.bitAt (portRstReg p) (p % 32) && !d.rst.heldPorts.contains p) || d.host.hostReset

/-- A halt takes effect (R504). -/
def Dev.halt (d : Dev) : Dev :=
  let d1 := { d.faultYield with rst := { d.rst with haltDue := false } }
  let m := d1.get F.PWR_STATE_mode
  let d2 := if m = 0 ∨ m = 3 then d1.timeOnlyGo else d1
  (d2.put F.FLT_STATUS_halted 1).fltEvent 3

/-- A halt that waited for the end of a reset (R504, R512). -/
def Dev.haltNow (d : Dev) : Dev := if d.rst.haltDue ∧ !d.anyReset then d.halt else d

/-! ### An occurrence (R505–R512) -/

/-- The subsystem of an event (R509): that of its block, and for a TST event that of the unit tested, which its instance names:
a buffer handle or a table address, the cairn ring, the secure channels. -/
def eventSubsystem (e : Ev) : Nat :=
  if e.code = E.TST_LOGIC_FAIL then 4
  else if e.code = E.TST_MEM_FAIL then
    (if ringBase ≤ e.inst then 7 else if chanBase ≤ e.inst then 5 else 4)
  else pageSubsystem (eventPage e.code)

/-- A reaction as it acts (R503, R513): 6 and 7 act as 0, as does 1 for a block that takes no block reset or is absent, and 3
outside a belay pair. -/
def Dev.acts (d : Dev) (pg r : Nat) : Nat :=
  if 6 ≤ r then 0
  else if r = 1 ∧ !(blockResettable pg && d.blockPresent pg) then 0
  else if r = 3 ∧ !d.flag F.RDN_CTRL_enable then 0
  else r

/-- esc(r) for an event of a block (Table FLT-5). -/
def escalate (pg r : Nat) : Nat :=
  if [7, 12, 13, 11].contains pg then nthD [1, 2, 5, 5, 5, 5] r 5
  else if blockResettable pg then nthD [1, 4, 5, 4, 5, 5] r 5
  else if [6, 8, 9, 10].contains pg then nthD [2, 2, 5, 5, 5, 5] r 5
  else nthD [4, 4, 5, 4, 5, 5] r 5

/-- The class of an event. -/
def eventClass (code : Nat) : Nat := match eventInfo code with | some (c, _) => c | none => 0

/-- The reaction of one new event and whether it escalated (R503, R511), with the windows open before its occurrence. -/
def State.judge (s : State) (e : Ev) : Nat × Bool :=
  let pg := eventPage e.code
  let r := s.dev.acts pg (s.dev.get (F.FLT_REACT_reaction e.code))
  let sub := eventSubsystem e
  let opened := (sub :: dependsOn sub).filterMap (fun x => (Sparse.get? s.flt.windows x).map (·.rOpen))
  if 2 ≤ eventClass e.code ∧ !s.dev.halted ∧ opened ≠ [] then (s.dev.acts pg (escalate pg (opened.foldl max r)), true)
  else (r, false)

/-- The log holds an entry of an event. -/
def LogEntry.names (e : Ev) (l : LogEntry) : Bool := l.code == e.code && l.inst == e.inst

/-- An event is counted (R496, R505): its class's counter and bit. -/
def Dev.countEvent (cls : Nat) (d : Dev) : Dev := (d.sat (F.FLT_CNT cls) 1).setBit R.FLT_PEND cls true

/-- A new log entry, before its reaction is decided. -/
def Dev.entryOf (d : Dev) (e : Ev) : LogEntry :=
  ⟨e.code, eventClass e.code, 0, false, 0, eventSubsystem e, e.inst, nsOf d.now, secOf d.now % 2 ^ 32, d.timeReady⟩

/-- One event enters (R505, R506): a repeat raises its entry's count; a new one is logged, or finds the log full. The events
found new so far are collected, with whether they were logged. -/
def State.enter (x : State × List (Ev × Bool)) (e : Ev) : State × List (Ev × Bool) :=
  let (s, fresh) := x
  let s1 := s.onDev (Dev.countEvent (eventClass e.code))
  if s1.flt.log.any (LogEntry.names e) then
    ({ s1 with flt := { s1.flt with log := s1.flt.log.map (fun l =>
        if LogEntry.names e l then { l with repeats := min 255 (l.repeats + 1) } else l) } }, fresh)
  else if s1.flt.log.length < 64 then
    ({ s1 with flt := { s1.flt with log := s1.flt.log ++ [s1.dev.entryOf e] } }, fresh ++ [(e, true)])
  else (s1.onDev (Dev.fltEvent 0), fresh ++ [(e, false)])

/-- The reaction an event shows when the greatest of its occurrence is `taken`: a block reset reaches only blocks that accept
one. -/
def Dev.shown (d : Dev) (taken : Nat) (e : Ev) : Nat := if taken = 1 then d.acts (eventPage e.code) 1 else taken

/-- The entries of an occurrence completed with their reaction and escalation (R507). -/
def State.decide (taken : Nat) (fresh : List (Ev × Bool)) (esc : Ev → Bool) (s : State) : State :=
  { s with flt := { s.flt with log := s.flt.log.map (fun l =>
      match fresh.find? (fun f => LogEntry.names f.1 l) with
      | some f => { l with reaction := s.dev.shown taken f.1, escalated := esc f.1 }
      | none => l) } }

/-- A logged event of class contained or fatal is a trigger of the cairn ring; a fatal one is kept in the MRAM (R508). -/
def Dev.markFatal (e : Ev) (d : Dev) : Dev :=
  let d1 := d.when (2 ≤ eventClass e.code) (Dev.triggerBy 1)
  if eventClass e.code = 3 then
    (d1.put F.FLT_LAST_FATAL_code e.code).put F.FLT_LAST_FATAL_SEC (secOf d1.now % 2 ^ 32)
  else d1

/-- The reaction of an occurrence carried out (R503, R512); what each block's window then waits for, and whether the windows
fell to a cold reset. -/
def State.react (taken : Nat) (pages : List Nat) (s : State) : State × (Nat → Await) × Bool :=
  match taken with
  | 1 =>
    let s1 := s.onDev (Dev.each (pages.filter (fun pg => s.dev.acts pg 1 == 1)) Dev.blockRequest)
    (s1, fun pg =>
      if s.dev.acts pg 1 ≠ 1 then .nothing
      else if s1.dev.busy then .warm
      else if s1.dev.bitAt R.TOP_BLK_RST pg then .block pg else .nothing, false)
  | 2 =>
    let s1 := if s.dev.flag F.FLT_STATUS_coast then s else s.onDev (fun d => (d.put F.FLT_STATUS_coast 1).fltEvent 4)
    (s1, fun _ => .coast, false)
  | 3 => (s.onDev Dev.faultYield, fun _ => .nothing, false)
  | 4 =>
    let (s1, cold) := s.warmRequest 6 false
    (s1, fun _ => if s1.dev.busy then .warm else .nothing, cold)
  | 5 =>
    if s.dev.anyReset then (s.onDev (fun d => { d with rst := { d.rst with haltDue := true } }), fun _ => .halt, false)
    else (s.onDev Dev.halt, fun _ => .halt, false)
  | _ => (s, fun _ => .nothing, false)

/-- The windows of an occurrence open (R504, R510): while halted only those that are closed, with reaction 0. -/
def State.openAll (halted : Bool) (taken : Nat) (await : Nat → Await) (evs : List Ev) (s : State) : State :=
  (evs.filter (fun e => 2 ≤ eventClass e.code)).foldl (fun t e =>
    let sub := eventSubsystem e
    if halted then (if (Sparse.get? t.flt.windows sub).isSome then t else t.openWindow sub 0 .nothing)
    else t.openWindow sub (t.dev.shown taken e) (await (eventPage e.code))) s

/-- Events of one core cycle, in ascending code order (R507). -/
def sortEvents (l : List Ev) : List Ev := l.foldr (fun e acc => insertBy (fun a b => decide (a.code ≤ b.code)) e acc) []

/-- One occurrence: every event raised together (R505–R512). -/
def State.occurrence (evs : List Ev) (s : State) : State :=
  let (s1, fresh) := (sortEvents evs).foldl State.enter (s, [])
  if fresh = [] then s1.fltSync
  else
    let news := fresh.map (·.1)
    let halted := s1.dev.halted
    let taken := if halted then 0 else ((news.map (fun e => (s.judge e).1)).foldl max 0)
    let esc := fun (e : Ev) => (s.judge e).2
    let s2 := s1.decide taken fresh esc
    let s3 := if news.any esc then s2.onDev (Dev.fltEvent 2) else s2
    let s4 := s3.onDev (Dev.each ((fresh.filter (·.2)).map (·.1)) Dev.markFatal)
    let (s5, await, cold) := s4.react taken ((news.map (fun e => eventPage e.code)).eraseDups)
    if cold then s5 else (s5.openAll halted taken await news).fltSync

/-- Every event raised by a command and by the reactions it led to; a chain longer than the fuel stays raised. -/
def State.settleN : Nat → State → State
  | 0, s => s
  | n + 1, s =>
    if s.dev.raised = [] then s
    else State.settleN n ((s.onDev (fun d => { d with raised := [] })).occurrence s.dev.raised)

/-- The fault unit takes what the command raised. -/
def State.settle (s : State) : State := s.settleN 16

/-! ### Commands of the fault unit (R503–R505) -/

/-- FLT_LOG_POP.pop written 1. -/
def State.logPop (s : State) : State := ({ s with flt := { s.flt with log := s.flt.log.drop 1 } }).fltSync

/-- FLT_CTRL.end_coast written 1. -/
def State.endCoast (s : State) : State := (s.onDev (Dev.put F.FLT_STATUS_coast 0)).completed .coast

/-- FLT_CTRL.release written 1: it acts only while halted. -/
def State.fltRelease (s : State) : State := if s.dev.halted then (s.warmRequest 2 false).1 else s

/-- FLT_REACT_e.reaction written (R503): a block reset of a block that takes none is refused. -/
def Dev.writeReact (e v : Nat) (d : Dev) : Dev :=
  if v % 8 = 1 ∧ !blockResettable (eventPage e) then d.fltEvent 1 else d.put (F.FLT_REACT_reaction e) v

/-! ### The ends of resets (R504, R510) -/

/-- A warm or watchdog reset ends. -/
def State.warmDone (s : State) : State :=
  if !s.dev.busy then s
  else (((s.onDev Dev.warmEnd).completed .warm).onDev Dev.haltNow).fltSync

/-- A block reset ends. -/
def State.blockDone (pg : Nat) (s : State) : State :=
  if !s.dev.blockInReset pg then s
  else (((s.onDev (Dev.blockEnd pg)).completed (.block pg)).onDev Dev.haltNow).fltSync

/-- A host reset begins (R77): the MSI-X table returns to its reset state with it. -/
def State.hostReset (flr : Bool) (s : State) : State :=
  let s1 := s.onDev (Dev.hostReset flr)
  if s.dev.held ∨ s.dev.host.hostReset then s1 else { s1 with irq := {} }

/-- What resets the host side, or takes its link: hot reset, FLR, PERST_N driven low (R64, R77). -/
def State.hostSide (kind : HostReset) (s : State) : State :=
  match kind with
  | .hot => s.hostReset false
  | .flr => s.hostReset true
  | .perst => s.onDev Dev.perstLow

end Sys2Proof.Machine
end

