-- ==== Sys2Proof/Machine/Flags.lean ====
section
/-! DEFINITION. Interrupt levels, vectors and INT_N (R109–R112), and what every command ends with: the fault unit takes the
events raised, the interrupt unit the levels. -/

namespace Sys2Proof.Machine

/-! ### Levels (R109, Table HIF-4) -/

/-- An address is that of an event register whose enables stand at the next register. -/
def isEventReg (a : Nat) : Bool :=
  let off := a % 0x10000
  match a / 0x10000 with
  | 0 => off == 0x50
  | 2 => off == 0x70
  | 3 => off == 0x18
  | 4 => off == 0x08
  | 5 => off == 0x0C
  | 6 => off == 0x50
  | 7 => off == 0x2020
  | 8 => off == 0x1C || off == 0x5C || off == 0x1AC
  | 9 => off == 0x10
  | 10 => off == 0x20
  | 11 => off == 0x08
  | 12 => off == 0x30 || (decide (0x1000 ≤ off) && off % 128 == 0x50)
  | 13 => off % 256 == 0x20
  | 14 => off % 256 == 0x30
  | 15 => off % 256 == 0x20
  | 16 => off == 0x40
  | 17 => off == 0x50
  | 18 => off == 0x04 || (decide (0x1000 ≤ off) && off % 256 == 0x50)
  | 19 => off == 0x30
  | 20 => off == 0x34
  | 21 => off == 0x10
  | 22 => off == 0x30
  | 23 => off == 0x10
  | _ => false

/-- Sources 0–23: an enabled event bit of the block is set. -/
def Dev.blockSources (d : Dev) : List Nat :=
  (d.csr.filterMap (fun c =>
    if isEventReg c.1 ∧ c.2 &&& d.word (c.1 + 4) ≠ 0 then some (c.1 / 0x10000) else none)).eraseDups

/-- Sources 24–27: FLT holds an unacknowledged event of a class. -/
def Dev.classSources (d : Dev) : List Nat := (bitList 4 (d.get F.FLT_PEND)).map (24 + ·)

/-- Sources 28–43: a ring of port 64 holds a completed descriptor. -/
def Dev.ringSources (d : Dev) : List Nat :=
  (d.host.done.filter (fun x => x.2 != 0)).map (fun x => if x.1 < 8 then 36 + x.1 else 20 + x.1)

/-- Sources 44–47: an arm slot fired, was late or refused. -/
def Dev.armSources (d : Dev) : List Nat :=
  ((List.range 4).filter (fun k =>
    d.flag (F.HIF_ARM_CTRL_late k) || d.flag (F.HIF_ARM_CTRL_refused k) || d.flag (F.HIF_ARM_CTRL_fired k))).map (44 + ·)

/-- The sources at level 1. -/
def Dev.sources (d : Dev) : List Nat := d.blockSources ++ d.classSources ++ d.ringSources ++ d.armSources

/-! ### Vectors (R110, R111) -/

/-- The vectors at level 1 for some sources. -/
def Dev.vectors (d : Dev) (l : List Nat) : List Nat :=
  ((l.filter (fun s => d.flag (F.HIF_VEC_MAP_enable s))).map (fun s => d.get (F.HIF_VEC_MAP_vector s))).eraseDups

/-- The message of a vector: the address and the data its MSI-X table entry holds (R84, R111). -/
def Irq.message (q : Irq) (v : Nat) : Sent :=
  let dword := fun (k : Nat) => (Sparse.getD q.msix (4 * v + k) (0 : Word)).toNat
  .message v (dword 0 + 2 ^ 32 * dword 1) (dword 2)

/-- The message of a vector leaves, or waits for its unmasking; none leaves before the last was ended. -/
def State.signal (v : Nat) (s : State) : State :=
  if s.irq.masked.contains v then { s with irq := { s.irq with pending := addOnce v s.irq.pending } }
  else if s.irq.inService.contains v then s
  else
    let irq := { s.irq with inService := addOnce v s.irq.inService, pending := s.irq.pending.filter (· != v) }
    { s with dev := s.dev.emit (s.irq.message v), irq := irq }

/-- The levels as they stand after a command: HIF_SRC_LEVEL, the rising vectors, and INT_N, which EXTEST takes (R112, R443). -/
def State.interrupts (s : State) : State :=
  let l := s.dev.sources
  let mask := l.foldl orBit 0
  let d1 := (s.dev.setWord R.HIF_SRC_LEVEL_0 (BitVec.ofNat 32 mask)).setWord R.HIF_SRC_LEVEL_1 (BitVec.ofNat 32 (mask / 2 ^ 32))
  let v := d1.vectors l
  let rising := v.filter (fun x => !s.irq.level.contains x)
  let intN := !s.dev.sec.extest && l.any (fun x => if x < 32 then d1.bitAt R.HIF_INTN_EN_0 x else d1.bitAt R.HIF_INTN_EN_1 (x - 32))
  let s1 := rising.foldl (fun t x => t.signal x) { s with dev := d1 }
  { s1 with irq := { s1.irq with level := v, intN := intN } }

/-- HIF_VEC_EOI written 1 for a vector (R111). -/
def State.vectorEoi (v : Nat) (s : State) : State :=
  let s1 := { s with irq := { s.irq with inService := s.irq.inService.filter (· != v) } }
  if s1.irq.level.contains v ∨ s1.irq.pending.contains v then s1.signal v else s1

/-- A vector masked or unmasked in the MSI-X table (R84, R111). -/
def State.vectorMask (v : Nat) (mask : Bool) (s : State) : State :=
  if mask then { s with irq := { s.irq with masked := addOnce v s.irq.masked } }
  else
    let s1 := { s with irq := { s.irq with masked := s.irq.masked.filter (· != v) } }
    if s1.irq.pending.contains v then s1.signal v else s1

/-- A dword of a vector's MSI-X table entry written (R84): the message address or data, or the mask (R111). -/
def State.vectorDword (v k : Nat) (w : Word) (s : State) : State :=
  if k < 3 then
    let x := if k = 0 then w &&& 0xFFFFFFFC#32 else w
    { s with irq := { s.irq with msix := if x = 0 then Sparse.del s.irq.msix (4 * v + k) else Sparse.put s.irq.msix (4 * v + k) x } }
  else s.vectorMask v (w.getLsbD 0)

/-- A dword of BAR2: the MSI-X table from 0x0000, the pending-bit array from 0x8000 (R84). -/
def State.bar2 (s : State) (a : Nat) : Word :=
  if a < 0x400 then
    let v := a / 16
    let k := a / 4 % 4
    if k < 3 then Sparse.getD s.irq.msix (4 * v + k) 0 else BitVec.ofNat 32 (bit (s.irq.masked.contains v))
  else if 0x8000 ≤ a ∧ a < 0x8008 then
    BitVec.ofNat 32 (((s.irq.pending.filter (fun v => v / 32 == a / 4 % 2)).map (· % 32)).foldl orBit 0)
  else 0

/-- The address bits of a dword of the BARs that the host can set (R84): BAR0 is of 256 MiB and BAR2 of 64 KiB, each of 64 bits. -/
def barMask (k : Nat) : Word :=
  if k = 4 then 0xF0000000 else if k = 6 then 0xFFFF0000 else if k = 5 ∨ k = 7 then 0xFFFFFFFF else 0

/-- A dword of the configuration space (R83, R84): the vendor and device IDs, the bus-master enable of the command register, the
revision and class code, the two 64-bit memory BARs, non-prefetchable, and the subsystem IDs of HIF_SUBSYS once a full image is applied; the rest of it is what PCI Express itself fixes
(log entry 86). -/
def Dev.configDword (d : Dev) (k : Nat) : Word :=
  if k = 0 then 0x64801F2E
  else if k = 1 then BitVec.ofNat 32 (4 * bit d.host.busMaster)
  else if k = 2 then BitVec.ofNat 32 (0x02800000 + bits (d.word R.TOP_ID) 24 8)
  else if k = 4 ∨ k = 6 then Sparse.getD d.host.bars k 0 ||| 4
  else if k = 5 ∨ k = 7 then Sparse.getD d.host.bars k 0
  else if k = 11 then (if d.applied then d.word R.HIF_SUBSYS else 0)
  else 0

/-- A dword of the BARs written by a configuration write (R84): all ones read back give a BAR's size. -/
def Dev.setBar (k : Nat) (w : Word) (d : Dev) : Dev :=
  let v := w &&& barMask k
  { d with host := { d.host with bars := if v = 0 then Sparse.del d.host.bars k else Sparse.put d.host.bars k v } }

/-- The host puts the function into D3hot or D0 (Table HIF-1); no rule gives the state another effect. -/
def Dev.setD3hot (b : Bool) (d : Dev) : Dev := { d with host := { d.host with d3hot := b } }

/-- The host enables or disables bus mastering, without which the harvester skips its snapshots (R484). -/
def Dev.setBusMaster (b : Bool) (d : Dev) : Dev := { d with host := { d.host with busMaster := b } }

/-- A host read that completes with some data, or with Unsupported Request (R85). -/
def Dev.answer (data : List Word) (unsupported : Bool) (d : Dev) : Dev :=
  { d with host := { d.host with rdata := data, unsupported := unsupported } }

/-! ### The end of a command -/

/-- The fault unit and the interrupt unit take what a command left. -/
def State.commit (s : State) : State := s.settle.interrupts

/-- A command begins: what the last one sent is gone. -/
def State.begin (s : State) : State := s.onDev (fun d => { d with sent := [] })

/-- A command that changes the whole state. -/
def runState (f : State → State) (s : State) : Host.Outcome State Fault Refusal := .next (f s.begin).commit

/-- A command that changes the device. -/
def run (f : Dev → Dev) (s : State) : Host.Outcome State Fault Refusal := runState (State.onDev f) s

/-- A device held in a power-on or cold reset does nothing until its release (R61, R68, R79). -/
def runUp (f : Dev → Dev) (s : State) : Host.Outcome State Fault Refusal := run (Dev.when (!s.dev.held) f) s

/-- As `runUp`, for a command that changes the whole state. -/
def runHost (f : State → State) (s : State) : Host.Outcome State Fault Refusal := runState (if s.dev.held then id else f) s

end Sys2Proof.Machine
end

