-- ==== Sys2Proof/Machine/Access.lean ====
section
/-! DEFINITION. Where a host access lands and what every read does (R52, R71, R84–R90, R92, R95–R97, R107, R108): presence,
the value of a register, the 64-bit pairs and their holding registers, reads that clear, reads of the memories. -/

namespace Sys2Proof.Machine

/-! ### Where a register access lands -/

/-- The end of the control pages (Table HIF-2). -/
abbrev controlEnd : Nat := 0x00180000
/-- The bit-alias region (Table HIF-2). -/
abbrev aliasBase : Nat := 0x08000000
abbrev aliasEnd : Nat := 0x0C000000

/-- The region of an address in the control pages (R33). -/
def controlRegion (a : Nat) : Nat :=
  match rowAt a with
  | some (r, i, _) => instRegion (a / 0x10000) r.kind i
  | none => if timePage (a / 0x10000) then Region.time else Region.global

/-- The three registers of the global region that answer during a warm reset (R71). -/
def answersInReset (a : Nat) : Bool := a == R.TOP_RST_CTRL || a == R.TOP_RST_CAUSE || a == R.TOP_READY

/-- A running warm reset shuts an address: reads give 0, writes are discarded (R71). -/
def Dev.shut (d : Dev) (a : Nat) : Bool := d.busy && controlRegion a != Region.time && !answersInReset a

/-- A register address that the map of a page with port or event instances leaves out: port 64 of TBS and of SEC_PTP_POLICY
(R304, R450), reactions of reserved event codes (R501). -/
def leftOutAddr (a : Nat) : Bool :=
  (R.TBS_PTP_CFG 64 ≤ a && a < R.TBS_PTP_CFG 65) || a == R.SEC_PTP_POLICY 64 ||
    (reactBase ≤ a && a < reactBase + 0x800 && (eventInfo ((a - reactBase) / 4)).isNone)

/-- The register at an address of the control pages, with its first index. -/
def registerAt (a : Nat) : Option (RegRow × Nat) :=
  if leftOutAddr a then none else (rowAt a).map (fun x => (x.1, x.2.1))

/-- The unit and the instance that an address belongs to are present (R51, R52, R63). -/
def Dev.there (d : Dev) (a : Nat) : Bool :=
  match rowAt a with
  | some (r, i, _) => d.instPresent (a / 0x10000) r.kind i
  | none => d.blockPresent (a / 0x10000)

/-- The bits of a register that one instance reserves although its table names them (Tables HIF-6, DPL-4, DPL-5, TDC-3;
R266 for port 64). -/
def reservedHere (a : Nat) : Word :=
  if a = R.DPL_CFG 1 then 1
  else if a = R.DPL_HO_CFG 1 then 0x20000000
  else if a = R.DPL_HO_STEP_TH 1 then 0xFFFFFFFF
  else if a = R.TDC_TRIM_REQ 2 then 0xF0000000
  else if a = R.HIF_INTN_EN_1 ∨ a = R.HIF_SRC_LEVEL_1 then 0xFFFF0000
  else if R.QSC_FWD_MODE 64 ≤ a ∧ a ≤ R.QSC_LAUNCH 64 then 0xFFFFFFFF
  else 0

/-- The bits of a register that its table names. -/
def namedBits (r : RegRow) (a : Nat) : Word :=
  (r.fields.foldl (fun m f => m ||| fieldMask f.lsb f.width) 0) &&& ~~~(reservedHere a)

/-! ### What a register reads as -/

/-- The values the device shows in place of the stored word (R283, R330, R369, R453, Tables REF-7, CNT-5). -/
def Dev.shown? (d : Dev) (r : RegRow) (i a : Nat) : Option Word :=
  let w := d.word a
  let b := a / 0x10000 * 0x10000 + r.off
  if b = R.TDC_CFG 0 then
    if i < 80 then some (setBits (setBits w 0 2 2) 16 16 10)
    else if d.tdcByRef i then some (setBits (setBits w 0 2 (d.tdcMode i)) 16 16 (d.tdcStep i))
    else none
  else if b = R.REF_IN_PERIOD 0 then (if d.get (F.REF_IN_CFG_type i) = 1 then some (BitVec.ofNat 32 1000000000) else none)
  else if b = R.DPL_LRN_RD_DATA then some d.learnRead
  else if b = R.SEC_PAIR_KEY 0 then some 0
  else if b = R.PWR_DOM_HOLD then some d.holdsNow
  else if b = R.CNT_HARV_SLOT_BYTES then some (setBits w 0 6 0)
  else none

/-- The value of a register as a read returns it (R8, R97): its active word, or for buffered fields the shadow while
HIF_CTRL.view_shadow is 1. -/
def Dev.readValue (d : Dev) (r : RegRow) (i a : Nat) : Word :=
  let active := d.word a
  let w :=
    if d.flag F.HIF_CTRL_view_shadow then
      let s := d.shadowWord a
      r.fields.foldl (fun x f => if f.upd == .i then x else setBits x f.lsb f.width (bits s f.lsb f.width)) active
    else active
  ((d.shown? r i a).getD w) &&& namedBits r a

/-- A host read checks the parity of the word it reads, and of its shadow where it reads that (R107, R108). -/
def Dev.readCheck (r : RegRow) (a : Nat) (d : Dev) : Dev :=
  let view := d.flag F.HIF_CTRL_view_shadow
  let onlyShadow := view && r.fields.all (fun f => f.upd != .i)
  let d1 := d.when (d.parity.contains a && !onlyShadow) (Dev.parityHit a)
  d1.when (view && d.parity.contains (a + 2 ^ 28)) (Dev.parityHit a)

/-- A read restores the RC fields of a register (R9); the least free count of a pool is then that of the moment (Table
BPM-7). -/
def Dev.readClears (r : RegRow) (a : Nat) (d : Dev) : Dev :=
  let v := resetWord a
  if r.fields.any (fun f => f.ty == .rc) then
    let d1 := d.setWord a
      (r.fields.foldl (fun x f => if f.ty == .rc then setBits x f.lsb f.width (bits v f.lsb f.width) else x) (d.word a))
    if R.BPM_POOL_MIN 0 ≤ a ∧ a ≤ R.BPM_POOL_MIN 3 then d1.syncPool ((a - R.BPM_POOL_MIN 0) / 4) else d1
  else d

/-! ### 64-bit pairs (R88, R89) -/

/-- The lower halves of the 64-bit register pairs: first address, instances, stride; TBS_TXQ_E2 and _E3 hold seconds 31:0 and
47:32 (R88). -/
def pairRows : List (Nat × Nat × Nat) :=
  [(R.HIF_ARM_SEC_LO 0, 4, 16), (R.HIF_TXR_BASE_LO 0, 8, 32), (R.HIF_RXR_BASE_LO 0, 8, 32), (R.HSL_PRBS_ERR_LO 0, 64, 256),
   (R.QSC_GCL_BASE_SEC_LO 0, 81, 256), (R.TBS_SNAP_SEC_LO, 1, 4), (R.TBS_ADJ_SEC_LO, 1, 4), (R.TDC_RES_LO 0, 92, 64),
   (R.TDC_TRIM_CM_LO 0, 92, 64), (R.PHX_CAL_ERR_LO, 1, 4), (R.PHX_RTT_LO 0, 80, 128), (R.PHX_DELAY_LO 0, 80, 128),
   (R.PHX_OFFSET_LO 0, 80, 128), (R.REF_PTP_OFS_LO, 1, 4), (R.REF_PTP_AT_SEC_LO, 1, 4), (R.SYN_BAND_LO 0, 64, 8),
   (R.SYN_OTP_BAND_LO 0, 64, 8), (R.SEC_SERIAL_LO, 1, 4), (R.MSC_PN_TH_LO, 1, 4), (R.CNT_HARV_RING_LO, 1, 4),
   (R.CRG_HRING_LO, 1, 4), (R.TBS_TXQ_E2, 1, 4)]

/-- A register is the lower half of a 64-bit pair. -/
def isPairLow (a : Nat) : Bool :=
  pairRows.any (fun x => decide (x.1 ≤ a) && (a - x.1) % x.2.2 == 0 && decide ((a - x.1) / x.2.2 < x.2.1))

/-- A dword of a memory is the lower half of a 64-bit pair: a counter value, the sum of a flow context, an SCI, a PN (R477,
Tables FWD-9, MSC-1, MSC-2). -/
def Cellref.pairLow (c : Cellref) (a : Nat) : Bool :=
  match c.area with
  | .ctrVal => a == c.base
  | .ctx => a == c.base + 32
  | .chans => a == c.base
  | .assocs => a == c.base + 4
  | _ => false

/-- The holding register that an access concerns (R89, R477): that of the block page, for the bit alias that of its register's
page; the memories of a block have one of their own. -/
def holdOf (a : Nat) : Nat :=
  if a < controlEnd then a / 0x10000
  else if aliasBase ≤ a ∧ a < aliasEnd then (a - aliasBase) / 32 / 0x10000
  else
    match cellAt a with
    | some c => 32 + c.area.page
    | none => 64

/-- Any access to a page ends what its holding register holds (R89). -/
def Dev.endHold (a : Nat) (d : Dev) : Dev := { d with host := { d.host with hold := Sparse.del d.host.hold (holdOf a) } }

/-- The upper half of a pair held for the next read. -/
def Dev.holdUpper (a : Nat) (v : Word) (d : Dev) : Dev :=
  { d with host := { d.host with hold := Sparse.put d.host.hold (holdOf a) (a, v) } }

/-! ### Reads -/

/-- The bits of a counter or table memory dword as a read returns them (R95, R191, R213, R240, R449, R452, R473, R477). -/
def Dev.cellValue (d : Dev) (c : Cellref) (a : Nat) : Word :=
  let k := (a - c.base) / 4
  match c.area with
  | .ctrVal => BitVec.ofNat 32 (d.ctrRead c.index / 2 ^ (32 * k))
  | .ctrCfg => BitVec.ofNat 32 (d.ctrWord c.index)
  | .buckets =>
    let b := d.bucket (c.index / 4096) (c.index % 4096)
    BitVec.ofNat 32 (b.owner + 16 * b.ownerCl + 256 * b.activity + 65536 * (b.inflight % 32) + 2097152 * bit b.moving)
  | .bufState =>
    let start := (List.range 4).find? (fun k =>
      let base := d.get (F.BPM_POOL_BASE_cell k)
      decide (base ≤ c.index) && (c.index - base) % poolCells k == 0 && decide ((c.index - base) / poolCells k < (d.pool k).size))
    match start with
    | none => 0
    | some k =>
      let cellsOf := fun (h : Nat) => d.get (F.BPM_POOL_BASE_cell (handlePool h)) + handleIndex h * poolCells (handlePool h)
      let b := d.buf (handle k ((c.index - d.get (F.BPM_POOL_BASE_cell k)) / poolCells k))
      let chain := match b.chain with | some h => cellsOf h + 2 ^ 19 | none => 0
      BitVec.ofNat 32 (chain + 2 ^ 20 * b.tag + 2 ^ 30 * bit b.mcast + 2 ^ 31 * bit b.owned)
  | .ptpKeys => if 8 ≤ k then 0 else BitVec.ofNat 32 (d.dword a)
  | .assocs => if 8 ≤ k then 0 else BitVec.ofNat 32 (d.dword a)
  | _ => BitVec.ofNat 32 (d.dword a)

/-- A memory dword answers a read: its unit is present, not shut by a warm reset, powered, and ready (R52, R71, R95, Table
TOP-2). -/
def Dev.cellOpen (d : Dev) (c : Cellref) : Bool :=
  !(d.busy && c.region != Region.time) && d.cellPresent c && d.domainOn c.area.domain &&
    (c.area.page != 16 || d.flag F.TOP_READY_fwd)

/-- One dword read from a memory: hit bits clear (R194), the upper half of a pair is held. -/
def Dev.readCell (a : Nat) (alone : Bool) (d : Dev) : Word × Dev :=
  match cellAt a with
  | none => (0, d.endHold a)
  | some c =>
    let d1 := d.endHold a
    if !d.cellOpen c then (0, d1)
    else
      let v := match Sparse.get? d.host.hold (holdOf a) with
        | some (u, x) => if u = a ∧ alone then x else d.cellValue c a
        | none => d.cellValue c a
      let d2 := if c.area = .hits then d1.storeDword a 0 else d1
      (v, d2.when (alone && c.pairLow a) (Dev.holdUpper (a + 4) (d.cellValue c (a + 4))))

/-- One dword read from a control page (R87, R89, R107); the upper half of a pair is read, and checked, with the lower. -/
def Dev.readRegister (a : Nat) (alone : Bool) (d : Dev) : Word × Dev :=
  let d1 := d.endHold a
  if d.shut a || !d.there a then (0, d1)
  else
    match registerAt a with
    | none => (0, d1)
    | some (r, i) =>
      let held := match Sparse.get? d.host.hold (holdOf a) with
        | some (u, x) => if u = a ∧ alone then some x else none
        | none => none
      match held with
      | some x => (x, d1)
      | none =>
        let v := d.readValue r i a
        let d2 := (d1.readCheck r a).readClears r a
        let keep := fun (e : Dev) => match registerAt (a + 4) with
          | some (r2, i2) => (e.readCheck r2 (a + 4)).holdUpper (a + 4) (d.readValue r2 i2 (a + 4))
          | none => e.holdUpper (a + 4) 0
        (v, d2.when (alone && isPairLow a) keep)

/-- A read of the bit alias: the bit, and no side effect but the parity check (R96, R107). -/
def Dev.readAlias (a : Nat) (d : Dev) : Word × Dev :=
  let o := (a - aliasBase) / 128 * 4
  let b := (a - aliasBase) / 4 % 32
  let d1 := d.endHold a
  if controlEnd ≤ o ∨ d.shut o ∨ !d.there o then (0, d1)
  else
    match registerAt o with
    | none => (0, d1)
    | some (r, i) => (BitVec.ofNat 32 (bits (d.readValue r i o) b 1), d1.readCheck r o)

/-- One dword read by the host (R85, R87): no read is refused or flagged (R92). -/
def Dev.readDword (a : Nat) (alone : Bool) (d : Dev) : Word × Dev :=
  if a < controlEnd then d.readRegister a alone
  else if aliasBase ≤ a ∧ a < aliasEnd then d.readAlias a
  else d.readCell a alone

/-- A host read of one dword, whatever its byte enables; the data goes back to the host (Table HIF-3). -/
def Dev.hostRead (addr : Nat) (d : Dev) : Dev :=
  let x := d.readDword (addr / 4 * 4) true
  { x.2 with host := { x.2.host with rdata := [x.1], unsupported := false } }

/-- A host read of two dwords at an 8-byte-aligned address, both in one core cycle (R88); elsewhere dword by dword. -/
def Dev.hostReadPair (addr : Nat) (d : Dev) : Dev :=
  let a := addr / 4 * 4
  let alone := a % 8 != 0
  let x := d.readDword a alone
  let y := x.2.readDword (a + 4) alone
  { y.2 with host := { y.2.host with rdata := [x.1, y.1], unsupported := false } }

/-- Dwords read one by one from an address up, within one step: an entry of a table reads as it stands at that instant (R90). -/
def Dev.readEach : Nat → Nat → Dev → List Word × Dev
  | 0, _, d => ([], d)
  | n + 1, a, d =>
    let x := d.readDword a true
    let y := Dev.readEach n (a + 4) x.2
    (x.1 :: y.1, y.2)

/-- A host read of some dwords of BAR0 (Table HIF-3). -/
def Dev.hostReads (addr n : Nat) (d : Dev) : Dev :=
  if n = 1 then d.hostRead addr
  else if n = 2 then d.hostReadPair addr
  else
    let x := Dev.readEach n (addr / 4 * 4) d
    { x.2 with host := { x.2.host with rdata := x.1, unsupported := false } }

/-- A host read, or a configuration write (R82–R85, Table HIF-3). -/
def State.hostRead (what : HostRead) (s : State) : State :=
  match what with
  | .bar0 a n => s.onDev (Dev.hostReads a.toNat n)
  | .bar2 a => s.onDev (Dev.answer [s.bar2 (a.toNat / 4 * 4)] false)
  | .config k => s.onDev (Dev.answer [s.dev.configDword k.toNat] false)
  | .other => s.onDev (Dev.answer [] true)
  | .setBar k w => s.onDev (fun d => (d.setBar k.toNat w).answer [] false)
  | .power b => s.onDev (fun d => (d.setD3hot b).answer [] false)
  | .busMaster b => s.onDev (fun d => (d.setBusMaster b).answer [] false)

end Sys2Proof.Machine
end

