-- ==== Sys2Proof/Machine/Writes.lean ====
section
/-! DEFINITION. What every host write does (R52, R71, R87, R90–R100, R102): the access checks, the plain effect of each field
type, the registers whose write starts an operation, the bit alias, and the writes that reach the whole state. -/

namespace Sys2Proof.Machine

/-! ### The plain effect of a write (Table TOP-4, R92–R98) -/

/-- How a write reaches a register: the bits it concerns, and whether it came through the bit alias (R96). -/
structure Via where
  touched : Word
  viaAlias : Bool
  deriving DecidableEq, Repr

/-- A whole-register write. -/
def Via.whole : Via := ⟨0xFFFFFFFF, false⟩

/-- A write to one bit through its alias. -/
def Via.bit (b : Nat) : Via := ⟨fieldMask b 1, true⟩

/-- A write concerns a field. -/
def Via.has (v : Via) (f : FieldRow) : Bool := v.touched &&& fieldMask f.lsb f.width != 0

/-- A field's bits of `w` where the write concerns them, else of `x`. -/
def Via.take (v : Via) (f : FieldRow) (x w : Word) : Word :=
  let m := v.touched &&& fieldMask f.lsb f.width
  (x &&& ~~~m) ||| (w &&& m)

/-- The write-once fields of a register were written since they were last reset (R93). -/
def Dev.onceWritten (d : Dev) (a : Nat) : Bool := d.rst.written.contains a

/-- The flags of a write to a register (R91, R93, R94, R96): reserved bits written 1, write-once fields written again, lockable
fields after the lock. -/
def Dev.writeFlags (d : Dev) (r : RegRow) (a : Nat) (v : Via) (w : Word) : List Nat :=
  let rsvd := if w &&& v.touched &&& ~~~(namedBits r a) != 0 then [6] else []
  let once := if r.fields.any (fun f => f.ty == .wo && v.has f) && (v.viaAlias || d.onceWritten a) then [4] else []
  let lock := if r.fields.any (fun f => f.ty == .wl && v.has f) && d.locked then [3] else []
  rsvd ++ once ++ lock

/-- One flagged access sets its bits and counts once (R92). -/
def Dev.flagAll (is : List Nat) (addr : Nat) (d : Dev) : Dev :=
  match is with
  | [] => d
  | i :: rest => (Dev.each rest (fun k e => e.setBit R.HIF_ACC_ERR k true) d).flagAccess i addr

/-- A field that a write of the host may set now. -/
def Dev.writable (d : Dev) (a : Nat) (v : Via) (f : FieldRow) : Bool :=
  v.has f &&
    (match f.ty with
     | .rw => true
     | .wl => !d.locked
     | .wo => !v.viaAlias && !d.onceWritten a
     | _ => false)

/-- The active word after a plain write. -/
def Dev.plainActive (d : Dev) (r : RegRow) (a : Nat) (v : Via) (w : Word) : Word :=
  r.fields.foldl (fun x f =>
    let m := v.touched &&& fieldMask f.lsb f.width
    match f.ty with
    | .w1c => x &&& ~~~(w &&& m)
    | .w1s => x ||| (w &&& m)
    | _ => if d.writable a v f && f.upd == .i then v.take f x w else x) (d.word a)

/-- A write to a register as its fields' types say: immediate fields at once, buffered ones to the shadow (R97); the parity
of the words written is right again (R106, R108). -/
def Dev.plainWrite (r : RegRow) (a : Nat) (v : Via) (w0 : Word) (d : Dev) : Dev :=
  let w := w0 &&& namedBits r a
  let now := r.fields.any (fun f => d.writable a v f && f.upd == .i)
  let later := r.fields.filter (fun f => d.writable a v f && f.upd != .i)
  let once := r.fields.any (fun f => f.ty == .wo && d.writable a v f)
  let shadow := later.foldl (fun x f => v.take f x w) (d.shadowWord a)
  let d1 := d.setWord a (d.plainActive r a v w)
  let parity := if now then d1.parity.filter (· != a) else d1.parity
  let written := if once then addOnce a d1.rst.written else d1.rst.written
  let d2 := { d1 with parity := parity, rst := { d1.rst with written := written } }
  if later.isEmpty then d2 else d2.setShadow a shadow

/-! ### Registers whose write starts an operation, block by block -/

/-- IMG_CTRL (R47, R53, R94). -/
def Dev.writeImgCtrl (w : Word) (d : Dev) : Dev :=
  let d1 := ((d.put F.IMG_CTRL_pr_group (bits w 2 3)).put F.IMG_CTRL_pr_flush (bits w 6 1)).put F.IMG_CTRL_allow_ref_loss
    (bits w 7 1)
  let d2 := if w.getLsbD 1 then d1.setLock else d1
  let d3 := if w.getLsbD 0 then d2.startFull else d2
  if w.getLsbD 5 then d3.prStart (bits w 2 3) (w.getLsbD 6) (w.getLsbD 7) else d3

/-- A group of a mask holds a present register group that is buffered and not armable (R102). -/
def Dev.namesStrobed (d : Dev) (mask : Nat) : Bool :=
  d.img.ug.any (fun x =>
    let pg := x.1 / 16 / 0x10000
    hasBit mask x.2 && d.blockPresent pg && d.regionPresent (x.1 % 16) &&
      (pageRows pg).any (fun r => r.off == x.1 / 16 % 0x10000 && r.fields.any (fun f => f.upd == .s)))

/-- HIF_ARM_CTRL_k (R102, R103). -/
def Dev.writeArmCtrl (k : Nat) (w : Word) (d : Dev) : Dev :=
  let d1 := d.put (F.HIF_ARM_CTRL_mask k) (bits w 0 8)
  let d2 := d1.setWord (R.HIF_ARM_CTRL k) (d1.word (R.HIF_ARM_CTRL k) &&& ~~~(w &&& 0x000E0000#32))
  let others := d2.host.lateArms.filter (· != k)
  if !w.getLsbD 16 then ({ d2 with host := { d2.host with lateArms := others } }).put (F.HIF_ARM_CTRL_enable k) 0
  else if !d2.timeReady || d2.namesStrobed (bits w 0 8) || decide (1000000000 ≤ d2.get (F.HIF_ARM_NS k)) then
    ({ d2 with host := { d2.host with lateArms := others } }.put (F.HIF_ARM_CTRL_enable k) 0).put (F.HIF_ARM_CTRL_refused k) 1
  else
    let past := decide (d2.armTime k ≤ d2.nowNs)
    { d2 with host := { d2.host with lateArms := if past then addOnce k others else others } }.put (F.HIF_ARM_CTRL_enable k) 1

/-- Arm slots whose time has come fire the union of their groups, and of those a write to HIF_UG_STROBE of that edge names, once
(R101, R103, R104). -/
def Dev.fireArms (ks : List Nat) (strobe : Nat) (d : Dev) : Dev :=
  let named := if d.busy then 0 else strobe
  let due := ks.filter (fun k => d.flag (F.HIF_ARM_CTRL_enable k) && decide (d.armTime k ≤ d.nowNs))
  let mask := due.foldl (fun m k => m ||| d.get (F.HIF_ARM_CTRL_mask k)) named
  let d1 := Dev.each due (fun k e =>
    ((e.put (F.HIF_ARM_CTRL_enable k) 0).put (F.HIF_ARM_CTRL_fired k) 1).when (e.host.lateArms.contains k)
      (Dev.put (F.HIF_ARM_CTRL_late k) 1)) d
  let d2 := { d1 with host := { d1.host with lateArms := d1.host.lateArms.filter (fun k => !due.contains k) } }
  if due.isEmpty ∧ named = 0 then d2 else d2.fireGroups mask

/-- A time register of an armed slot: the write is discarded and refused (R102). -/
def Dev.armTimeRefused (k : Nat) (d : Dev) : Dev := d.put (F.HIF_ARM_CTRL_refused k) 1

/-- HIF_RXR_n_TAIL: the host takes the completed descriptors back and gives new ones (R114). -/
def Dev.writeRxTail (n : Nat) (w : Word) (d : Dev) : Dev :=
  let size := ringLen (d.get (F.HIF_RXR_SIZE_log2 n))
  let step := (bits w 0 16 % size + size - d.get (F.HIF_RXR_TAIL n) % size) % size
  (d.put (F.HIF_RXR_TAIL n) (bits w 0 16)).takeBack (8 + n) step

/-- FWD_STEAL_CFG_k (R200, R202, R204). -/
def Dev.writeStealCfg (k : Nat) (w : Word) (d : Dev) : Dev :=
  let d1 := ((d.put (F.FWD_STEAL_CFG_enable k) (bits w 0 1)).put (F.FWD_STEAL_CFG_adj k) (bits w 1 1)).put
    (F.FWD_STEAL_CFG_idle_cycles k) (bits w 8 8)
  let d2 := d1.put (F.FWD_STEAL_CFG_min_depth k) (bits w 16 5)
  if w.getLsbD 28 then d2.recall k else d2

/-- FWD_ENG_CTRL_k (R205–R207): each bit that changes starts or ends a retirement. -/
def Dev.writeEngCtrl (k : Nat) (w : Word) (d : Dev) : Dev :=
  Dev.each (List.range 12) (fun e x =>
    let was := x.bitAt (R.FWD_ENG_CTRL k) e
    if w.getLsbD e && !was then x.retireStart k e
    else if was && !w.getLsbD e then x.unretire k e
    else x) d

/-- BPM_HOST_FREE (R230). -/
def Dev.writeHostFree (w : Word) (d : Dev) : Dev :=
  let d1 := (d.put F.BPM_HOST_FREE_handle (bits w 0 21)).put F.BPM_HOST_FREE_tag (bits w 21 8)
  if w.getLsbD 31 then (d1.freeBuffer (bits w 0 21) (bits w 21 8) true).event R.BPM_EVENT 6 else d1

/-- QSC_PREEMPT_p (R250, R251): a queue of an express class is never preemptable. -/
def Dev.writePreempt (p : Nat) (w : Word) (d : Dev) : Dev :=
  let express := d.get (F.QSC_FWD_MODE_express p)
  let asked := bits w 8 8
  let d1 := (((d.put (F.QSC_PREEMPT_enable p) (bits w 0 1)).put (F.QSC_PREEMPT_verify_dis p) (bits w 1 1)).put
    (F.QSC_PREEMPT_add_frag p) (bits w 2 2)).put (F.QSC_PREEMPT_verify_time p) (bits w 20 7)
  let d2 := (d1.put (F.QSC_PREEMPT_preemptable p) ((bitList 8 asked).foldl (fun m q => if hasBit express q then m else orBit m q) 0)).when
    (asked &&& express != 0) (Dev.event (R.QSC_EVENT p) 5)
  d2.preemptWrite p

/-- QSC_FLUSH_p (R244): the queues are empty at once. -/
def Dev.writeFlush (p : Nat) (w : Word) (d : Dev) : Dev :=
  Dev.each (bitList 8 w.toNat) (fun q e => e.flushQueue p q 0x26) d

/-- REF_CTRL (R340, R351). -/
def Dev.writeRefCtrl (w : Word) (d : Dev) : Dev :=
  ((d.put F.REF_CTRL_auto_service (bits w 4 1)).put F.REF_CTRL_trust_none (bits w 8 1)).setPhase (bits w 0 2)

/-- DPL_LRN_CTRL (R367, R369, R373). -/
def Dev.writeLearnCtrl (w : Word) (d : Dev) : Dev :=
  let d1 := (d.put F.DPL_LRN_CTRL_enable (bits w 0 1)).put F.DPL_LRN_CTRL_temp_src (bits w 1 1)
  if w.getLsbD 8 then d1.learnClear else d1

/-- SYN_CTRL (R383, R386). -/
def Dev.writeSynCtrl (w : Word) (d : Dev) : Dev :=
  let d1 := if w.getLsbD 1 then d.relock else d
  if w.getLsbD 0 then d1.retarget else d1

/-- PHX_CAL_CTRL (R322). -/
def Dev.writeCalCtrl (w : Word) (d : Dev) : Dev :=
  let d1 := ((d.put F.PHX_CAL_CTRL_link (bits w 0 7)).put F.PHX_CAL_CTRL_target (bits w 8 1)).put F.PHX_CAL_CTRL_chan
    (bits w 16 7)
  if w.getLsbD 31 then d1.calStart else d1

/-- The rope domain wakes where the belay link needs it (R464). -/
def Dev.wakeBelay (d : Dev) : Dev := d.when (d.flag F.RDN_CFG_link_en && d.flag F.RDN_CTRL_enable) (Dev.wake 8)

/-- RDN_CTRL (R405, R417, R418, R427). -/
def Dev.writeRdnCtrl (w : Word) (d : Dev) : Dev :=
  let d1 := ((d.put F.RDN_CTRL_enable (bits w 0 1)).put F.RDN_CTRL_hold (bits w 1 1)).rdnEval.wakeBelay
  let d2 := if w.getLsbD 6 then d1.clearFault else d1
  let d3 := if w.getLsbD 5 then d2.startWalk else d2
  if w.getLsbD 4 then d3.switchover else d3

/-- TDC_CFG_c (R283, R330): lane channels ignore it; a channel that REF runs takes the edge alone. -/
def Dev.writeTdcCfg (c : Nat) (w : Word) (d : Dev) : Dev :=
  if c < 80 then d
  else
    let d1 := d.put (F.TDC_CFG_falling c) (bits w 2 1)
    if d1.tdcByRef c then d1 else (d1.put (F.TDC_CFG_mode c) (bits w 0 2)).put (F.TDC_CFG_interval c) (bits w 16 16)

/-- The registers whose write is more than the plain effect of their fields: what a write of `w` does, from the address of
the register's first instance, the instance and the word. -/
def Dev.special (d : Dev) (b i : Nat) (w : Word) : Option (Dev → Dev) :=
  let pg := b / 0x10000
  if pg = 0 then
    if b = R.TOP_BLK_RST then some (Dev.writeBlockReset w)
    else if b = R.TOP_PORT_RST_0 then some (Dev.writePortReset false w)
    else if b = R.TOP_PORT_RST_1 then some (Dev.writePortReset true w)
    else if b = R.TOP_WDOG_KICK then some (fun e => if w.getLsbD 0 then e.watchdogStart else e)
    else none
  else if pg = 1 then (if b = R.IMG_CTRL then some (Dev.writeImgCtrl w) else none)
  else if pg = 2 then
    if b = R.HIF_UG_STROBE then some (Dev.fireGroups (bits w 0 8))
    else if b = R.HIF_ARM_CTRL 0 then some (Dev.writeArmCtrl i w)
    else if (b = R.HIF_ARM_SEC_LO 0 ∨ b = R.HIF_ARM_SEC_HI 0 ∨ b = R.HIF_ARM_NS 0) ∧ d.flag (F.HIF_ARM_CTRL_enable i) then
      some (Dev.armTimeRefused i)
    else if b = R.HIF_TXR_TAIL 0 then some (Dev.ringTail i (bits w 0 16) [])
    else if b = R.HIF_RXR_TAIL 0 then some (Dev.writeRxTail i w)
    else none
  else if pg = 3 then
    if b = R.PWR_CTRL then some (Dev.writePwrCtrl w)
    else if b = R.PWR_DOM_OFF_REQ then some (Dev.writeOffReq w)
    else none
  else if pg = 4 then
    if b = R.SEC_CTRL then some (fun e => if w.getLsbD 0 then e.attestRequest else e)
    else if b = R.SEC_OTP_PROG then some (Dev.writeOtpProg w)
    else none
  else if pg = 5 then (if b = R.FLT_REACT 0 then some (Dev.writeReact i (bits w 0 3)) else none)
  else if pg = 6 then
    if b = R.TBS_SNAP then some (fun e => if w.getLsbD 0 then e.snap else e)
    else if b = R.TBS_TXQ_POP then some (fun e => if w.getLsbD 0 then e.popStamp else e)
    else none
  else if pg = 7 then
    if b = R.TDC_TRIM_REQ 0 then some (Dev.trimRequest i w)
    else if b = R.TDC_CFG 0 then some (Dev.writeTdcCfg i w)
    else none
  else if pg = 8 then (if b = R.DPL_LRN_CTRL then some (Dev.writeLearnCtrl w) else none)
  else if pg = 9 then
    if b = R.REF_CTRL then some (Dev.writeRefCtrl w)
    else if b = R.REF_FORCE then some (Dev.writeForce w)
    else if b = R.REF_PTP_CTRL then some (fun e => if w.getLsbD 0 then e.ptpPost else e)
    else none
  else if pg = 10 then
    if b = R.SYN_CTRL then some (Dev.writeSynCtrl w)
    else if b = R.SYN_SSC_AUX then some (Dev.writeSscAux w)
    else if b = R.SYN_SSC_CORE then some (Dev.writeSscCore w)
    else none
  else if pg = 11 then
    if b = R.OUT_CTRL then some (Dev.writePark (bits w 0 16))
    else if b = R.OUT_CLK_DLY 0 then some (Dev.writeDelay i w)
    else none
  else if pg = 12 then (if b = R.PHX_CAL_CTRL then some (Dev.writeCalCtrl w) else none)
  else if pg = 13 then
    if b = R.RLK_CTRL 0 then some (fun e => if w.getLsbD 0 then e.ropeRestart i else e)
    else if b = R.RLK_MGT_TX 0 then some (Dev.writeMgtTx i w)
    else if b = R.RLK_MGT_RX 0 then some (fun e => if w.getLsbD 8 then e.mgtPop i else e)
    else none
  else if pg = 14 then
    if b = R.HSL_CTRL 0 then some (Dev.writeHslCtrl i w)
    else if b = R.HSL_PRBS_CTRL 0 then some (Dev.writePrbs i w)
    else none
  else if pg = 15 then (if b = R.MAC_CFG 0 then some (Dev.writeMacCfg i w) else none)
  else if pg = 16 then
    if b = R.FWD_STEAL_CFG 0 then some (Dev.writeStealCfg i w)
    else if b = R.FWD_ENG_CTRL 0 then some (Dev.writeEngCtrl i w)
    else none
  else if pg = 17 then (if b = R.BPM_HOST_FREE then some (Dev.writeHostFree w) else none)
  else if pg = 18 then
    if b = R.QSC_PREEMPT 0 then some (Dev.writePreempt i w)
    else if b = R.QSC_FLUSH 0 then some (Dev.writeFlush i w)
    else none
  else if pg = 19 then (if b = R.CNT_CTRL then some (Dev.writeCntCtrl w) else none)
  else if pg = 20 then (if b = R.CRG_CTRL then some (Dev.writeCrgCtrl w) else none)
  else if pg = 21 then (if b = R.RDN_CTRL then some (Dev.writeRdnCtrl w) else none)
  else if pg = 22 then (if b = R.TST_CTRL then some (Dev.writeTstCtrl w) else none)
  else none

/-- RDN_CFG written: the tunnel ports of lanes 14 and 15 come or go with the belay link (R172, R411), and an ACTIVE member drives ILK_N
while the interlock is fitted (R408). -/
def Dev.belayCfg (d : Dev) : Dev :=
  Dev.each [14, 15] Dev.syncTunnel (d.when d.isActive (fun e => e.driveIlk (e.flag F.RDN_CFG_ilk_en)))

/-- What a plain write of a register sets going, from the device before the write, the address of its first instance, the instance
and the word written. -/
def Dev.after (old : Dev) (b i : Nat) (w : Word) (d : Dev) : Dev :=
  let pg := b / 0x10000
  if b = R.TOP_WDOG_CTRL then d.watchdogStart
  else if pg = 3 then d.when (R.PWR_LAT_TOL_PORT 0 ≤ b && b ≤ R.PWR_LAT_TOL_ROPE 0) (Dev.tolSync old)
  else if b = R.HIF_TXR_SIZE 0 ∨ b = R.HIF_RXR_SIZE 0 then d.when (w.getLsbD 8) (Dev.each [0, 1, 2] Dev.wake)
  else if b = R.SEC_PTP_POLICY 0 then d.when (bits w 0 2 != 0) (Dev.wake 3)
  else if b = R.SEC_PAIR_KEY 0 then d.pairKeySync
  else if b = R.DPL_LRN_TEMP_IN then d.when (d.flag F.DPL_LRN_CTRL_temp_src) (Dev.tempReading (signed 16 (bits w 0 16)))
  else if b = R.REF_IN_CFG 0 then { d with refs := { d.refs with pulses := Sparse.del d.refs.pulses i } }
  else if b = R.OUT_CLK_CFG 0 then d.syncParked
  else if b = R.PHX_CTRL then d.phxEvalAll
  else if b = R.PHX_CFG 0 then d.phxEval i
  else if b = R.RLK_CFG 0 then (d.ropeCfgChanged i).ropeUngate i
  else if b = R.BPM_POOL_LOW 0 then d.lowMode i
  else if b = R.QSC_SK_CTRL then d.skSettle
  else if b = R.RDN_CFG then d.belayCfg.rdnEval.wakeBelay
  else if b = R.CNT_HARV_PERIOD then d.markSnap
  else d

/-! ### Writes to a register -/

/-- The word a special register sees: for an alias write the stored settable bits with the one bit written (R96). -/
def Dev.wordSeen (d : Dev) (r : RegRow) (a : Nat) (v : Via) (w : Word) : Word :=
  if v.viaAlias then
    (r.fields.foldl (fun x f => if f.settable then Via.take ⟨0xFFFFFFFF, false⟩ f x (d.word a) else x) 0 &&& ~~~v.touched) |||
      (w &&& v.touched &&& namedBits r a)
  else w &&& namedBits r a

/-- A write that reached a present register (R91–R98): its effect, then its flags. `addr` is the address of the access. An alias
write beside HIF_ARM_CTRL_k.enable arms nothing anew (R96). -/
def Dev.regWrite (r : RegRow) (i a : Nat) (v : Via) (w : Word) (addr : Nat) (d : Dev) : Dev :=
  let b := a / 0x10000 * 0x10000 + r.off
  if R.SEC_ATT_NONCE 0 = b ∧ d.flag F.SEC_STATUS_att_busy then d.flagAll (d.writeFlags r a v w ++ [3]) addr
  else
    let seen := d.wordSeen r a v w
    let fresh := !d.onceWritten a
    let alone := v.viaAlias && b == R.HIF_ARM_CTRL 0 && !v.touched.getLsbD 16
    let d1 := match if alone then none else d.special b i seen with
      | some f => f { d with parity := d.parity.filter (· != a) }
      | none =>
        let e := d.plainWrite r a v w
        if b = R.TOP_WDOG_CTRL ∧ (v.viaAlias ∨ !fresh) then e else Dev.after d b i seen e
    d1.flagAll (d.writeFlags r a v w) addr

/-- The registers whose write reaches the fault unit, the interrupt unit or a reset of the whole block (R70, R111, R503–R505):
TOP_RST_CTRL, HIF_VEC_EOI, FLT_CTRL, FLT_LOG_POP. -/
def State.regWrite (r : RegRow) (i a : Nat) (v : Via) (w : Word) (addr : Nat) (s : State) : State :=
  let seen := s.dev.wordSeen r a v w
  let flags := s.dev.writeFlags r a v w
  if a = R.TOP_RST_CTRL then
    let s1 := s.onDev (Dev.when (seen.getLsbD 1) (Dev.put F.TOP_RST_CTRL_refused 0))
    ((if seen.getLsbD 0 then (s1.warmRequest 2 true).1 else s1)).onDev (Dev.flagAll flags addr)
  else if a = R.HIF_VEC_EOI_0 ∨ a = R.HIF_VEC_EOI_1 then
    let base := if a = R.HIF_VEC_EOI_1 then 32 else 0
    ((bitList 32 seen.toNat).foldl (fun t k => t.vectorEoi (base + k)) s).onDev (Dev.flagAll flags addr)
  else if a = R.FLT_CTRL then
    let s1 := if seen.getLsbD 1 then s.endCoast else s
    ((if seen.getLsbD 0 then s1.fltRelease else s1)).onDev (Dev.flagAll flags addr)
  else if a = R.FLT_LOG_POP then
    ((if seen.getLsbD 0 then s.logPop else s)).onDev (Dev.flagAll flags addr)
  else s.onDev (Dev.regWrite r i a v w addr)

/-- One dword written to a control page (R52, R71, R87). -/
def State.writeRegister (a : Nat) (be : BitVec 4) (w : Word) (s0 : State) : State :=
  let s := s0.onDev (Dev.endHold a)
  if s.dev.shut a then s
  else if !s.dev.there a then s.onDev (Dev.absentWrite a)
  else
    match registerAt a with
    | none => s.onDev (Dev.flagAccess 2 a)
    | some (r, i) => if be ≠ 0xF then s.onDev (Dev.flagAccess 1 a) else s.regWrite r i a Via.whole w a

/-- One dword written to the bit alias (R96, Table HIF-3). -/
def State.writeAlias (a : Nat) (be : BitVec 4) (w : Word) (s0 : State) : State :=
  let s := s0.onDev (Dev.endHold a)
  let o := (a - aliasBase) / 128 * 4
  let b := (a - aliasBase) / 4 % 32
  if controlEnd ≤ o then s.onDev (Dev.flagAccess 2 a)
  else if s.dev.shut o then s
  else if !s.dev.there o then s.onDev (Dev.absentWrite a)
  else
    match registerAt o with
    | none => s.onDev (Dev.flagAccess 2 a)
    | some (r, i) =>
      if !be.getLsbD 0 then s.onDev (Dev.flagAccess 1 a)
      else s.regWrite r i o (Via.bit b) (if w.getLsbD 0 then fieldMask b 1 else 0) a

/-- One dword written by the host anywhere in BAR0 (R85, R87). -/
def State.writeDword (a : Nat) (be : BitVec 4) (w : Word) (s : State) : State :=
  if a < controlEnd then s.writeRegister a be w
  else if aliasBase ≤ a ∧ a < aliasEnd then s.writeAlias a be w
  else s.onDev (fun d => (d.endHold a).tableDword a be w)

/-- Dwords written from an address up, in ascending order, each with its own outcome; what one raises is taken before the
next (Table HIF-3, R86). -/
def State.writeEach (addr : Nat) (be : BitVec 4) (ws : List Word) (s : State) : State :=
  (ws.foldl (fun (x : Nat × State) w => (x.1 + 4, (x.2.writeDword x.1 be w).settle)) (addr / 4 * 4, s)).2

/-- What both words of one access were given for, under one event code, counts once and with the access's own address: `at_` holds the
address, `cnt` the count, which was `before`. -/
def Dev.onceFor (code : Nat) (at_ cnt : Fld) (a before : Nat) (d : Dev) : Dev :=
  let mine := fun (e : Ev) => e.code == code && (e.inst == a || e.inst == a + 4)
  if d.raised.any mine then
    { (d.put at_ a).put cnt (satAdd cnt.width before 1) with
      raised := d.raised.filter (fun e => !mine e) ++ [⟨code, a⟩] }
  else d

/-- One access that was flagged, or that was turned away as absent, at both of its words counts once (Table HIF-3, R52, R92); `old` is
the device before it. -/
def Dev.oneAccess (a : Nat) (old d : Dev) : Dev :=
  (d.onceFor E.HIF_ACC_REFUSED F.HIF_ACC_ADDR F.HIF_ACC_CNT a (old.get F.HIF_ACC_CNT)).onceFor E.IMG_ABSENT_WRITE
    F.IMG_ABSENT_ADDR F.IMG_ABSENT_CNT a (old.get F.IMG_ABSENT_CNT)

/-- The bits of a W1C field at an address of the control pages that a whole-word write of `w` clears. -/
def Dev.clearedBy (d : Dev) (a : Nat) (be : BitVec 4) (w : Word) : Word :=
  match registerAt a with
  | some (r, _) =>
    if be = 0xF ∧ d.shut a = false ∧ d.there a = true then
      w &&& r.fields.foldl (fun m f => if f.ty == .w1c then m ||| fieldMask f.lsb f.width else m) 0
    else 0
  | none => 0

/-- Two dwords at an 8-byte-aligned address of the control pages: one access to both words in one core cycle (Table HIF-3). A bit that
the upper word clears and the lower word's outcome sets in that cycle stays set (R10), so the clearing comes first. -/
def State.writePair (a : Nat) (be : BitVec 4) (w0 w1 : Word) (s : State) : State :=
  let clear := s.dev.clearedBy (a + 4) be w1
  let s0 := s.onDev (fun d => d.setWord (a + 4) (d.word (a + 4) &&& ~~~clear))
  ((s0.writeDword a be w0).writeDword (a + 4) be (w1 &&& ~~~clear)).onDev (Dev.oneAccess a s.dev)

/-- A host write of some dwords (Table HIF-3): what one access raises is taken before the next (R86). -/
def State.hostWrite (addr : Nat) (be : BitVec 4) (ws : List Word) (s : State) : State :=
  let a := addr / 4 * 4
  match ws with
  | [w0, w1] => if a % 8 = 0 ∧ a < controlEnd then (s.writePair a be w0 w1).settle else s.writeEach a be ws
  | _ => s.writeEach a be ws

/-- A whole register written. -/
def State.writeReg (a : Nat) (w : Nat) (s : State) : State := s.writeDword a 0xF (BitVec.ofNat 32 w)

end Sys2Proof.Machine
end

