-- ==== Sys2Proof/Machine/Upsets.lean ====
section
/-! DEFINITION. Upset bits: the scrubber over the configuration words (R106–R108) and the ECC of the protected memories (R215,
R499, R500). -/

namespace Sys2Proof.Machine

/-! ### Configuration parity (R106–R108) -/

/-- The bits of a register word that parity covers: its fields of Type RW, WO and WL (R106). -/
def parityBits (r : RegRow) : Word :=
  r.fields.foldl (fun m f => if f.settable then m ||| fieldMask f.lsb f.width else m) 0

/-- The fields among those bits that the device updates itself, and that carry no parity for it (R106): the enables of arm slots
and rings, PWR_CTRL.time_only, REF_CTRL.phase, the enables of REF_FORCE, TDC_CFG_c.mode (R283) and TBS_ADJ_CTRL.op (R273), by the
address of the register's first instance. -/
def selfUpdated (b : Nat) : Word :=
  if b = R.HIF_ARM_CTRL 0 then fieldMask 16 1
  else if b = R.HIF_TXR_SIZE 0 ∨ b = R.HIF_RXR_SIZE 0 then fieldMask 8 1
  else if b = R.PWR_CTRL then fieldMask 0 1
  else if b = R.REF_CTRL then fieldMask 0 2
  else if b = R.TDC_CFG 0 then fieldMask (F.TDC_CFG_mode 0).lsb 2
  else if b = R.TBS_ADJ_CTRL then fieldMask F.TBS_ADJ_CTRL_op.lsb F.TBS_ADJ_CTRL_op.width
  else if b = R.REF_FORCE then fieldMask (F.REF_FORCE_t_en).lsb 1 ||| fieldMask (F.REF_FORCE_f_en).lsb 1
  else 0

/-- A register word is protected and its unit present (R106, R107). -/
def Dev.scrubbed (d : Dev) (u : Upset) : Bool :=
  d.there u.addr &&
    (match registerAt u.addr with
     | some (r, _) => (parityBits r &&& ~~~(selfUpdated (u.addr / 0x10000 * 0x10000 + r.off))).getLsbD u.bit.val && (!u.shadow || r.fields.any (fun f => f.upd != .i && f.settable))
     | none => false)

/-- The parity of a word turns over: an even number of upsets goes unseen. -/
def flipParity (a : Nat) (l : List Nat) : List Nat := if l.contains a then l.filter (· != a) else l ++ [a]

/-- An upset of a protected word: its bit flips, its parity with it. -/
def Dev.upset (u : Upset) (d : Dev) : Dev :=
  if !d.scrubbed u then d
  else
    let m := fieldMask u.bit.val 1
    if u.shadow then
      let mark := match Sparse.get? d.shadow u.addr with | some (_, b) => b | none => true
      { d with shadow := Sparse.put d.shadow u.addr (d.shadowWord u.addr ^^^ m, mark)
               parity := flipParity (u.addr + 2 ^ 28) d.parity }
    else { d.setWord u.addr (d.word u.addr ^^^ m) with parity := flipParity u.addr d.parity }

/-- The words whose parity is bad, in the order the scrubber reports them. -/
def Dev.badWords (d : Dev) : List Nat := d.parity.filter (fun a => a < controlEnd || 2 ^ 28 ≤ a)

/-- A pass of the scrubber after some upsets (R107, R108): each bad word of a present unit is reported. -/
def Dev.scrubPass (us : List Upset) (d : Dev) : Dev :=
  let d1 := Dev.each us Dev.upset d
  let d2 := Dev.each ((d1.badWords.map (· % 2 ^ 28)).filter (fun a => d1.there a)) Dev.parityHit d1
  d2.wrap F.HIF_SCRUB_PASS 1

/-! ### ECC (R499, R500) -/

/-- The entry of a memory that an address lies in. -/
def entryBase (a : Nat) : Nat := match cellAt a with | some c => c.base | none => a

/-- A history entry counted from the newest made invalid (R500). -/
def spoilHistory : Nat → List LearnBlock → List LearnBlock
  | _, [] => []
  | n, b :: bs =>
    if n < b.entries.length then
      { b with entries := b.entries.modify n (fun e => { e with word := e.word &&& 0x7FFFFFFF#32 }) } :: bs
    else b :: spoilHistory (n - b.entries.length) bs

/-- An ECC error that a memory met outside the packet memory: its event, and for two wrong bits the outcome of its memory
(R499, R500). -/
def Dev.memError (x : MemErr) (d : Dev) : Dev :=
  let m := x.mem.val
  let a := x.addr
  if m = 0 then d.packetError a x.double
  else
    let e := d.raise (if x.double then E.MEM_UNCORR m else E.MEM_CORR m) a
    if !x.double then e
    else if m = 7 then e
    else if m = 11 then
      { e with tbs := { e.tbs with txq := e.tbs.txq.modify a (fun t => { t with stamp := { t.stamp with valid := false } }) } }.syncTxq
    else if m = 17 then { e with img := { e.img with spoiled := true } }
    else if m = 18 then { e with img := { e.img with groups := Sparse.del e.img.groups ((a - storeBase) / 131072) } }
    else if m = 19 then { e with learn := { e.learn with blocks := spoilHistory a e.learn.blocks } }.syncMinutes
    else if m = 20 then
      let p := e.dpll (a / 4096)
      e.setDpll (a / 4096) { p with ring := p.ring.modify (a % 4096) (fun s => { s with valid := false }) }
    else { e with parity := addOnce (entryBase a) e.parity }

/-- The errors met as an engine looks its header up: an uncorrectable one in its queue ends the header's frame as R215 states
(R500). -/
def Dev.lookupErrors (k e : Nat) (xs : List MemErr) (d : Dev) : Dev :=
  let d1 := Dev.each xs Dev.memError d
  if xs.any (fun x => x.double && x.mem.val == 7) then
    match d1.engQueue k e with
    | i :: _ => d1.frameBad i 0x28
    | [] => d1
  else d1

end Sys2Proof.Machine
end

