-- ==== Sys2Proof/Machine/Commands.lean ====
section
/-! DEFINITION. What single commands are made of beyond the operations of their blocks: host writes of one field, the watchdog
at zero, PCIe errors, signals on lanes, a measurement with those that use it, and the edge of the time clock that passes while
no command waits. -/

namespace Sys2Proof.Machine

/-! ### Host writes of a command's own register -/

/-- The bits of a register that a host reads back and writes as it found them: its settable fields. -/
def Dev.settableBits (d : Dev) (a : Nat) : Word :=
  match rowAt a with
  | some (r, _, _) => d.word a &&& parityBits r
  | none => 0

/-- A host write of one field that leaves the register's other fields as they stand. -/
def State.writeField (f : Fld) (v : Nat) (s : State) : State :=
  s.writeDword f.addr 0xF (setBits (s.dev.settableBits f.addr) f.lsb f.width v)

/-- A transmit ring's tail written, with the descriptors the device then fetches from host memory (R114). -/
def State.txTail (n tail : Nat) (descs : List Desc) (s : State) : State :=
  s.onDev (fun d => (d.endHold (R.HIF_TXR_TAIL n)).hostWrite true Region.global (R.HIF_TXR_TAIL n) (Dev.ringTail n tail descs))

/-- The tolerance registers in the order of Table PWR-6: ports, groups, clusters, rope quads. -/
def toleranceReg (i : Nat) : Nat :=
  if i < 81 then R.PWR_LAT_TOL_PORT i
  else if i < 89 then R.PWR_LAT_TOL_GRP (i - 81)
  else if i < 97 then R.PWR_LAT_TOL_CL (i - 89)
  else R.PWR_LAT_TOL_ROPE (i - 97)

/-! ### Start and resets -/

/-- The watchdog reaches 0 (R78, R501): its event, then a watchdog reset. -/
def State.watchdogZero (s : State) : State :=
  let d := s.dev
  if d.flag F.TOP_WDOG_CTRL_enable ∧ d.get F.TOP_WDOG_COUNT = 1 ∧ !d.busy then
    ((s.onDev (fun e => (e.put F.TOP_WDOG_COUNT 0).fault R.TOP_EVENT 2 E.TOP_WDOG 0)).warmRequest 3 false).1
  else s

/-- The release of RESETN ends a cold reset, that of the supplies a power-on reset (R61, R68); a device not held ignores it. -/
def State.releaseHeld (flash mramOk : Bool) (s : State) : State := if s.dev.held then s.release flash mramOk else s

/-- A partial re-structure that ended lets the resets it held run (R58). -/
def Dev.afterPr (f : Dev → Dev) (d : Dev) : Dev :=
  let e := f d
  if d.prRunning && !e.prRunning then e.runHeld else e

/-! ### PCIe errors (R113) -/

/-- The Completion Timeout bit of the AER Uncorrectable Error Status register. -/
abbrev aerTimeout : Nat := 14

/-- An error recorded in the AER registers; a completion timeout raises no event here. -/
def Dev.aerError (uncorr : Bool) (i : Nat) (d : Dev) : Dev :=
  if uncorr then
    let e := { d with host := { d.host with aer := orBit d.host.aer i } }
    if i = aerTimeout then e else e.fault R.HIF_EVENT 2 E.HIF_AER_UNCORR i
  else ({ d with host := { d.host with aerCorr := orBit d.host.aerCorr i } }).fault R.HIF_EVENT 1 E.HIF_AER_CORR i

/-- A read of ring `r` got no completion: receive rings are 0–7, transmit rings 8–15 (R113, Table HIF-4). -/
def Dev.completionTimeout (r : Nat) (d : Dev) : Dev :=
  let d1 := ({ d with host := { d.host with aer := orBit d.host.aer aerTimeout } }).fault R.HIF_EVENT 3 E.HIF_CPL_TIMEOUT (28 + r)
  if r < 8 then d1.put (F.HIF_RXR_SIZE_enable r) 0 else d1.put (F.HIF_TXR_SIZE_enable (r - 8)) 0

/-! ### Lanes: 0–63 Ethernet, 64–79 rope -/

/-- A signal on an Ethernet lane shows in its status, and wakes its quad and the datapath where the lane's port is enabled
(R464, Table HSL-7). -/
def Dev.ethSignal (l : Nat) (d : Dev) : Dev :=
  let d1 := d.when (d.lanePresent l) (Dev.put (F.HSL_STATUS_signal l) 1)
  match d1.lanePort l with
  | some p => d1.when (d1.flag (F.MAC_CFG_enable p)) (fun e => (e.wake (4 + l / 16)).wakeDatapath)
  | none => d1

/-- A signal is detected on a lane (R154, R464). -/
def Dev.signalDetect (l : Nat) (d : Dev) : Dev := if l < 64 then d.ethSignal l else d.ropeSignal (l - 64)

/-- A lane's CDR locks (R134, R153). -/
def Dev.laneCdrLock (l : Nat) (d : Dev) : Dev := if l < 64 then d.cdrLock l else d.ropeCdr (l - 64) true

/-- A lane's CDR loses lock (R139, R153, R162); `gone` says that an Ethernet lane's signal is gone with it. -/
def Dev.laneCdrLoss (l : Nat) (gone : Bool) (d : Dev) : Dev :=
  if l < 64 then (d.cdrLoss l).when gone (Dev.put (F.HSL_STATUS_signal l) 0) else d.ropeCdr (l - 64) false

/-- Segments of an arriving frame: the first with the place of its delimiter after its lane's latest event and whether it comes in
fragments (R253, R289), or a later one. -/
def Dev.receive (p : Nat) (start : Option (Nat × Bool)) (s : Seg) (d : Dev) : Dev :=
  match start with
  | some (bits, fragments) => d.receiveFirst p bits fragments s
  | none => d.receiveMore p s

/-- Every lane of a port runs in far-end loopback with its recovered clock (R138). -/
def Dev.farEnd (d : Dev) (p : Nat) : Bool :=
  d.portLanes p != [] && (d.portLanes p).all (fun l =>
    d.laneRuns l && d.get (F.HSL_CTRL_loopback l) == 2 && d.flag (F.HSL_STATUS_cdr_lock l))

/-- A port in far-end loopback sends back what it receives; one under PCS loopback takes its own output, and nothing from its line
(R138). -/
def Dev.lineReceive (p : Nat) (start : Option (Nat × Bool)) (s : Seg) (d : Dev) : Dev :=
  let d1 := d.when (d.farEnd p) (Dev.emit (.echo p s.bytes))
  if d1.flag (F.MAC_CFG_pcs_loop p) then d1 else d1.receive p start s

/-! ### What leaves on a port -/

/-- A frame that a port under PCS loopback transmits re-enters its ingress (R138, R139), at once (DESIGN CHOICE, log entry 90). -/
def Dev.reenter (p : Nat) (bs : List Byte) (bad : Bool) (d : Dev) : Dev :=
  if p < 64 ∧ d.flag (F.MAC_CFG_pcs_loop p) then
    d.receiveAt p (d.stampAt d.now) false { bytes := bs, last := true, codeErr := bad, overRate := false }
  else d

/-- What this step put on the lines of ports under PCS loopback re-enters them; a report also reaches PHX (Table PHX-4). -/
def Dev.loopBack (d : Dev) : Dev :=
  Dev.each d.sent (fun x e =>
    match x with
    | .frame p bs => e.reenter p bs false
    | .cut p bs => e.reenter p bs true
    | .report p bs => (e.reenter p bs false).when (e.flag (F.MAC_CFG_pcs_loop p)) (Dev.phxReceive p 0 bs)
    | _ => e) d

/-- A command after which a transmission may have ended or something may have left on a port: ports that were to be disabled at a frame
boundary are (R142), and loopbacks turn (R139). -/
def Dev.lineOut (f : Dev → Dev) (d : Dev) : Dev := (f d).disableSyncs.loopBack

/-- A frame boundary of a port: a report or an announce that waits goes ahead of the queued copies (R313, R419), else the scheduler
picks (R242). -/
def Dev.copyTransmit (p bits : Nat) (ecc : Option (Nat × Bool)) (d : Dev) : Dev :=
  let x := d.phxLeave p bits
  if x.1 then x.2
  else
    let y := x.2.announceLeave p
    if y.1 then y.2 else y.2.frameBoundary p bits ecc

/-! ### Engines and buffers -/

/-- Every bucket's activity is halved (R200); a bucket no entry holds has none. -/
def Dev.halveActivity (d : Dev) : Dev :=
  let half := fun (x : Nat × Bucket) =>
    let b := { x.2 with activity := x.2.activity / 2 }
    if b = { owner := d.defaultOwner (x.1 / 4096) (x.1 % 4096), ownerCl := x.1 / 4096 } then none else some (x.1, b)
  { d with fwd := { d.fwd with buckets := d.fwd.buckets.filterMap half } }

/-- The oldest frame of a port that overruns its first buffer takes a second one (R220). -/
def Dev.chainNext (p : Nat) (d : Dev) : Dev :=
  match d.fwd.frames.find? (fun x => x.2.port == p && x.2.overruns) with
  | some x => d.chainAlloc x.1
  | none => d

/-! ### Measurements -/

/-- Something done to a TDC channel, after which the reference its lane carries is evaluated (R287). -/
def Dev.onChannel (c : Nat) (f : Dev → Dev) (d : Dev) : Dev :=
  let e := f d
  if c < 64 then e.onPort c Dev.phxEval else if c < 80 then e.phxEval c else e

/-- An event edge on a channel: its result, then the calibration, the reference and the outputs that use it (R278, R322, R331,
R399). -/
def Dev.measured (c cm : Nat) (d : Dev) : Dev :=
  match d.tdcAccepts c cm with
  | (some t, _) =>
    let d1 := (d.tdcMeasure c cm).calSample c t
    if 80 ≤ c ∧ c < 88 then (d1.refPulse (c - 80) t).outPulse (c - 80) t else d1
  | _ => d.tdcMeasure c cm

/-! ### The time base and the fuses -/

/-- An adjustment of the time base by its own command takes the shadows of the adjustment registers as they are active (R273). -/
def Dev.adjustNow (op : Nat) (d : Dev) : Dev := if d.blockPresent 6 then d.adjust op else d

/-- A fuse operation started by a write of SEC_OTP_PROG, with VPP in range or not as the pin then is (R437, R438). -/
def State.otpWrite (vpp : Bool) (w : Nat) (s : State) : State := (s.onDev (Dev.setVpp vpp)).writeReg R.SEC_OTP_PROG w

/-! ### The time clock -/

/-- Two core cycles pass with an edge of the time clock, which device counter 8 counts while the counters are ready (R473, R474;
log entry 43). -/
def Dev.coreCycles (d : Dev) : Dev :=
  if d.flag F.TOP_READY_cnt then (d.count (devCtr 8) 1).count (devCtr 8) 1 else d

/-- Ports with a gate that opens soon leave L1 (R133). -/
def Dev.gateWake (d : Dev) : Dev :=
  Dev.each ((d.qsc.oper ++ d.qsc.pend).map (·.1)) (fun p e => if e.opensSoon p then e.leaveL1 p else e) d

/-- An edge of the time clock: time base, output phases, lane synthesizers, PRBS generators, watchdog, the stages of a warm reset, frame
boundaries at which a port is to be disabled, table holds that lapse, gates about to open, the count of core cycles (R70, R78, R133, R137,
R142, R268, R290, R396, R465, R473). -/
def Dev.clockEdge (d : Dev) : Dev := d.timeEdge.outEdge.synthEdge.prbsEdges.watchdogEdge.warmEdge.disableSyncs.syncSnap.holdEdge.gateWake.coreCycles

/-- With no command waiting one edge of the time clock passes. -/
def State.idle (s : State) : Host.Outcome State Fault Refusal := runUp Dev.clockEdge s

end Sys2Proof.Machine
end

