-- ==== Sys2Proof/Machine/BelayCommands.lean ====
section
/-! DEFINITION. The meanings of the commands of the belay pair. -/

namespace Sys2Proof.Machine

/-- HEARTBEAT_SEND: Every 8 µs, each member sends a HEARTBEAT on both belay lanes (R414). -/
def execHeartbeatSend (s : State) : Host.Outcome State Fault Refusal :=
  runUp Dev.heartbeatSend s

/-- HEARTBEAT_RECEIVE: An accepted HEARTBEAT marks the mate present and applies the role rules (R414). -/
def execHeartbeatReceive (message : List Byte) (clean : Bool) (s : State) : Host.Outcome State Fault Refusal :=
  runUp (Dev.heartbeatReceive message clean) s

/-- MATE_LOST: 40 µs without an accepted HEARTBEAT declares the mate lost (R414). -/
def execMateLost (s : State) : Host.Outcome State Fault Refusal :=
  runUp Dev.mateLost s

/-- HEARTBEAT_MISS_RELEASE: An active RDN unit fails to send two heartbeats, so the always-on logic releases ILK_N
(R410). -/
def execHeartbeatMissRelease (s : State) : Host.Outcome State Fault Refusal :=
  runUp Dev.heartbeatMissRelease s

/-- YIELD_RECEIVE: An accepted YIELD from the mate may promote the standby (R415). -/
def execYieldReceive (message : List Byte) (clean : Bool) (s : State) : Host.Outcome State Fault Refusal :=
  runUp (Dev.yieldReceive message clean) s

/-- MIRROR_RECEIVE: An accepted MIRROR is written to the named address on the standby (R426). -/
def execMirrorReceive (message : List Byte) (clean : Bool) (s : State) : Host.Outcome State Fault Refusal :=
  runUp (Dev.mirrorReceive message clean) s

/-- DPLL_STATE_SEND: Every 500 µs, a member sends its DPLL_STATE (R431). -/
def execDpllStateSend (s : State) : Host.Outcome State Fault Refusal :=
  runUp Dev.dpllStateSend s

/-- DPLL_STATE_RECEIVE: An accepted DPLL_STATE triggers the time-base comparison and the mismatch check (R431). -/
def execDpllStateReceive (message : List Byte) (clean : Bool) (s : State) : Host.Outcome State Fault Refusal :=
  runUp (Dev.dpllStateReceive message clean) s

/-- RESYNC_DONE_RECEIVE: An accepted RESYNC_DONE sets synced if no mirror sequence gap exists (R428). -/
def execResyncDoneReceive (message : List Byte) (clean : Bool) (s : State) : Host.Outcome State Fault Refusal :=
  runUp (Dev.resyncDone message clean) s

/-- ILK_CLAIM: ILK_N stays high for rank × 2 µs, so the standby drives it low and enters ACTIVE (R409). -/
def execIlkClaim (s : State) : Host.Outcome State Fault Refusal :=
  runUp Dev.ilkClaim s

/-- GUARD_EXPIRY: The guard timer expires, and a member without interlock enters ACTIVE (R415). -/
def execGuardExpiry (s : State) : Host.Outcome State Fault Refusal :=
  runUp Dev.guardExpiry s

/-- HOLDOFF_EXPIRY: The holdoff timer after a yield ends and holdoff clears (R416). -/
def execHoldoffExpiry (s : State) : Host.Outcome State Fault Refusal :=
  runUp Dev.holdoffExpiry s

/-- SWITCHOVER: A write of RDN_CTRL.switchover is accepted or refused (R417). -/
def execSwitchover (s : State) : Host.Outcome State Fault Refusal :=
  runHost (State.writeField F.RDN_CTRL_switchover 1) s

/-- SWITCHOVER_YIELD: An accepted switchover yields at the first cycle in which the mirror queue is empty (R417). -/
def execSwitchoverYield (s : State) : Host.Outcome State Fault Refusal :=
  runUp Dev.switchoverYield s

/-- CLEAR_FAULT: A write of RDN_CTRL.clear_fault clears fault_lock (R418). -/
def execClearFault (s : State) : Host.Outcome State Fault Refusal :=
  runHost (State.writeField F.RDN_CTRL_clear_fault 1) s

/-- ANNOUNCE_SEND: Every 16 µs, an ACTIVE member inserts an announce on every belay-controlled port (R419). -/
def execAnnounceSend (s : State) : Host.Outcome State Fault Refusal :=
  runUp (Dev.lineOut Dev.announceSend) s

/-- ANNOUNCE_RECEIVE: A consumed announce is accepted and applies the rank rule and the guard (R420). -/
def execAnnounceReceive (frame : List Byte) (s : State) : Host.Outcome State Fault Refusal :=
  runUp (Dev.announceReceive frame) s

/-- MIRROR_SEND: An update leaves the mirror queue at most once per 500 ns as a MIRROR message (R424). -/
def execMirrorSend (s : State) : Host.Outcome State Fault Refusal :=
  runUp Dev.mirrorSend s

/-- RESYNC_WALK: A write of RDN_CTRL.resync starts a walk that queues every flagged entry (R427). -/
def execResyncWalk (s : State) : Host.Outcome State Fault Refusal :=
  runHost (State.writeField F.RDN_CTRL_resync 1) s

/-- RESYNC_WALK_END: A walk finishes and sends RESYNC_DONE (R427). -/
def execResyncWalkEnd (s : State) : Host.Outcome State Fault Refusal :=
  runUp Dev.walkEnd s

/-- ILK_N_CHANGE: The filtered ILK_N level changes, updating ilk_level and starting or stopping a standby's claim wait
(R408). -/
def execIlkNChange (level : Bool) (s : State) : Host.Outcome State Fault Refusal :=
  runUp (Dev.ilkChange level) s

end Sys2Proof.Machine
end

