-- ==== Sys2Proof/Machine/BufferCommands.lean ====
section
/-! DEFINITION. The meanings of the commands of the buffer pools. -/

namespace Sys2Proof.Machine

/-- COPY_ADMIT: The BPM creates a copy and admits it to its egress queue against the static limit, or refuses it
(R235). -/
def execCopyAdmit (s : State) : Host.Outcome State Fault Refusal :=
  runUp Dev.admitNext s

/-- MULTICAST_COPY_CREATE: Copies that one core cycle could not hold are created in the following cycles (R232). -/
def execMulticastCopyCreate (s : State) : Host.Outcome State Fault Refusal :=
  runUp Dev.createMore s

/-- CHAIN_ALLOC: A frame overruns its first buffer and takes one chained second buffer, or is dropped with reason 0x22
(R220). -/
def execChainAlloc (port : Fin 81) (s : State) : Host.Outcome State Fault Refusal :=
  runUp (Dev.lineOut (Dev.chainNext port.val)) s

/-- CACHE_REFILL: A group cache holding fewer than 8 handles pops one from the stack (R223). -/
def execCacheRefill (pool : Fin 4) (groups : BitVec 8) (s : State) : Host.Outcome State Fault Refusal :=
  runUp (Dev.cacheRefill pool.val groups.toNat) s

/-- CACHE_DRAIN: A group cache holding more than 12 handles, or any cache in low mode, pushes a handle to the stack
(R223). -/
def execCacheDrain (pool : Fin 4) (groups : BitVec 8) (s : State) : Host.Outcome State Fault Refusal :=
  runUp (Dev.cacheDrain pool.val groups.toNat) s

/-- BUFFER_FREE: A free is checked for double and foreign free, and accepted or rejected (R229). -/
def execBufferFree (handle : BitVec 21) (tag : BitVec 8) (s : State) : Host.Outcome State Fault Refusal :=
  runUp (Dev.freeBuffer handle.toNat tag.toNat false) s

/-- HOST_FREE: A write of BPM_HOST_FREE.go frees the named buffer under the free checks (R230). -/
def execHostFree (handle : BitVec 21) (tag : BitVec 8) (s : State) : Host.Outcome State Fault Refusal :=
  runHost (State.writeReg R.BPM_HOST_FREE (2 ^ 31 + 2 ^ 21 * tag.toNat + handle.toNat)) s

end Sys2Proof.Machine
end

