-- ==== Sys2Proof/Machine/CaptureCommands.lean ====
section
/-! DEFINITION. The meanings of the commands of the cairn ring and the test unit. -/

namespace Sys2Proof.Machine

/-- CAIRN_ENTRY_WRITE: The capture unit writes a FIFO entry to the ring, ending post-trigger capture when the count is
reached (R487). -/
def execCairnEntryWrite (s : State) : Host.Outcome State Fault Refusal :=
  runUp Dev.cairnWrite s

/-- CRG_ARM: A write of CRG_CTRL.arm empties the ring and starts capture under the mode (R489). -/
def execCrgArm (s : State) : Host.Outcome State Fault Refusal :=
  runHost (State.writeField F.CRG_CTRL_arm 1) s

/-- CRG_MODE_WRITE: A write of mode 0 stops capture, and other mode or dest changes while running are refused (R489).
-/
def execCrgModeWrite (mode : Fin 4) (dest : Bool) (s : State) : Host.Outcome State Fault Refusal :=
  runHost (State.writeReg R.CRG_CTRL (mode.val + 4 * bit dest)) s

/-- CRG_HOST_TRIGGER: A write of CRG_CTRL.trig triggers capture in mode 3 (R490). -/
def execCrgHostTrigger (s : State) : Host.Outcome State Fault Refusal :=
  runHost (State.writeField F.CRG_CTRL_trig 1) s

/-- CRG_TIME_TRIGGER: The time base reaches CRG_TRIG_TIME and triggers capture (R490). -/
def execCrgTimeTrigger (s : State) : Host.Outcome State Fault Refusal :=
  runUp Dev.timeTrigger s

/-- BUFFER_SWEEP: Op 1 runs March C− over free buffers of a pool and quarantines failures (R492). -/
def execBufferSweep (s : State) : Host.Outcome State Fault Refusal :=
  runHost (State.writeReg R.TST_CTRL (2 ^ 31 + 1)) s

/-- ENGINE_BIST: Op 2 runs logic BIST and a queue march on a retired engine (R491). -/
def execEngineBist (s : State) : Host.Outcome State Fault Refusal :=
  runHost (State.writeReg R.TST_CTRL (2 ^ 31 + 2)) s

/-- TDC_SELF_TEST: Op 3 measures 16 internal edge pairs of known delay on a channel (R491). -/
def execTdcSelfTest (s : State) : Host.Outcome State Fault Refusal :=
  runHost (State.writeReg R.TST_CTRL (2 ^ 31 + 3)) s

/-- EYE_SCAN: Op 4 scans a lane's eye with the monitor sampler (R491). -/
def execEyeScan (s : State) : Host.Outcome State Fault Refusal :=
  runHost (State.writeReg R.TST_CTRL (2 ^ 31 + 4)) s

/-- RING_BIST: Op 5 tests the on-die cairn ring destructively (R491). -/
def execRingBist (s : State) : Host.Outcome State Fault Refusal :=
  runHost (State.writeReg R.TST_CTRL (2 ^ 31 + 5)) s

/-- TABLE_BIST: Op 6 tests a table memory destructively (R491). -/
def execTableBist (s : State) : Host.Outcome State Fault Refusal :=
  runHost (State.writeReg R.TST_CTRL (2 ^ 31 + 6)) s

/-- TST_ABORT: A write of TST_CTRL.abort ends the running test with state aborted (R491). -/
def execTstAbort (s : State) : Host.Outcome State Fault Refusal :=
  runHost (State.writeField F.TST_CTRL_abort 1) s

/-- TST_DONE: A test operation completes with pass or fail and its results (R491). -/
def execTstDone (failed : List (BitVec 21)) (res0 : Word) (res1 : Word) (s : State) : Host.Outcome State Fault Refusal :=
  runUp (Dev.testDone (failed.map (·.toNat)) res0 res1) s

end Sys2Proof.Machine
end

