-- ==== Sys2Proof/Machine/CounterCommands.lean ====
section
/-! DEFINITION. The meanings of the commands of the counters and the harvester. -/

namespace Sys2Proof.Machine

/-- COUNTER_VALUE_WRITE: A write of a counter value takes effect at its upper dword and increments gen (R478). -/
def execCounterValueWrite (counter : Fin 8736) (value : BitVec 64) (s : State) : Host.Outcome State Fault Refusal :=
  runHost (State.hostWrite (ctrBase + 8 * counter.val) 0xF [value.extractLsb' 0 32, value.extractLsb' 32 32]) s

/-- COUNTER_CONFIG_WRITE: A counter configuration write changes mode or enable, and a level change clears the counter
(R478). -/
def execCounterConfigWrite (counter : Fin 8736) (data : Word) (s : State) : Host.Outcome State Fault Refusal :=
  runHost (State.hostWrite (ctrCfgBase + 4 * counter.val) 0xF [data]) s

/-- COUNTER_FREEZE: A write of CNT_CTRL.freeze stops or resumes every counter on one edge (R480). -/
def execCounterFreeze (freeze : Bool) (s : State) : Host.Outcome State Fault Refusal :=
  runHost (State.writeField F.CNT_CTRL_freeze (bit freeze)) s

/-- HARVEST_SNAPSHOT: At each snapshot instant, the harvest counters are latched and a record is written to the ring,
or the snapshot is skipped (R482). -/
def execHarvestSnapshot (s : State) : Host.Outcome State Fault Refusal :=
  runUp Dev.snapshot s

/-- HARVEST_NOW: A write of CNT_CTRL.now adds one snapshot at the next core-clock edge (R481). -/
def execHarvestNow (s : State) : Host.Outcome State Fault Refusal :=
  runHost (State.writeField F.CNT_CTRL_now 1) s

/-- HARVEST_RECORD_DONE: A record is fully written, so HEAD advances and snap_done sets (R483). -/
def execHarvestRecordDone (ok : Bool) (s : State) : Host.Outcome State Fault Refusal :=
  runUp (Dev.recordDone ok) s

end Sys2Proof.Machine
end

