-- ==== Sys2Proof/Machine/EngineCommands.lean ====
section
/-! DEFINITION. The meanings of the commands of the forwarding engines. -/

namespace Sys2Proof.Machine

/-- HEADER_DISPATCH: The dispatcher sends a header from a port FIFO to its bucket owner's queue (R185). -/
def execHeaderDispatch (cluster : Fin 8) (s : State) : Host.Outcome State Fault Refusal :=
  runUp (Dev.dispatchCycle cluster.val) s

/-- ENGINE_LOOKUP: An engine takes a header from its queue and returns the action 26 core cycles later (R187). -/
def execEngineLookup (cluster : Fin 8) (engine : Fin 12) (errors : List MemErr) (s : State) : Host.Outcome State Fault Refusal :=
  runUp (Dev.lineOut (fun d => (d.lookupErrors cluster.val engine.val errors).engineLookup cluster.val engine.val)) s

/-- BYPASS_FRAME_ENQUEUE: A port 64 bypass frame is enqueued to its named port once its buffer is allocated and
earlier frames are done (R186). -/
def execBypassFrameEnqueue (ring : Fin 8) (s : State) : Host.Outcome State Fault Refusal :=
  runUp (Dev.bypassEnqueue ring.val) s

/-- STEAL: An idle engine takes ownership of a victim's bucket that has nothing in flight (R200). -/
def execSteal (clusters : BitVec 8) (cycles : Nat) (s : State) : Host.Outcome State Fault Refusal :=
  runUp (Dev.steal (bitList 8 clusters.toNat) cycles) s

/-- ACTIVITY_HALVING: Every 1,024 core cycles, each bucket's activity is halved (R200). -/
def execActivityHalving (s : State) : Host.Outcome State Fault Refusal :=
  runUp Dev.halveActivity s

/-- STEAL_RECALL: A write of FWD_STEAL_CFG_k.recall marks the cluster's buckets moving (R204). -/
def execStealRecall (cluster : Fin 8) (s : State) : Host.Outcome State Fault Refusal :=
  runHost (State.writeField (F.FWD_STEAL_CFG_recall cluster.val) 1) s

/-- BUCKET_MOVE: A moving bucket's in-flight count reaches zero and the bucket passes to its new owner (R204). -/
def execBucketMove (cluster : Fin 8) (bucket : BitVec 12) (s : State) : Host.Outcome State Fault Refusal :=
  runUp (Dev.moveBucket cluster.val bucket.toNat) s

/-- ENGINE_RETIRE: A write of a retire bit starts an engine's retirement, or is refused (R205). -/
def execEngineRetire (cluster : Fin 8) (engine : Fin 12) (s : State) : Host.Outcome State Fault Refusal :=
  runHost (State.writeField ⟨R.FWD_ENG_CTRL cluster.val, engine.val, 1⟩ 1) s

/-- RETIRE_DONE: A retiring engine owns no bucket and is empty, so its retired bit sets (R205). -/
def execRetireDone (cluster : Fin 8) (engine : Fin 12) (s : State) : Host.Outcome State Fault Refusal :=
  runUp (Dev.retireDone cluster.val engine.val) s

/-- ENGINE_UNRETIRE: A write of 0 to a retire bit returns the engine to service (R207). -/
def execEngineUnretire (cluster : Fin 8) (engine : Fin 12) (s : State) : Host.Outcome State Fault Refusal :=
  runHost (State.writeField ⟨R.FWD_ENG_CTRL cluster.val, engine.val, 1⟩ 0) s

/-- ENGINE_HANG: An engine holds a header for more than 1.0 µs, so it is retired and the header dropped (R502). -/
def execEngineHang (cluster : Fin 8) (engine : Fin 12) (s : State) : Host.Outcome State Fault Refusal :=
  runUp (Dev.engineHang cluster.val engine.val) s

end Sys2Proof.Machine
end

