-- ==== Sys2Proof/Machine/FaultCommands.lean ====
section
/-! DEFINITION. The meanings of the commands of the fault unit. -/

namespace Sys2Proof.Machine

/-- LOG_POP: A write of FLT_LOG_POP.pop removes the oldest log entry (R505). -/
def execLogPop (s : State) : Host.Outcome State Fault Refusal :=
  runHost (State.writeReg R.FLT_LOG_POP 1) s

/-- WINDOW_CLOSE: A subsystem's recovery window closes FLT_WIN_s after its reaction completes (R510). -/
def execWindowClose (subsystem : Fin 8) (s : State) : Host.Outcome State Fault Refusal :=
  runHost (State.windowClose subsystem.val) s

/-- FLT_RELEASE: A write of FLT_CTRL.release while halted starts a warm reset that ends the halt (R504). -/
def execFltRelease (s : State) : Host.Outcome State Fault Refusal :=
  runHost (State.writeReg R.FLT_CTRL 1) s

/-- END_COAST: A write of FLT_CTRL.end_coast ends coast, and selection resumes at the next tick (R503). -/
def execEndCoast (s : State) : Host.Outcome State Fault Refusal :=
  runHost (State.writeReg R.FLT_CTRL 2) s

/-- FLT_REACT_WRITE: A write of FLT_REACT_e sets a reaction, and a block reset for a non-resettable block is refused
(R503). -/
def execFltReactWrite (event : Fin 512) (reaction : Fin 8) (s : State) : Host.Outcome State Fault Refusal :=
  runHost (State.writeReg (R.FLT_REACT event.val) reaction.val) s

end Sys2Proof.Machine
end

