-- ==== Sys2Proof/Machine/HostCommands.lean ====
section
/-! DEFINITION. The meanings of the commands of host access, update groups, scrubbing, interrupts and rings. -/

namespace Sys2Proof.Machine

/-- REGISTER_WRITE: A write to a register that has no row of its own takes effect, or is refused and flagged under the
access rules (R87). -/
def execRegisterWrite (addr : BitVec 28) (be : BitVec 4) (data : List Word) (s : State) : Host.Outcome State Fault Refusal :=
  runHost (State.hostWrite addr.toNat be data) s

/-- RC_READ: A read of an RC field returns its value and restores the field to its reset value (R9). -/
def execRcRead (what : HostRead) (s : State) : Host.Outcome State Fault Refusal :=
  runHost (State.hostRead what) s

/-- PAIR_LOWER_READ: A dword read of the lower half of a 64-bit pair copies the upper half into the page's holding
register (R89). -/
def execPairLowerRead (addr : BitVec 28) (both : Bool) (s : State) : Host.Outcome State Fault Refusal :=
  runUp (if both then Dev.hostReadPair addr.toNat else Dev.hostRead addr.toNat) s

/-- TABLE_ENTRY_WRITE: A table entry takes effect when its highest-addressed dword is written (R90). -/
def execTableEntryWrite (addr : BitVec 28) (data : List Word) (s : State) : Host.Outcome State Fault Refusal :=
  runHost (State.hostWrite addr.toNat 0xF data) s

/-- BIT_ALIAS_WRITE: A write to the bit-alias region acts on one bit according to the type of its field (R96). -/
def execBitAliasWrite (offset : BitVec 26) (be : BitVec 4) (data : Word) (s : State) : Host.Outcome State Fault Refusal :=
  runHost (State.hostWrite (aliasBase + offset.toNat) be [data]) s

/-- SHADOW_WRITE: A write to a field with Upd S or T goes to its shadow and sets the pending bit of its update group
(R97). -/
def execShadowWrite (addr : BitVec 28) (data : Word) (s : State) : Host.Outcome State Fault Refusal :=
  runHost (State.hostWrite addr.toNat 0xF [data]) s

/-- UG_STROBE: A write to HIF_UG_STROBE fires the named update groups and copies every shadow to its active value
(R98). -/
def execUgStrobe (groups : BitVec 8) (s : State) : Host.Outcome State Fault Refusal :=
  runHost (State.writeReg R.HIF_UG_STROBE groups.toNat) s

/-- ARM_SLOT_ARM: Setting HIF_ARM_CTRL_k.enable arms the slot, or the arm is refused under R102 (R102). -/
def execArmSlotArm (slot : Fin 4) (groups : BitVec 8) (s : State) : Host.Outcome State Fault Refusal :=
  runHost (State.writeReg (R.HIF_ARM_CTRL slot.val) (65536 + groups.toNat)) s

/-- ARM_SLOT_FIRE: The time base reaches the armed time, or a step passes it, and the slot fires its update groups
(R101). -/
def execArmSlotFire (edge : Firing) (s : State) : Host.Outcome State Fault Refusal :=
  runUp (Dev.fireArms (bitList 4 edge.slots.toNat) edge.strobe.toNat) s

/-- SCRUB_PASS: The scrubber checks the parity of every protected word and raises CFG_PARITY on a mismatch (R107). -/
def execScrubPass (upsets : List Upset) (s : State) : Host.Outcome State Fault Refusal :=
  runUp (Dev.scrubPass upsets) s

/-- VECTOR_EOI: A write to HIF_VEC_EOI re-enables a vector and resends its message if the level is still 1 (R111). -/
def execVectorEoi (vector : Fin 64) (s : State) : Host.Outcome State Fault Refusal :=
  runHost (State.writeReg (if vector.val < 32 then R.HIF_VEC_EOI_0 else R.HIF_VEC_EOI_1) (2 ^ (vector.val % 32))) s

/-- VECTOR_UNMASK: Unmasking a vector whose pending bit is set sends its message (R111). -/
def execVectorUnmask (vector : Fin 64) (entry : VectorWrite) (s : State) : Host.Outcome State Fault Refusal :=
  runHost (State.vectorDword vector.val entry.dword.val entry.data) s

/-- AER_ERROR: The HIF records a correctable or uncorrectable PCIe error and raises the corresponding HIF event
(R113). -/
def execAerError (uncorrectable : Bool) (number : Fin 32) (s : State) : Host.Outcome State Fault Refusal :=
  runUp (Dev.aerError uncorrectable number.val) s

/-- COMPLETION_TIMEOUT: A device read request gets no completion in time, and the ring that issued it stops (R113). -/
def execCompletionTimeout (ring : Fin 16) (s : State) : Host.Outcome State Fault Refusal :=
  runUp (Dev.completionTimeout ring.val) s

/-- TX_RING_TAIL: The host advances a transmit ring tail, and the device fetches the new descriptors (R114). -/
def execTxRingTail (ring : Fin 8) (tail : BitVec 16) (descs : List Desc) (s : State) : Host.Outcome State Fault Refusal :=
  runHost (State.txTail ring.val tail.toNat descs) s

/-- CPU_FRAME_FETCHED: The first 128 B of a port 64 frame arrive from host memory, its header is parsed and its first
buffer is allocated (R218). -/
def execCpuFrameFetched (ring : Fin 8) (seg : Seg) (s : State) : Host.Outcome State Fault Refusal :=
  runUp (Dev.lineOut (Dev.fetchFrame ring.val seg)) s

end Sys2Proof.Machine
end

