-- ==== Sys2Proof/Machine/ImageCommands.lean ====
section
/-! DEFINITION. The meanings of the commands of the structure image and partial re-structure. -/

namespace Sys2Proof.Machine

/-- IMG_SLOT_READ_DONE: A flash slot has been read, and the loader verifies it or falls back to slot B (R45). -/
def execImgSlotReadDone (image : List Byte) (s : State) : Host.Outcome State Fault Refusal :=
  runUp (Dev.slotRead image) s

/-- FLASH_TIMEOUT: The flash does not answer within 1 ms, so the slot fails with reason 0x11 (R45). -/
def execFlashTimeout (s : State) : Host.Outcome State Fault Refusal :=
  runUp Dev.flashTimeout s

/-- STAGING_WINDOW_WRITE: A write to the full staging window is accepted in state empty or failed, and is otherwise
discarded and flagged busy (R47). -/
def execStagingWindowWrite (index : BitVec 20) (be : BitVec 4) (data : Word) (s : State) : Host.Outcome State Fault Refusal :=
  runHost (State.hostWrite (stagingBase + 4 * index.toNat) be [data]) s

/-- START_FULL: A write of IMG_CTRL.start_full verifies and applies the pushed image, or is refused with reason 0x0E
or 0x12 (R47). -/
def execStartFull (s : State) : Host.Outcome State Fault Refusal :=
  runHost (State.writeField F.IMG_CTRL_start_full 1) s

/-- PENDING_WINDOW_WRITE: A write to the pending window is accepted while no image operation runs, and is otherwise
discarded and flagged busy (R54). -/
def execPendingWindowWrite (index : BitVec 15) (be : BitVec 4) (data : Word) (s : State) : Host.Outcome State Fault Refusal :=
  runHost (State.hostWrite (pendingBase + 4 * index.toNat) be [data]) s

/-- PR_START: A write of pr_start begins a partial re-structure of group pr_group, or is refused under R53 or R55
(R56). -/
def execPrStart (group : Fin 8) (flush : Bool) (allowLoss : Bool) (s : State) : Host.Outcome State Fault Refusal :=
  runHost (State.writeReg R.IMG_CTRL (32 + 4 * group.val + 64 * bit flush + 128 * bit allowLoss)) s

/-- PR_VERIFY_DONE: Partial-image verification ends and the group enters pr_quiescing, or the operation fails (R56).
-/
def execPrVerifyDone (s : State) : Host.Outcome State Fault Refusal :=
  runUp (Dev.afterPr Dev.prVerifyDone) s

/-- PR_DRAIN_TIMEOUT: IMG_PR_DRAIN expires and the group's remaining queued frames are flushed (R56). -/
def execPrDrainTimeout (s : State) : Host.Outcome State Fault Refusal :=
  runUp Dev.prDrainTimeout s

/-- PR_QUIESCED: Every bucket of the group reaches an in-flight count of zero, and the changed sections are applied
(R56). -/
def execPrQuiesced (s : State) : Host.Outcome State Fault Refusal :=
  runUp (Dev.afterPr Dev.prQuiesced) s

/-- IMG_LOCK: A write of IMG_CTRL.lock sets the image lock, after which WL fields refuse writes (R94). -/
def execImgLock (s : State) : Host.Outcome State Fault Refusal :=
  runHost (State.writeField F.IMG_CTRL_lock 1) s

end Sys2Proof.Machine
end

