-- ==== Sys2Proof/Machine/LaneCommands.lean ====
section
/-! DEFINITION. The meanings of the commands of the Ethernet lanes and frame reception. -/

namespace Sys2Proof.Machine

/-- SIGNAL_DETECT: A signal is detected on a lane, which is a wake event for its domains (R464). -/
def execSignalDetect (lane : Fin 80) (s : State) : Host.Outcome State Fault Refusal :=
  runUp (Dev.signalDetect lane.val) s

/-- CDR_LOCK: A lane's CDR locks (R134). -/
def execCdrLock (lane : Fin 80) (s : State) : Host.Outcome State Fault Refusal :=
  runUp (Dev.laneCdrLock lane.val) s

/-- CDR_LOSS: A lane's CDR loses lock, setting HSL_EVENT.cdr_loss (R139). -/
def execCdrLoss (lane : Fin 80) (gone : Bool) (s : State) : Host.Outcome State Fault Refusal :=
  runUp (Dev.laneCdrLoss lane.val gone) s

/-- ALIGN_LOCK: A lane regains alignment lock, and the alignment registers, epoch and residuals are rewritten (R126).
-/
def execAlignLock (lane : Fin 64) (slip : Nat) (deskew : Nat) (fecPos : Nat) (s : State) : Host.Outcome State Fault Refusal :=
  runUp (Dev.alignLock lane.val slip deskew fecPos) s

/-- ALIGN_LOSS: A lane loses block, codeword or marker lock, clearing align_lock and phase_valid (R126). -/
def execAlignLoss (lane : Fin 64) (s : State) : Host.Outcome State Fault Refusal :=
  runUp (Dev.alignLoss lane.val) s

/-- AN_COMPLETE: Auto-negotiation resolves, and a result that differs from the image's mode sets an_fail (R129). -/
def execAnComplete (port : Fin 64) (techs : List Tech) (fecAble : Bool) (fecReq : Nat) (s : State) :
    Host.Outcome State Fault Refusal :=
  runUp (Dev.anComplete port.val techs fecAble fecReq) s

/-- AN_BREAK_LINK_TIMEOUT: The break-link time ends and negotiation restarts (R129). -/
def execAnBreakLinkTimeout (port : Fin 64) (s : State) : Host.Outcome State Fault Refusal :=
  runUp (Dev.breakLinkEnds port.val) s

/-- TRAINING_TIMEOUT: Training exceeds its IEEE 802.3 time limit, so an_fail sets and negotiation restarts (R130). -/
def execTrainingTimeout (port : Fin 64) (s : State) : Host.Outcome State Fault Refusal :=
  runUp (Dev.trainingTimeout port.val) s

/-- LINK_UP: A port's link comes up and its ready bit sets (R67). -/
def execLinkUp (port : Fin 64) (s : State) : Host.Outcome State Fault Refusal :=
  runUp (Dev.linkUp port.val) s

/-- LINK_DOWN: A port's link goes down, its ready bit clears and its queued copies are discarded (R244). -/
def execLinkDown (line : LineLoss) (s : State) : Host.Outcome State Fault Refusal :=
  runUp (Dev.lineOut (Dev.lineDown line.port.val line.remote)) s

/-- PORT_ENABLE: A write of MAC_CFG_p.enable enables the port at a frame boundary and sets tx_gb_phase, or disables it
(R125). -/
def execPortEnable (port : Fin 64) (data : Word) (s : State) : Host.Outcome State Fault Refusal :=
  runHost (State.writeReg (R.MAC_CFG port.val) data.toNat) s

/-- L1_ENTRY: A lane enters L1 while its link is up, its queues are empty and the tolerance allows (R132). -/
def execL1Entry (lane : Fin 64) (s : State) : Host.Outcome State Fault Refusal :=
  runUp (Dev.l1Entry lane.val) s

/-- L1_EXIT: A lane leaves L1 for an enqueue, a launch time or a gate opening (R133). -/
def execL1Exit (lane : Fin 64) (s : State) : Host.Outcome State Fault Refusal :=
  runUp (Dev.l1Exit lane.val) s

/-- L2_ENTRY: A lane enters L2 when its port is disabled, has no link, or the lane is unused (R134). -/
def execL2Entry (lane : Fin 64) (s : State) : Host.Outcome State Fault Refusal :=
  runUp (Dev.l2Entry lane.val) s

/-- L2_EXIT: A lane leaves L2, and its PLL and CDR lock within 48 µs (R134). -/
def execL2Exit (lane : Fin 64) (s : State) : Host.Outcome State Fault Refusal :=
  runUp (Dev.l2Exit lane.val) s

/-- PHASE_VALID: 1.2 ms after alignment lock, the lane's phase_valid sets (R134). -/
def execPhaseValid (lane : Fin 64) (s : State) : Host.Outcome State Fault Refusal :=
  runUp (Dev.phaseValid lane.val) s

/-- PRBS_INJECT: A write of HSL_PRBS_CTRL.inject inverts the next generated bit (R137). -/
def execPrbsInject (lane : Fin 64) (s : State) : Host.Outcome State Fault Refusal :=
  runHost (State.writeField (F.HSL_PRBS_CTRL_inject lane.val) 1) s

/-- PRBS_LOCK: After 128 error-free bits, the PRBS checker sets prbs_lock (R136). -/
def execPrbsLock (found : PrbsCount) (s : State) : Host.Outcome State Fault Refusal :=
  runUp (Dev.prbsLock found.lane.val found.errors) s

/-- PRBS_LOCK_LOSS: Sixteen errors within 256 bits clear prbs_lock and set prbs_lock_loss (R136). -/
def execPrbsLockLoss (lane : Fin 64) (errors : Nat) (s : State) : Host.Outcome State Fault Refusal :=
  runUp (Dev.prbsLockLoss lane.val errors) s

/-- FRAME_RECEIVE: The ingress MAC receives a frame, sends its header window to an engine and writes its payload to a
buffer (R22). -/
def execFrameReceive (port : Fin 64) (start : Option (Nat × Bool)) (seg : Seg) (s : State) : Host.Outcome State Fault Refusal :=
  runUp (Dev.lineOut (Dev.lineReceive port.val start seg)) s

/-- LINK_TRAINING_DONE: Link training completes on every lane of a port, and alignment lock is then sought (R130). -/
def execLinkTrainingDone (port : Fin 64) (s : State) : Host.Outcome State Fault Refusal :=
  runUp (Dev.trainingDone port.val) s

end Sys2Proof.Machine
end

