-- ==== Sys2Proof/Machine/OutputCommands.lean ====
section
/-! DEFINITION. The meanings of the commands of the synthesiser and the outputs. -/

namespace Sys2Proof.Machine

/-- ROOT_LOCK_LOSS: The root loses lock, and the derived clocks switch to the backup PLL (R384). -/
def execRootLockLoss (s : State) : Host.Outcome State Fault Refusal :=
  runUp Dev.rootLoss s

/-- ROOT_RELOCK_TIMER: relock_int after a loss, an automatic lock attempt starts (R385). -/
def execRootRelockTimer (s : State) : Host.Outcome State Fault Refusal :=
  runUp Dev.relockTimer s

/-- ROOT_LOCK_ATTEMPT_END: A lock attempt confirms lock or fails, and the clocks return from the backup PLL on success
(R382). -/
def execRootLockAttemptEnd (outcome : Fin 4) (s : State) : Host.Outcome State Fault Refusal :=
  runUp (Dev.attemptEnd outcome.val) s

/-- SYN_RELOCK: A write of SYN_CTRL.relock while the root is unlocked starts a lock attempt (R383). -/
def execSynRelock (s : State) : Host.Outcome State Fault Refusal :=
  runHost (State.writeReg R.SYN_CTRL 2) s

/-- SYN_RETARGET: A write of SYN_CTRL.retarget relocks the root on a band chosen afresh, or is refused (R386). -/
def execSynRetarget (s : State) : Host.Outcome State Fault Refusal :=
  runHost (State.writeReg R.SYN_CTRL 1) s

/-- SSC_AUX_WRITE: A write of SYN_SSC_AUX changes spread spectrum from the next modulation period (R390). -/
def execSscAuxWrite (data : Word) (s : State) : Host.Outcome State Fault Refusal :=
  runHost (State.writeReg R.SYN_SSC_AUX data.toNat) s

/-- SSC_CORE_WRITE: A write of SYN_SSC_CORE is accepted only in a time-less plan (R392). -/
def execSscCoreWrite (data : Word) (s : State) : Host.Outcome State Fault Refusal :=
  runHost (State.writeReg R.SYN_SSC_CORE data.toNat) s

/-- OUT_PARK: A write of OUT_CTRL.park parks or unparks outputs, and an unpark during a retarget is refused (R397). -/
def execOutPark (park : BitVec 16) (s : State) : Host.Outcome State Fault Refusal :=
  runHost (State.writeReg R.OUT_CTRL park.toNat) s

/-- OUT_DELAY_WRITE: A write of OUT_CLK_i_DLY moves the edge at most 64 fine steps per period (R396). -/
def execOutDelayWrite (output : Fin 12) (data : Word) (s : State) : Host.Outcome State Fault Refusal :=
  runHost (State.writeReg (R.OUT_CLK_DLY output.val) data.toNat) s

/-- PPS_EDGE: A PPSOUT leading-edge instant arrives and a pulse of the configured width is sent (R398). -/
def execPpsEdge (output : Fin 4) (s : State) : Host.Outcome State Fault Refusal :=
  runUp (Dev.ppsEdge output.val) s

/-- PPS_ALIGN_LOST: No REFIN pulse arrives within period plus window, so the output holds its alignment (R400). -/
def execPpsAlignLost (output : Fin 4) (s : State) : Host.Outcome State Fault Refusal :=
  runUp (Dev.ppsLost output.val) s

/-- DLL_UNLOCK: An output's delay-locked line loses lock, and the output is held parked (R404). -/
def execDllUnlock (output : Fin 16) (s : State) : Host.Outcome State Fault Refusal :=
  runUp (Dev.dllUnlock output.val) s

/-- DLL_RELOCK: An output's delay-locked line relocks and the output is no longer held parked (R404). -/
def execDllRelock (output : Fin 16) (s : State) : Host.Outcome State Fault Refusal :=
  runUp (Dev.dllRelock output.val) s

/-- CONTROL_RAMP_END: The post-relock ramp has moved the whole control value into the root's adjust, so f stops and
TBS_EVENT.ff_off sets (R374). -/
def execControlRampEnd (s : State) : Host.Outcome State Fault Refusal :=
  runUp Dev.rampEnd s

end Sys2Proof.Machine
end

