-- ==== Sys2Proof/Machine/PhaseCommands.lean ====
section
/-! DEFINITION. The meanings of the commands of phase transfer. -/

namespace Sys2Proof.Machine

/-- PHX_SAMPLE: Every 1.0 µs, PHX forms m_in and the offset o from the lane's TDC result and passes o to REF (R308).
-/
def execPhxSample (link : Fin 80) (blocks : Nat) (s : State) : Host.Outcome State Fault Refusal :=
  runUp (Dev.phxSample link.val blocks) s

/-- PHX_REPORT_SEND: A PHX report falls due and is inserted at the next frame boundary, or skipped (R313); its SFD leaves `words` words of
80 bits and `bits` bits after its lane's last reference edge (R290). -/
def execPhxReportSend (port : Fin 64) (words : Nat) (bits : Nat) (s : State) : Host.Outcome State Fault Refusal :=
  runUp (Dev.lineOut (Dev.phxSend port.val (80 * words + bits))) s

/-- PHX_REPORT_RECEIVE: A PHX report is accepted or discarded, resolves k and yields an RTT sample (R314). -/
def execPhxReportReceive (port : Fin 64) (bits : Nat) (bytes : List Byte) (s : State) : Host.Outcome State Fault Refusal :=
  runUp (Dev.phxReceive port.val bits bytes) s

/-- PHX_STALE_TIMEOUT: No accepted report for the timeout takes a TRACK link to STALE (R315). -/
def execPhxStaleTimeout (link : Fin 80) (s : State) : Host.Outcome State Fault Refusal :=
  runUp (Dev.phxStale link.val) s

/-- PHX_CAL_START: A write of PHX_CAL_CTRL.start begins a calibration against an external pulse, or is refused (R322).
-/
def execPhxCalStart (link : Fin 128) (target : Bool) (channel : Fin 128) (s : State) : Host.Outcome State Fault Refusal :=
  runHost (State.writeReg R.PHX_CAL_CTRL (2 ^ 31 + 65536 * channel.val + 256 * bit target + link.val)) s

/-- PHX_CAL_END: PHX_CAL_LEN elapses, and the calibration reports its result or fails (R323). -/
def execPhxCalEnd (s : State) : Host.Outcome State Fault Refusal :=
  runUp Dev.calEnd s

end Sys2Proof.Machine
end

