-- ==== Sys2Proof/Machine/PowerCommands.lean ====
section
/-! DEFINITION. The meanings of the commands of power domains and latency. -/

namespace Sys2Proof.Machine

/-- DOMAIN_OFF: The device switches a domain off while its idle condition and table rule allow (R464). -/
def execDomainOff (domain : Fin 9) (s : State) : Host.Outcome State Fault Refusal :=
  runUp (Dev.domainOff domain.val) s

/-- DOMAIN_WAKE: A wake event switches a domain on again (R464). -/
def execDomainWake (domain : Fin 9) (s : State) : Host.Outcome State Fault Refusal :=
  runUp (Dev.wake domain.val) s

/-- DOMAIN_POWER_GOOD: A domain reports power good within its exit time, and its units become usable (R458). -/
def execDomainPowerGood (domain : Fin 9) (s : State) : Host.Outcome State Fault Refusal :=
  runUp (fun d => (d.powerGood domain.val).runHeld) s

/-- DOMAIN_POWER_FAIL: A domain fails to report power good within twice its exit time (R467). -/
def execDomainPowerFail (domain : Fin 9) (s : State) : Host.Outcome State Fault Refusal :=
  runUp (Dev.powerFail domain.val) s

/-- DOMAIN_OFF_REQ: A write of PWR_DOM_OFF_REQ requests a domain off, or a write of 0 wakes it (R466). -/
def execDomainOffReq (domains : BitVec 9) (s : State) : Host.Outcome State Fault Refusal :=
  runHost (State.writeReg R.PWR_DOM_OFF_REQ domains.toNat) s

/-- LATENCY_TOLERANCE_WRITE: A tolerance write may start a unit's exit from a reduced state (R463). -/
def execLatencyToleranceWrite (register : Fin 99) (tolerance : Word) (s : State) : Host.Outcome State Fault Refusal :=
  runHost (State.writeReg (toleranceReg register.val) tolerance.toNat) s

/-- ENGINE_GATE: An engine idle for 64 core cycles is gated, or a whole cluster is gated (R462). -/
def execEngineGate (cluster : Fin 8) (engine : Option (Fin 12)) (s : State) : Host.Outcome State Fault Refusal :=
  runUp (Dev.engineGate cluster.val (engine.map (·.val))) s

/-- ROPE_QUAD_GATE: A rope quad whose lanes are all disabled is gated (R462). -/
def execRopeQuadGate (quad : Fin 2) (s : State) : Host.Outcome State Fault Refusal :=
  runUp (Dev.ropeQuadGate quad.val) s

/-- TIME_ONLY_ENTRY: A write of 1 to PWR_CTRL.time_only enters the time-only state, or is refused (R468). -/
def execTimeOnlyEntry (s : State) : Host.Outcome State Fault Refusal :=
  runHost (State.writeReg R.PWR_CTRL 1) s

/-- TIME_ONLY_EXIT: A write of 0 to PWR_CTRL.time_only ends the state, and the datapath domains power on (R470). -/
def execTimeOnlyExit (s : State) : Host.Outcome State Fault Refusal :=
  runHost (State.writeReg R.PWR_CTRL 0) s

/-- TIME_ONLY_EXIT_DONE: At 120 µs the mode returns to normal and time_only_exit sets (R470). -/
def execTimeOnlyExitDone (s : State) : Host.Outcome State Fault Refusal :=
  runUp Dev.timeOnlyExitDone s

/-- TIME_ONLY_ENTRY_DONE: At 12 µs the lane domains go off, PWR_STATE.mode becomes 2 and time_only_enter sets (R468).
-/
def execTimeOnlyEntryDone (s : State) : Host.Outcome State Fault Refusal :=
  runUp Dev.timeOnlyDone s

end Sys2Proof.Machine
end

