-- ==== Sys2Proof/Machine/QueueCommands.lean ====
section
/-! DEFINITION. The meanings of the commands of the egress queues, gates and launch. -/

namespace Sys2Proof.Machine

/-- COPY_TRANSMIT: At a frame boundary, the scheduler picks an eligible queue and the egress MAC sends its head copy
(R242). -/
def execCopyTransmit (port : Fin 81) (bits : Nat) (ecc : Option (Nat × Bool)) (s : State) : Host.Outcome State Fault Refusal :=
  runUp (Dev.lineOut (Dev.copyTransmit port.val bits ecc)) s

/-- COPY_TRANSMIT_DONE: A copy's last byte leaves, and the copy is consumed or its buffer freed (R233). -/
def execCopyTransmitDone (copy : CopyEnd) (s : State) : Host.Outcome State Fault Refusal :=
  runUp (Dev.lineOut (Dev.transmitDone copy.port.val copy.descs)) s

/-- QUEUE_FLUSH: A write of QSC_FLUSH_p discards every copy of a queue not in transmission (R244). -/
def execQueueFlush (port : Fin 81) (queues : BitVec 8) (s : State) : Host.Outcome State Fault Refusal :=
  runHost (State.writeReg (R.QSC_FLUSH port.val) queues.toNat) s

/-- GATE_ENTRY: A gate-list entry's instant arrives and its gate states take effect (R246). -/
def execGateEntry (port : Fin 81) (entry : Fin 256) (s : State) : Host.Outcome State Fault Refusal :=
  runUp (Dev.gateEntry port.val entry.val) s

/-- GCL_SWITCH: The pending list becomes operational at its first cycle start (R247). -/
def execGclSwitch (port : Fin 81) (s : State) : Host.Outcome State Fault Refusal :=
  runUp (Dev.gclSwitch port.val) s

/-- PREEMPT_VERIFY: The IEEE 802.3br verify procedure runs and ends succeeded or failed (R250). -/
def execPreemptVerify (port : Fin 81) (ok : Bool) (s : State) : Host.Outcome State Fault Refusal :=
  runUp (Dev.preemptVerify port.val ok) s

/-- TIMED_LAUNCH: A copy's launch time arrives and the copy starts within the precision of Table QSC-3 (R256). -/
def execTimedLaunch (port : Fin 81) (start : CopyStart) (s : State) : Host.Outcome State Fault Refusal :=
  runUp (Dev.lineOut (Dev.timedLaunch port.val start.bits start.ecc)) s

/-- STREAM_KEEPER_VISIT: The keeper visits a flow and sends a placeholder, or ramps the flow down, when due plus grace
has passed (R262). -/
def execStreamKeeperVisit (s : State) : Host.Outcome State Fault Refusal :=
  runUp Dev.skVisit s

end Sys2Proof.Machine
end

