-- ==== Sys2Proof/Machine/ReferenceCommands.lean ====
section
/-! DEFINITION. The meanings of the commands of reference selection and holdover. -/

namespace Sys2Proof.Machine

/-- REF_TICK: Every 100 µs, REF evaluates every slot and selects for both DPLLs (R336). -/
def execRefTick (phaseT : Int) (phaseF : Int) (s : State) : Host.Outcome State Fault Refusal :=
  runUp (Dev.refTick phaseT phaseF) s

/-- SLOT_WAIT_EXPIRY: A slot's WAIT timer expires and the slot enters QUAL (R341). -/
def execSlotWaitExpiry (slot : Fin 32) (s : State) : Host.Outcome State Fault Refusal :=
  runUp (Dev.waitExpiry slot.val) s

/-- SLOT_DISQ_EXPIRY: An ALARM slot's disqualify timer expires and the slot is disqualified to FAIL (R341). -/
def execSlotDisqExpiry (slot : Fin 32) (s : State) : Host.Outcome State Fault Refusal :=
  runUp (Dev.disqExpiry slot.val) s

/-- FREQ_WINDOW: A slot's frequency window completes and f_s is reported (R337). -/
def execFreqWindow (slot : Fin 32) (offset : Int) (s : State) : Host.Outcome State Fault Refusal :=
  runUp (Dev.freqWindow slot.val offset) s

/-- AUTO_SERVICE: DPLL_T has been LOCKED for REF_AUTO_TIME, and the phase moves to SERVICE (R340). -/
def execAutoService (s : State) : Host.Outcome State Fault Refusal :=
  runUp Dev.autoService s

/-- PTP_POST: A write of REF_PTP_CTRL.post delivers a host-fed correction, which is accepted or rejected (R332). -/
def execPtpPost (s : State) : Host.Outcome State Fault Refusal :=
  runHost (State.writeReg R.REF_PTP_CTRL 1) s

/-- PTP_POST_TIMEOUT: No accepted post for REF_PTP_CFG.timeout raises the host PTP activity alarm (R338). -/
def execPtpPostTimeout (s : State) : Host.Outcome State Fault Refusal :=
  runUp Dev.ptpTimeout s

/-- REF_PHASE_WRITE: A write of REF_CTRL.phase changes the operating phase (R340). -/
def execRefPhaseWrite (phase : Fin 4) (s : State) : Host.Outcome State Fault Refusal :=
  runHost (State.writeField F.REF_CTRL_phase phase.val) s

/-- REF_FORCE: A write of REF_FORCE forces a slot in TEST, or is refused (R346). -/
def execRefForce (data : Word) (s : State) : Host.Outcome State Fault Refusal :=
  runHost (State.writeReg R.REF_FORCE data.toNat) s

/-- DPLL_LOCKED: The phase error stays within the window for the lock time, so the DPLL enters LOCKED (R354). -/
def execDpllLocked (dpll : Fin 2) (s : State) : Host.Outcome State Fault Refusal :=
  runUp (Dev.dplLocked dpll.val) s

/-- SECOND_ENTRY: Every second, each DPLL records its integrator mean in the one-second ring (R358). -/
def execSecondEntry (diode : Option Int) (s : State) : Host.Outcome State Fault Refusal :=
  runUp (Dev.secondEntry diode) s

/-- HOLDOVER_UPDATE: Every second in compensated holdover, the control value is recomputed from the temperature model
(R366). -/
def execHoldoverUpdate (dpll : Fin 2) (s : State) : Host.Outcome State Fault Refusal :=
  runUp (Dev.holdoverUpdate dpll.val) s

/-- TEMP_STALE: No temperature reading for 5 s, or an open or shorted diode, makes the source stale (R367). -/
def execTempStale (s : State) : Host.Outcome State Fault Refusal :=
  runUp Dev.tempStale s

/-- LEARN_MINUTE: Every minute, an entry is written to the learning history in MRAM (R369). -/
def execLearnMinute (s : State) : Host.Outcome State Fault Refusal :=
  runUp Dev.learnMinute s

/-- MODEL_REFIT: Every 3,600 s outside holdover, the XO model is refitted and written to MRAM (R371). -/
def execModelRefit (s : State) : Host.Outcome State Fault Refusal :=
  runUp Dev.refit s

/-- LEARN_CLEAR: A write of DPL_LRN_CTRL.clear erases the history and the stored model (R373). -/
def execLearnClear (s : State) : Host.Outcome State Fault Refusal :=
  runHost (State.writeField F.DPL_LRN_CTRL_clear 1) s

end Sys2Proof.Machine
end

