-- ==== Sys2Proof/Machine/RopeCommands.lean ====
section
/-! DEFINITION. The meanings of the commands of the rope lanes. -/

namespace Sys2Proof.Machine

/-- RLK_RESTART: A write of RLK_CTRL.restart takes the rope lane to DOWN (R154). -/
def execRlkRestart (rope : Fin 16) (s : State) : Host.Outcome State Fault Refusal :=
  runHost (State.writeReg (R.RLK_CTRL rope.val) 1) s

/-- ROPE_SIGNAL_LOSS: Loss of signal for 100 µs takes the rope lane to DOWN (R154). -/
def execRopeSignalLoss (rope : Fin 16) (s : State) : Host.Outcome State Fault Refusal :=
  runUp (Dev.ropeSignalLoss rope.val) s

/-- ROPE_FRAME_RECEIVE: A rope frame is received and framed, and passes through the elastic buffer (R146). -/
def execRopeFrameReceive (rope : Fin 16) (frame : RopeFrame) (s : State) : Host.Outcome State Fault Refusal :=
  runUp (Dev.ropeFrame rope.val frame) s

/-- HYPERFRAME_RECEIVE: The control words of a hyperframe are accepted or discarded, driving negotiation and time
(R150). -/
def execHyperframeReceive (rope : Fin 16) (bits : Nat) (s : State) : Host.Outcome State Fault Refusal :=
  runUp (Dev.hyperframeEnd rope.val bits) s

/-- HYPERFRAME_TRANSMIT: The transmitter starts a hyperframe with its control words and negotiation state (R147). -/
def execHyperframeTransmit (rope : Fin 16) (run : RopeRun) (s : State) : Host.Outcome State Fault Refusal :=
  runUp (Dev.sendFrames rope.val run.bits run.frames) s

/-- MGT_SEND_WRITE: A write of RLK_MGT_TX_n.send queues a chunk, and a write while send is 1 is refused (R166). -/
def execMgtSendWrite (rope : Fin 16) (data : Word) (s : State) : Host.Outcome State Fault Refusal :=
  runHost (State.writeReg (R.RLK_MGT_TX rope.val) data.toNat) s

/-- MGT_POP: A write of RLK_MGT_RX_n.pop removes the oldest received entry (R167). -/
def execMgtPop (rope : Fin 16) (s : State) : Host.Outcome State Fault Refusal :=
  runHost (State.writeReg (R.RLK_MGT_RX rope.val) 256) s

/-- CONFIRM_TIMEOUT: With no confirmation within 10 ms of the switch, the lane enters FALLBACK at r (R154). -/
def execConfirmTimeout (rope : Fin 16) (s : State) : Host.Outcome State Fault Refusal :=
  runUp (Dev.confirmTimeout rope.val) s

/-- FALLBACK_TIMEOUT: With no confirmation within 10 ms in FALLBACK, the lane enters DOWN (R154). -/
def execFallbackTimeout (rope : Fin 16) (s : State) : Host.Outcome State Fault Refusal :=
  runUp (Dev.fallbackTimeout rope.val) s

/-- STEP_TIMEOUT: After 20 hyperframes in STEP without the ack condition, the lane enters RUN at r (R154). -/
def execStepTimeout (rope : Fin 16) (s : State) : Host.Outcome State Fault Refusal :=
  runUp (Dev.stepTimeout rope.val) s

/-- DOWN_HOLD_EXPIRY: 10 ms after entry into DOWN from FALLBACK, the lane may enter SYNC (R154). -/
def execDownHoldExpiry (rope : Fin 16) (s : State) : Host.Outcome State Fault Refusal :=
  runUp (Dev.downHoldExpiry rope.val) s

/-- RUN_LOCK_TIMEOUT: Hyperframe lock absent for 2 ms in RUN takes the lane to SYNC (R154). -/
def execRunLockTimeout (rope : Fin 16) (s : State) : Host.Outcome State Fault Refusal :=
  runUp (Dev.runLockTimeout rope.val) s

/-- OFFSET_MEASURE: Once per hyperframe, the TDC measures the frequency offset of the recovered clock (R161). -/
def execOffsetMeasure (rope : Fin 16) (offset : Int) (change : Int) (s : State) : Host.Outcome State Fault Refusal :=
  runUp (Dev.offsetMeasure rope.val offset change) s

/-- BUFFER_FREEZE: The elastic buffer freezes at a rope-frame boundary after four hyperframes within ±0.01 ppm (R161).
-/
def execBufferFreeze (rope : Fin 16) (s : State) : Host.Outcome State Fault Refusal :=
  runUp (Dev.bufferFreeze rope.val) s

/-- TUNNEL_FRAME_RECEIVE: A tunnel frame between K27.7 and its end delimiter is received, stamped and checked (R170).
-/
def execTunnelFrameReceive (rope : Fin 16) (bits : Nat) (overRate : Bool) (s : State) : Host.Outcome State Fault Refusal :=
  runUp (Dev.lineOut (Dev.tunnelReceive rope.val bits overRate)) s

end Sys2Proof.Machine
end

