-- ==== Sys2Proof/Machine/SecurityCommands.lean ====
section
/-! DEFINITION. The meanings of the commands of security, the fuses and the test access port. -/

namespace Sys2Proof.Machine

/-- OTP_PROGRAM_SLOT: Op 1 programs an owner slot with the staged digest, or is refused (R437). -/
def execOtpProgramSlot (slot : Fin 4) (vpp : Bool) (s : State) : Host.Outcome State Fault Refusal :=
  runHost (State.otpWrite vpp (2 ^ 31 + 1 + 16 * slot.val)) s

/-- OTP_REVOKE_SLOT: Op 2 revokes an owner slot, or is refused (R437). -/
def execOtpRevokeSlot (slot : Fin 4) (vpp : Bool) (s : State) : Host.Outcome State Fault Refusal :=
  runHost (State.otpWrite vpp (2 ^ 31 + 2 + 16 * slot.val)) s

/-- OTP_RAISE_FLOOR: Op 3 raises the rollback floor to IMG_SEC_VERSION, or is refused (R437). -/
def execOtpRaiseFloor (vpp : Bool) (s : State) : Host.Outcome State Fault Refusal :=
  runHost (State.otpWrite vpp (2 ^ 31 + 3)) s

/-- OTP_RAISE_DEBUG: Op 4 raises the fused debug mode, or is refused (R437). -/
def execOtpRaiseDebug (mode : Fin 4) (vpp : Bool) (s : State) : Host.Outcome State Fault Refusal :=
  runHost (State.otpWrite vpp (2 ^ 31 + 4 + 256 * mode.val)) s

/-- OTP_OP_DONE: A fuse operation ends with the shadows updated, or with a read-back failure (R438). -/
def execOtpOpDone (ok : Bool) (s : State) : Host.Outcome State Fault Refusal :=
  runUp (Dev.otpDone ok) s

/-- ATTESTATION_REQUEST: A write of SEC_CTRL.att_req starts building an attestation report, or is refused (R441). -/
def execAttestationRequest (s : State) : Host.Outcome State Fault Refusal :=
  runHost (State.writeReg R.SEC_CTRL 1) s

/-- ATTESTATION_DONE: The signed report appears whole and att_done sets (R441). -/
def execAttestationDone (s : State) : Host.Outcome State Fault Refusal :=
  runUp Dev.attestDone s

/-- BYPASS: The IEEE 1149.1 BYPASS instruction (R443). -/
def execBypass (data : List Byte) (s : State) : Host.Outcome State Fault Refusal :=
  run (Dev.tapBypass data) s

/-- IDCODE: The IEEE 1149.1 IDCODE instruction returns 0x1648_0E93 (R443). -/
def execIdcode (s : State) : Host.Outcome State Fault Refusal :=
  run Dev.tapIdcode s

/-- SAMPLE_PRELOAD: The IEEE 1149.1 SAMPLE/PRELOAD instruction (R443). -/
def execSamplePreload (pins : List Byte) (data : List Byte) (s : State) : Host.Outcome State Fault Refusal :=
  run (Dev.tapSample pins data) s

/-- EXTEST: The IEEE 1149.1 EXTEST instruction drives the balls with scan data (R443). -/
def execExtest (data : List Byte) (s : State) : Host.Outcome State Fault Refusal :=
  run (Dev.tapExtest data) s

/-- EXTEST_PULSE: The IEEE 1149.6 EXTEST_PULSE instruction on the lanes (R443). -/
def execExtestPulse (data : List Byte) (s : State) : Host.Outcome State Fault Refusal :=
  run (Dev.tapExtestLanes data) s

/-- EXTEST_TRAIN: The IEEE 1149.6 EXTEST_TRAIN instruction on the lanes (R443). -/
def execExtestTrain (data : List Byte) (s : State) : Host.Outcome State Fault Refusal :=
  run (Dev.tapExtestLanes data) s

/-- DBG_CHAL: The DBG_CHAL instruction returns a 48-byte debug challenge, or zeros (R444). -/
def execDbgChal (s : State) : Host.Outcome State Fault Refusal :=
  runUp Dev.debugChallenge s

/-- DBG_RESP: The DBG_RESP instruction takes a signed response that opens debug if it verifies (R444). -/
def execDbgResp (slot : Fin 256) (key : List Byte) (signature : List Byte) (s : State) : Host.Outcome State Fault Refusal :=
  runUp (Dev.debugResponse slot.val key signature) s

/-- TAMPER_TRIP: An enabled tamper source trips, raising SEC_TAMPER and zeroizing keys if set (R446). -/
def execTamperTrip (source : Fin 7) (s : State) : Host.Outcome State Fault Refusal :=
  runUp (Dev.afterPr (Dev.tamperTrip source.val)) s

end Sys2Proof.Machine
end

