-- ==== Sys2Proof/Machine/Start.lean ====
section
/-! DEFINITION. The meanings of the commands of start, the resets and the watchdog. -/

namespace Sys2Proof.Machine

/-- POWER_ON_RESET: Supplies enter range and the device leaves power-on reset at the later of 2.0 ms or the RESETN
rising edge, sampling IMG_SRC (R61). -/
def execPowerOnReset (flash : Bool) (mramOk : Bool) (s : State) : Host.Outcome State Fault Refusal :=
  runState (fun t => t.powerOff.release flash mramOk) s

/-- COLD_RESET: RESETN held low for at least 1 µs resets the whole device except PD_AON, the OTP shadows and the
backup PLL (R68). -/
def execColdReset (s : State) : Host.Outcome State Fault Refusal :=
  runState State.coldReset s

/-- WARM_RESET: A write of TOP_RST_CTRL.warm starts a warm reset that stops ingress, drops the Ethernet lanes and
re-applies the global region and the port groups (R70). -/
def execWarmReset (s : State) : Host.Outcome State Fault Refusal :=
  runHost (State.writeReg R.TOP_RST_CTRL 1) s

/-- WARM_RESET_DONE: At 3,010 µs TOP_READY.img sets, busy clears and the watchdog restarts (R70). -/
def execWarmResetDone (s : State) : Host.Outcome State Fault Refusal :=
  runHost State.warmDone s

/-- WATCHDOG_RESET: TOP_WDOG_COUNT reaching 0 sets TOP_EVENT.wdog and starts a watchdog reset that runs as a warm
reset (R78). -/
def execWatchdogReset (s : State) : Host.Outcome State Fault Refusal :=
  runHost State.watchdogZero s

/-- WATCHDOG_ARM: A write to TOP_WDOG_CTRL that sets enable arms the watchdog with its period (R78). -/
def execWatchdogArm (period : BitVec 16) (s : State) : Host.Outcome State Fault Refusal :=
  runHost (State.writeReg R.TOP_WDOG_CTRL (1 + 65536 * period.toNat)) s

/-- WATCHDOG_KICK: A write of 1 to TOP_WDOG_KICK.kick restarts the watchdog count (R78). -/
def execWatchdogKick (s : State) : Host.Outcome State Fault Refusal :=
  runHost (State.writeReg R.TOP_WDOG_KICK 1) s

/-- BLOCK_RESET: A bit written to TOP_BLK_RST resets one block as a warm reset, with its consequences for other
blocks, or is refused (R75). -/
def execBlockReset (blocks : Word) (s : State) : Host.Outcome State Fault Refusal :=
  runHost (State.writeReg R.TOP_BLK_RST blocks.toNat) s

/-- BLOCK_RESET_DONE: A block reset completes and the device clears its TOP_BLK_RST bit (R68). -/
def execBlockResetDone (page : Fin 24) (s : State) : Host.Outcome State Fault Refusal :=
  runHost (State.blockDone page.val) s

/-- PORT_RESET: A bit written to TOP_PORT_RST_0 or TOP_PORT_RST_1 stops ingress, discards the port's queued frames and
drops its link (R76). -/
def execPortReset (high : Bool) (ports : Word) (s : State) : Host.Outcome State Fault Refusal :=
  runHost (State.writeReg (if high then R.TOP_PORT_RST_1 else R.TOP_PORT_RST_0) ports.toNat) s

/-- HOST_RESET: A PCIe hot reset or FLR resets the HIF fields with Keep N, the port 64 rings and the MSI-X table
(R77); PERST_N driven low takes the link (R64). -/
def execHostReset (kind : HostReset) (s : State) : Host.Outcome State Fault Refusal :=
  runState (State.hostSide kind) s

/-- PERST_N_RELEASE: Release of PERST_N lets the HIF enter link training within 20 ms, once PHY calibration is
complete (R64). -/
def execPerstNRelease (s : State) : Host.Outcome State Fault Refusal :=
  run Dev.perstRelease s

/-- PCIE_DL_UP: The data link layer reports DL_Up and TOP_READY.hif sets (R64). -/
def execPcieDlUp (s : State) : Host.Outcome State Fault Refusal :=
  runUp (fun d => d.dlUp.haltNow) s

/-- PCIE_DL_DOWN: The data link layer reports DL_Down, which clears TOP_READY.hif and may set HIF_EVENT.link_down
(R113). -/
def execPcieDlDown (s : State) : Host.Outcome State Fault Refusal :=
  run Dev.dlDown s

/-- THERM_WARN: Tj comes within 5 °C of the variant's maximum, setting TOP_EVENT.therm_warn and raising TOP_THERM_WARN
(R501). -/
def execThermWarn (s : State) : Host.Outcome State Fault Refusal :=
  runUp (Dev.fault R.TOP_EVENT 0 E.TOP_THERM_WARN 0) s

/-- THERM_CRIT: Tj rises above the variant's maximum, setting TOP_EVENT.therm_crit and raising TOP_THERM_CRIT (R501).
-/
def execThermCrit (s : State) : Host.Outcome State Fault Refusal :=
  runUp (Dev.fault R.TOP_EVENT 1 E.TOP_THERM_CRIT 0) s

/-- POWER_DOWN: VDD_AON falls below 0.68 V for 1 µs, the device enters power-on reset and releases ILK_N (R523). -/
def execPowerDown (s : State) : Host.Outcome State Fault Refusal :=
  runState State.powerOff s

/-- RESETN_RELEASE: The rising edge of RESETN ends a cold reset and starts the boot sequence from the 2.0 ms row of
Table TOP-1 (R68). -/
def execResetnRelease (flash : Bool) (mramOk : Bool) (s : State) : Host.Outcome State Fault Refusal :=
  runState (State.releaseHeld flash mramOk) s

/-- PORT_RESET_DONE: A port reset completes within 20 µs and the device clears its TOP_PORT_RST bit (R68). -/
def execPortResetDone (port : Fin 64) (s : State) : Host.Outcome State Fault Refusal :=
  runUp (fun d => (d.portEnd port.val).haltNow) s

end Sys2Proof.Machine
end

