-- ==== Sys2Proof/Machine/TimeCommands.lean ====
section
/-! DEFINITION. The meanings of the commands of the time base and the TDC. -/

namespace Sys2Proof.Machine

/-- TBS_SNAP: A write of TBS_SNAP.snap copies the whole time base into the snapshot registers (R272). -/
def execTbsSnap (s : State) : Host.Outcome State Fault Refusal :=
  runHost (State.writeReg R.TBS_SNAP 1) s

/-- TBS_SET: A fired op 1 sets the time base to TBS_ADJ as a step, unless refused (R273). -/
def execTbsSet (s : State) : Host.Outcome State Fault Refusal :=
  runUp (Dev.adjustNow 1) s

/-- TBS_ADD: A fired op 2 adds the signed TBS_ADJ to the time base as a step, unless refused (R273). -/
def execTbsAdd (s : State) : Host.Outcome State Fault Refusal :=
  runUp (Dev.adjustNow 2) s

/-- TBS_SLEW: A fired op 3 adds the signed offset gradually at TBS_SLEW_RATE (R276). -/
def execTbsSlew (s : State) : Host.Outcome State Fault Refusal :=
  runUp (Dev.adjustNow 3) s

/-- SLEW_DONE: A slew's offset is used up, so slew_done sets and slewing clears (R276). -/
def execSlewDone (s : State) : Host.Outcome State Fault Refusal :=
  runUp Dev.slewDone s

/-- AGEING_UPDATE: Once per second in free-run or holdover, the ageing term is recomputed from TBS_AGE_RATE (R270). -/
def execAgeingUpdate (dpll : Fin 2) (s : State) : Host.Outcome State Fault Refusal :=
  runUp (Dev.ageingUpdate dpll.val) s

/-- TDC_MEASURE: An event edge on a channel is measured against the time base, and a result is written (R278). -/
def execTdcMeasure (channel : Fin 92) (cm : Nat) (s : State) : Host.Outcome State Fault Refusal :=
  runUp (Dev.measured channel.val cm) s

/-- TDC_CAL_PAIR: A calibration pair is taken, and a pair outside its trim faults the channel after three failures
(R280). -/
def execTdcCalPair (channel : Fin 92) (c1 : Nat) (c2 : Nat) (s : State) : Host.Outcome State Fault Refusal :=
  runUp (Dev.onChannel channel.val (Dev.calPair channel.val c1 c2)) s

/-- TDC_PERIODIC_MEASURE: Every 1.0 µs, a lane channel measures one event and passes it to PHX and the timestamp path
(R283). -/
def execTdcPeriodicMeasure (channel : Fin 80) (cm : Nat) (s : State) : Host.Outcome State Fault Refusal :=
  runUp (Dev.tdcMeasure channel.val cm) s

/-- TDC_TRIM_REQUEST: A write of TDC_TRIM_REQ starts trim calibration of the named channels (R286). -/
def execTdcTrimRequest (index : Fin 3) (channels : Word) (s : State) : Host.Outcome State Fault Refusal :=
  runHost (State.writeReg (R.TDC_TRIM_REQ index.val) channels.toNat) s

/-- TDC_TRIM_RUN: A 250 µs trim run completes, and an agreeing pair is applied or the channel faults after four pairs
(R285). -/
def execTdcTrimRun (channel : Fin 92) (trim : Trim) (s : State) : Host.Outcome State Fault Refusal :=
  runUp (Dev.onChannel channel.val (Dev.trimRun channel.val trim)) s

/-- TX_STAMP_POP: A write of TBS_TXQ_POP.pop removes the oldest timestamp entry (R299). -/
def execTxStampPop (s : State) : Host.Outcome State Fault Refusal :=
  runHost (State.writeReg R.TBS_TXQ_POP 1) s

end Sys2Proof.Machine
end

