-- ==== Sys2Proof/Machine/Dispatch.lean ====
section
/-! DEFINITION. The meaning of every command: one arm per row of the opcode table, each one call of its definition. -/

namespace Sys2Proof.Machine

def exec (i : Instr) (s : State) : Host.Outcome State Fault Refusal :=
  match i with
  | .powerOnReset flash mramOk => Sys2Proof.Machine.execPowerOnReset flash mramOk s
  | .coldReset => Sys2Proof.Machine.execColdReset s
  | .warmReset => Sys2Proof.Machine.execWarmReset s
  | .warmResetDone => Sys2Proof.Machine.execWarmResetDone s
  | .watchdogReset => Sys2Proof.Machine.execWatchdogReset s
  | .watchdogArm period => Sys2Proof.Machine.execWatchdogArm period s
  | .watchdogKick => Sys2Proof.Machine.execWatchdogKick s
  | .blockReset blocks => Sys2Proof.Machine.execBlockReset blocks s
  | .blockResetDone page => Sys2Proof.Machine.execBlockResetDone page s
  | .portReset high ports => Sys2Proof.Machine.execPortReset high ports s
  | .hostReset kind => Sys2Proof.Machine.execHostReset kind s
  | .perstNRelease => Sys2Proof.Machine.execPerstNRelease s
  | .pcieDlUp => Sys2Proof.Machine.execPcieDlUp s
  | .pcieDlDown => Sys2Proof.Machine.execPcieDlDown s
  | .thermWarn => Sys2Proof.Machine.execThermWarn s
  | .thermCrit => Sys2Proof.Machine.execThermCrit s
  | .imgSlotReadDone image => Sys2Proof.Machine.execImgSlotReadDone image s
  | .flashTimeout => Sys2Proof.Machine.execFlashTimeout s
  | .stagingWindowWrite index be data => Sys2Proof.Machine.execStagingWindowWrite index be data s
  | .startFull => Sys2Proof.Machine.execStartFull s
  | .pendingWindowWrite index be data => Sys2Proof.Machine.execPendingWindowWrite index be data s
  | .prStart group flush allowLoss => Sys2Proof.Machine.execPrStart group flush allowLoss s
  | .prVerifyDone => Sys2Proof.Machine.execPrVerifyDone s
  | .prDrainTimeout => Sys2Proof.Machine.execPrDrainTimeout s
  | .prQuiesced => Sys2Proof.Machine.execPrQuiesced s
  | .imgLock => Sys2Proof.Machine.execImgLock s
  | .registerWrite addr be data => Sys2Proof.Machine.execRegisterWrite addr be data s
  | .rcRead what => Sys2Proof.Machine.execRcRead what s
  | .pairLowerRead addr both => Sys2Proof.Machine.execPairLowerRead addr both s
  | .tableEntryWrite addr data => Sys2Proof.Machine.execTableEntryWrite addr data s
  | .bitAliasWrite offset be data => Sys2Proof.Machine.execBitAliasWrite offset be data s
  | .shadowWrite addr data => Sys2Proof.Machine.execShadowWrite addr data s
  | .ugStrobe groups => Sys2Proof.Machine.execUgStrobe groups s
  | .armSlotArm slot groups => Sys2Proof.Machine.execArmSlotArm slot groups s
  | .armSlotFire edge => Sys2Proof.Machine.execArmSlotFire edge s
  | .scrubPass upsets => Sys2Proof.Machine.execScrubPass upsets s
  | .vectorEoi vector => Sys2Proof.Machine.execVectorEoi vector s
  | .vectorUnmask vector entry => Sys2Proof.Machine.execVectorUnmask vector entry s
  | .aerError uncorrectable number => Sys2Proof.Machine.execAerError uncorrectable number s
  | .completionTimeout ring => Sys2Proof.Machine.execCompletionTimeout ring s
  | .txRingTail ring tail descs => Sys2Proof.Machine.execTxRingTail ring tail descs s
  | .cpuFrameFetched ring seg => Sys2Proof.Machine.execCpuFrameFetched ring seg s
  | .signalDetect lane => Sys2Proof.Machine.execSignalDetect lane s
  | .cdrLock lane => Sys2Proof.Machine.execCdrLock lane s
  | .cdrLoss lane gone => Sys2Proof.Machine.execCdrLoss lane gone s
  | .alignLock lane slip deskew fecPos => Sys2Proof.Machine.execAlignLock lane slip deskew fecPos s
  | .alignLoss lane => Sys2Proof.Machine.execAlignLoss lane s
  | .anComplete port techs fecAble fecReq => Sys2Proof.Machine.execAnComplete port techs fecAble fecReq s
  | .anBreakLinkTimeout port => Sys2Proof.Machine.execAnBreakLinkTimeout port s
  | .trainingTimeout port => Sys2Proof.Machine.execTrainingTimeout port s
  | .linkUp port => Sys2Proof.Machine.execLinkUp port s
  | .linkDown line => Sys2Proof.Machine.execLinkDown line s
  | .portEnable port data => Sys2Proof.Machine.execPortEnable port data s
  | .l1Entry lane => Sys2Proof.Machine.execL1Entry lane s
  | .l1Exit lane => Sys2Proof.Machine.execL1Exit lane s
  | .l2Entry lane => Sys2Proof.Machine.execL2Entry lane s
  | .l2Exit lane => Sys2Proof.Machine.execL2Exit lane s
  | .phaseValid lane => Sys2Proof.Machine.execPhaseValid lane s
  | .prbsInject lane => Sys2Proof.Machine.execPrbsInject lane s
  | .prbsLock found => Sys2Proof.Machine.execPrbsLock found s
  | .prbsLockLoss lane errors => Sys2Proof.Machine.execPrbsLockLoss lane errors s
  | .frameReceive port start seg => Sys2Proof.Machine.execFrameReceive port start seg s
  | .rlkRestart rope => Sys2Proof.Machine.execRlkRestart rope s
  | .ropeSignalLoss rope => Sys2Proof.Machine.execRopeSignalLoss rope s
  | .ropeFrameReceive rope frame => Sys2Proof.Machine.execRopeFrameReceive rope frame s
  | .hyperframeReceive rope arrival => Sys2Proof.Machine.execHyperframeReceive rope arrival s
  | .hyperframeTransmit rope run => Sys2Proof.Machine.execHyperframeTransmit rope run s
  | .mgtSendWrite rope data => Sys2Proof.Machine.execMgtSendWrite rope data s
  | .mgtPop rope => Sys2Proof.Machine.execMgtPop rope s
  | .confirmTimeout rope => Sys2Proof.Machine.execConfirmTimeout rope s
  | .fallbackTimeout rope => Sys2Proof.Machine.execFallbackTimeout rope s
  | .stepTimeout rope => Sys2Proof.Machine.execStepTimeout rope s
  | .downHoldExpiry rope => Sys2Proof.Machine.execDownHoldExpiry rope s
  | .runLockTimeout rope => Sys2Proof.Machine.execRunLockTimeout rope s
  | .offsetMeasure rope offset change => Sys2Proof.Machine.execOffsetMeasure rope offset change s
  | .bufferFreeze rope => Sys2Proof.Machine.execBufferFreeze rope s
  | .tunnelFrameReceive rope bits overRate => Sys2Proof.Machine.execTunnelFrameReceive rope bits overRate s
  | .headerDispatch cluster => Sys2Proof.Machine.execHeaderDispatch cluster s
  | .engineLookup cluster engine errors => Sys2Proof.Machine.execEngineLookup cluster engine errors s
  | .bypassFrameEnqueue ring => Sys2Proof.Machine.execBypassFrameEnqueue ring s
  | .steal clusters cycles => Sys2Proof.Machine.execSteal clusters cycles s
  | .activityHalving => Sys2Proof.Machine.execActivityHalving s
  | .stealRecall cluster => Sys2Proof.Machine.execStealRecall cluster s
  | .bucketMove cluster bucket => Sys2Proof.Machine.execBucketMove cluster bucket s
  | .engineRetire cluster engine => Sys2Proof.Machine.execEngineRetire cluster engine s
  | .retireDone cluster engine => Sys2Proof.Machine.execRetireDone cluster engine s
  | .engineUnretire cluster engine => Sys2Proof.Machine.execEngineUnretire cluster engine s
  | .engineHang cluster engine => Sys2Proof.Machine.execEngineHang cluster engine s
  | .copyAdmit => Sys2Proof.Machine.execCopyAdmit s
  | .multicastCopyCreate => Sys2Proof.Machine.execMulticastCopyCreate s
  | .chainAlloc port => Sys2Proof.Machine.execChainAlloc port s
  | .cacheRefill pool groups => Sys2Proof.Machine.execCacheRefill pool groups s
  | .cacheDrain pool groups => Sys2Proof.Machine.execCacheDrain pool groups s
  | .bufferFree handle tag => Sys2Proof.Machine.execBufferFree handle tag s
  | .hostFree handle tag => Sys2Proof.Machine.execHostFree handle tag s
  | .copyTransmit port bits ecc => Sys2Proof.Machine.execCopyTransmit port bits ecc s
  | .copyTransmitDone copy => Sys2Proof.Machine.execCopyTransmitDone copy s
  | .queueFlush port queues => Sys2Proof.Machine.execQueueFlush port queues s
  | .gateEntry port entry => Sys2Proof.Machine.execGateEntry port entry s
  | .gclSwitch port => Sys2Proof.Machine.execGclSwitch port s
  | .preemptVerify port ok => Sys2Proof.Machine.execPreemptVerify port ok s
  | .timedLaunch port start => Sys2Proof.Machine.execTimedLaunch port start s
  | .streamKeeperVisit => Sys2Proof.Machine.execStreamKeeperVisit s
  | .tbsSnap => Sys2Proof.Machine.execTbsSnap s
  | .tbsSet => Sys2Proof.Machine.execTbsSet s
  | .tbsAdd => Sys2Proof.Machine.execTbsAdd s
  | .tbsSlew => Sys2Proof.Machine.execTbsSlew s
  | .slewDone => Sys2Proof.Machine.execSlewDone s
  | .ageingUpdate dpll => Sys2Proof.Machine.execAgeingUpdate dpll s
  | .tdcMeasure channel cm => Sys2Proof.Machine.execTdcMeasure channel cm s
  | .tdcCalPair channel c1 c2 => Sys2Proof.Machine.execTdcCalPair channel c1 c2 s
  | .tdcPeriodicMeasure channel cm => Sys2Proof.Machine.execTdcPeriodicMeasure channel cm s
  | .tdcTrimRequest index channels => Sys2Proof.Machine.execTdcTrimRequest index channels s
  | .tdcTrimRun channel trim => Sys2Proof.Machine.execTdcTrimRun channel trim s
  | .txStampPop => Sys2Proof.Machine.execTxStampPop s
  | .phxSample link blocks => Sys2Proof.Machine.execPhxSample link blocks s
  | .phxReportSend port words bits => Sys2Proof.Machine.execPhxReportSend port words bits s
  | .phxReportReceive port bits bytes => Sys2Proof.Machine.execPhxReportReceive port bits bytes s
  | .phxStaleTimeout link => Sys2Proof.Machine.execPhxStaleTimeout link s
  | .phxCalStart link target channel => Sys2Proof.Machine.execPhxCalStart link target channel s
  | .phxCalEnd => Sys2Proof.Machine.execPhxCalEnd s
  | .refTick phaseT phaseF => Sys2Proof.Machine.execRefTick phaseT phaseF s
  | .slotWaitExpiry slot => Sys2Proof.Machine.execSlotWaitExpiry slot s
  | .slotDisqExpiry slot => Sys2Proof.Machine.execSlotDisqExpiry slot s
  | .freqWindow slot offset => Sys2Proof.Machine.execFreqWindow slot offset s
  | .autoService => Sys2Proof.Machine.execAutoService s
  | .ptpPost => Sys2Proof.Machine.execPtpPost s
  | .ptpPostTimeout => Sys2Proof.Machine.execPtpPostTimeout s
  | .refPhaseWrite phase => Sys2Proof.Machine.execRefPhaseWrite phase s
  | .refForce data => Sys2Proof.Machine.execRefForce data s
  | .dpllLocked dpll => Sys2Proof.Machine.execDpllLocked dpll s
  | .secondEntry diode => Sys2Proof.Machine.execSecondEntry diode s
  | .holdoverUpdate dpll => Sys2Proof.Machine.execHoldoverUpdate dpll s
  | .tempStale => Sys2Proof.Machine.execTempStale s
  | .learnMinute => Sys2Proof.Machine.execLearnMinute s
  | .modelRefit => Sys2Proof.Machine.execModelRefit s
  | .learnClear => Sys2Proof.Machine.execLearnClear s
  | .rootLockLoss => Sys2Proof.Machine.execRootLockLoss s
  | .rootRelockTimer => Sys2Proof.Machine.execRootRelockTimer s
  | .rootLockAttemptEnd outcome => Sys2Proof.Machine.execRootLockAttemptEnd outcome s
  | .synRelock => Sys2Proof.Machine.execSynRelock s
  | .synRetarget => Sys2Proof.Machine.execSynRetarget s
  | .sscAuxWrite data => Sys2Proof.Machine.execSscAuxWrite data s
  | .sscCoreWrite data => Sys2Proof.Machine.execSscCoreWrite data s
  | .outPark park => Sys2Proof.Machine.execOutPark park s
  | .outDelayWrite output data => Sys2Proof.Machine.execOutDelayWrite output data s
  | .ppsEdge output => Sys2Proof.Machine.execPpsEdge output s
  | .ppsAlignLost output => Sys2Proof.Machine.execPpsAlignLost output s
  | .dllUnlock output => Sys2Proof.Machine.execDllUnlock output s
  | .heartbeatSend => Sys2Proof.Machine.execHeartbeatSend s
  | .heartbeatReceive message clean => Sys2Proof.Machine.execHeartbeatReceive message clean s
  | .mateLost => Sys2Proof.Machine.execMateLost s
  | .heartbeatMissRelease => Sys2Proof.Machine.execHeartbeatMissRelease s
  | .yieldReceive message clean => Sys2Proof.Machine.execYieldReceive message clean s
  | .mirrorReceive message clean => Sys2Proof.Machine.execMirrorReceive message clean s
  | .dpllStateSend => Sys2Proof.Machine.execDpllStateSend s
  | .dpllStateReceive message clean => Sys2Proof.Machine.execDpllStateReceive message clean s
  | .resyncDoneReceive message clean => Sys2Proof.Machine.execResyncDoneReceive message clean s
  | .ilkClaim => Sys2Proof.Machine.execIlkClaim s
  | .guardExpiry => Sys2Proof.Machine.execGuardExpiry s
  | .holdoffExpiry => Sys2Proof.Machine.execHoldoffExpiry s
  | .switchover => Sys2Proof.Machine.execSwitchover s
  | .switchoverYield => Sys2Proof.Machine.execSwitchoverYield s
  | .clearFault => Sys2Proof.Machine.execClearFault s
  | .announceSend => Sys2Proof.Machine.execAnnounceSend s
  | .announceReceive frame => Sys2Proof.Machine.execAnnounceReceive frame s
  | .mirrorSend => Sys2Proof.Machine.execMirrorSend s
  | .resyncWalk => Sys2Proof.Machine.execResyncWalk s
  | .resyncWalkEnd => Sys2Proof.Machine.execResyncWalkEnd s
  | .otpProgramSlot slot vpp => Sys2Proof.Machine.execOtpProgramSlot slot vpp s
  | .otpRevokeSlot slot vpp => Sys2Proof.Machine.execOtpRevokeSlot slot vpp s
  | .otpRaiseFloor vpp => Sys2Proof.Machine.execOtpRaiseFloor vpp s
  | .otpRaiseDebug mode vpp => Sys2Proof.Machine.execOtpRaiseDebug mode vpp s
  | .otpOpDone ok => Sys2Proof.Machine.execOtpOpDone ok s
  | .attestationRequest => Sys2Proof.Machine.execAttestationRequest s
  | .attestationDone => Sys2Proof.Machine.execAttestationDone s
  | .bypass data => Sys2Proof.Machine.execBypass data s
  | .idcode => Sys2Proof.Machine.execIdcode s
  | .samplePreload pins data => Sys2Proof.Machine.execSamplePreload pins data s
  | .extest data => Sys2Proof.Machine.execExtest data s
  | .extestPulse data => Sys2Proof.Machine.execExtestPulse data s
  | .extestTrain data => Sys2Proof.Machine.execExtestTrain data s
  | .dbgChal => Sys2Proof.Machine.execDbgChal s
  | .dbgResp slot key signature => Sys2Proof.Machine.execDbgResp slot key signature s
  | .tamperTrip source => Sys2Proof.Machine.execTamperTrip source s
  | .domainOff domain => Sys2Proof.Machine.execDomainOff domain s
  | .domainWake domain => Sys2Proof.Machine.execDomainWake domain s
  | .domainPowerGood domain => Sys2Proof.Machine.execDomainPowerGood domain s
  | .domainPowerFail domain => Sys2Proof.Machine.execDomainPowerFail domain s
  | .domainOffReq domains => Sys2Proof.Machine.execDomainOffReq domains s
  | .latencyToleranceWrite register tolerance => Sys2Proof.Machine.execLatencyToleranceWrite register tolerance s
  | .engineGate cluster engine => Sys2Proof.Machine.execEngineGate cluster engine s
  | .ropeQuadGate quad => Sys2Proof.Machine.execRopeQuadGate quad s
  | .timeOnlyEntry => Sys2Proof.Machine.execTimeOnlyEntry s
  | .timeOnlyExit => Sys2Proof.Machine.execTimeOnlyExit s
  | .timeOnlyExitDone => Sys2Proof.Machine.execTimeOnlyExitDone s
  | .counterValueWrite counter value => Sys2Proof.Machine.execCounterValueWrite counter value s
  | .counterConfigWrite counter data => Sys2Proof.Machine.execCounterConfigWrite counter data s
  | .counterFreeze freeze => Sys2Proof.Machine.execCounterFreeze freeze s
  | .harvestSnapshot => Sys2Proof.Machine.execHarvestSnapshot s
  | .harvestNow => Sys2Proof.Machine.execHarvestNow s
  | .harvestRecordDone ok => Sys2Proof.Machine.execHarvestRecordDone ok s
  | .cairnEntryWrite => Sys2Proof.Machine.execCairnEntryWrite s
  | .crgArm => Sys2Proof.Machine.execCrgArm s
  | .crgModeWrite mode dest => Sys2Proof.Machine.execCrgModeWrite mode dest s
  | .crgHostTrigger => Sys2Proof.Machine.execCrgHostTrigger s
  | .crgTimeTrigger => Sys2Proof.Machine.execCrgTimeTrigger s
  | .bufferSweep => Sys2Proof.Machine.execBufferSweep s
  | .engineBist => Sys2Proof.Machine.execEngineBist s
  | .tdcSelfTest => Sys2Proof.Machine.execTdcSelfTest s
  | .eyeScan => Sys2Proof.Machine.execEyeScan s
  | .ringBist => Sys2Proof.Machine.execRingBist s
  | .tableBist => Sys2Proof.Machine.execTableBist s
  | .tstAbort => Sys2Proof.Machine.execTstAbort s
  | .tstDone failed res0 res1 => Sys2Proof.Machine.execTstDone failed res0 res1 s
  | .logPop => Sys2Proof.Machine.execLogPop s
  | .windowClose subsystem => Sys2Proof.Machine.execWindowClose subsystem s
  | .fltRelease => Sys2Proof.Machine.execFltRelease s
  | .endCoast => Sys2Proof.Machine.execEndCoast s
  | .fltReactWrite event reaction => Sys2Proof.Machine.execFltReactWrite event reaction s
  | .powerDown => Sys2Proof.Machine.execPowerDown s
  | .resetnRelease flash mramOk => Sys2Proof.Machine.execResetnRelease flash mramOk s
  | .portResetDone port => Sys2Proof.Machine.execPortResetDone port s
  | .ilkNChange level => Sys2Proof.Machine.execIlkNChange level s
  | .dllRelock output => Sys2Proof.Machine.execDllRelock output s
  | .timeOnlyEntryDone => Sys2Proof.Machine.execTimeOnlyEntryDone s
  | .controlRampEnd => Sys2Proof.Machine.execControlRampEnd s
  | .linkTrainingDone port => Sys2Proof.Machine.execLinkTrainingDone port s

end Sys2Proof.Machine
end

