-- ==== Sys2Proof/Safety.lean ====
section
/-! DEFINITION. The terms in which the block's claims are made: a device out of reset, a host write that gets through, what every
write to a register does beside its effect, a device up to what it sends, the rules the fault log and the memories keep. -/

namespace Sys2Proof.Machine

/-- The device is out of a power-on or cold reset (R61, R68, R79). -/
abbrev State.Up (s : State) : Prop := s.dev.held = false

/-- A host write to the register at `a` gets through: the device is out of reset, no warm reset shuts the address (R71) and the
register's unit is present (R52). -/
abbrev State.Reaches (s : State) (a : Nat) : Prop := s.Up ∧ s.dev.shut a = false ∧ s.dev.there a = true

/-- The registers whose write reaches more than the device. -/
def reachesState (a : Nat) : Bool :=
  a == R.TOP_RST_CTRL || a == R.HIF_VEC_EOI_0 || a == R.HIF_VEC_EOI_1 || a == R.FLT_CTRL || a == R.FLT_LOG_POP

/-- The bits that the register at an address names. -/
def namedAt (a : Nat) : Word := match registerAt a with | some (r, _) => namedBits r a | none => 0

/-- What every write to a register that starts an operation does beside it: it ends what the page's holding register holds (R89),
and the register's parity is right again (R106, R108). -/
def Dev.touched (a : Nat) (d : Dev) : Dev := { d.endHold a with parity := d.parity.filter (· != a) }

/-- The command completes at `s` with the device brought to `f` of itself, from a device whose last sendings are gone; then the fault
unit and the interrupt unit take what the command left, as at the end of every command. -/
abbrev Runs (c : Instr) (s : State) (f : Dev → Dev) : Prop := exec c s = .next (s.begin.onDev f).commit

/-- As `Runs`, for a command whose dwords the host writes one by one: what one raises is taken before the next (R86). -/
abbrev RunsAccess (c : Instr) (s : State) (f : Dev → Dev) : Prop := exec c s = .next (s.begin.onDev f).settle.commit

/-- The command completes at `s` and leaves all of the device that `rest` keeps as it was; what the fault unit then does with the events
raised, if any, is apart from this. -/
abbrev Leaves (rest : Dev → Dev) (c : Instr) (s : State) : Prop := ∃ e : Dev, Runs c s (fun _ => e) ∧ rest e = rest s.begin.dev

/-- The commands that act on a device held in a power-on or cold reset: those that begin and end such resets, the host's and the
link's side of PCIe, and the test access port, which TRST_N alone resets (R61, R68, R77, R443). -/
def actsHeld (c : Instr) : Bool :=
  match c with
  | .powerOnReset _ _ | .resetnRelease _ _ | .coldReset | .powerDown | .hostReset _ | .perstNRelease | .pcieDlDown => true
  | .bypass _ | .idcode | .samplePreload _ _ | .extest _ | .extestPulse _ | .extestTrain _ => true
  | _ => false

/-- What is sent is a message of a vector. -/
def Sent.isMessage (v : Nat) (x : Sent) : Bool := match x with | .message n _ _ => n == v | _ => false

/-- A device but for what it sends. -/
def Dev.unsent (d : Dev) : Dev := { d with sent := [] }

/-- Two devices that differ at most in HIF_SRC_LEVEL_0 and _1, which show the interrupt sources, and in what they send. -/
def Dev.Alike (d e : Dev) : Prop :=
  { d with csr := [], sent := [] } = { e with csr := [], sent := [] } ∧
    ∀ a, a ≠ R.HIF_SRC_LEVEL_0 → a ≠ R.HIF_SRC_LEVEL_1 → d.word a = e.word a

/-- What the fault log keeps (R505): at most 64 entries, one for each event code and instance, none counting more than 255 repeats. -/
def Flt.Kept (f : Flt) : Prop :=
  f.log.length ≤ 64 ∧ (f.log.map (fun l => (l.code, l.inst))).Nodup ∧ ∀ l ∈ f.log, l.repeats ≤ 255

/-- The outcome of a step is a next state. -/
def Outcome.isNext {σ φ ρ : Type} : Host.Outcome σ φ ρ → Bool
  | .next _ => true
  | _ => false

/-- A run is safe when no step of it stops: every command the spec gives has an effect, be it none. -/
def State.SafeStep (s : State) : Prop := Outcome.isNext (step s) = true

end Sys2Proof.Machine
end

