-- ==== Sys2Proof/Certificates/Slice0/Obligations.lean ====
section
/-! DEFINITION. What the block's provers are asked to show: the rules of the manual that say what a command or the block does, as
statements about `exec` and `step`. A statement of what a command does says that the command completes, with the device it leaves before
the fault unit and the interrupt unit take what it raised (`Runs`); where it says less than all of the next state it says what stays. -/

open Sys2Proof Sys2Proof.Machine

/-- A step takes the command at the front of the queue and is that command's meaning on the queue's rest; with no command waiting
one edge of the time clock passes (log entry 6). No word spells a command (log entry 5), so a word placed for the fetch changes
nothing. -/
def Obligations.StepTakesFront : Prop :=
  ∀ (s : State) (c : Instr),
    step { s with pending := c :: s.pending } = exec c s ∧
    (∀ rest, s.pending = c :: rest → step s = exec c { s with pending := rest }) ∧
    (s.pending = [] → step s = s.idle) ∧
    (s.pending = [] → s.Up → step s = .next (s.begin.onDev Dev.clockEdge).commit) ∧
    (∀ nbits w, decodeTableWord nbits w = none ∧ s.withFetchWord nbits w = s)

/-- The block right after reset (R4, R47, R61, R68, log entries 1 to 4): out of reset, with the part's identity, no image, no
window and no log entry, empty memories and an empty queue; the rules that every step keeps hold there. -/
def Obligations.ResetState : Prop :=
  let s := State.reset
  s.Up ∧ s.pending = [] ∧ s.flt.windows = [] ∧ s.flt.log = [] ∧ s.dev.raised = [] ∧ s.dev.sent = [] ∧ s.dev.shadow = [] ∧
    s.dev.word 0 = 0x11648010#32 ∧ (∀ a, a ≠ 0 → s.dev.word a = resetWord a) ∧ s.dev.get F.IMG_STATUS_state = Img.empty ∧
    s.dev.applied = false ∧ (∀ a, s.dev.byte a = 0) ∧ Memory.wf s.dev.mem = true ∧ s.flt.Kept ∧
    (∀ v ∈ s.irq.pending, v ∈ s.irq.masked ∨ v ∈ s.irq.inService) ∧ s.irq.masked = List.range 64 ∧ s.irq.intN = false

/-- Every command completes and leaves the queue to the step; a step takes one command off it. -/
def Obligations.CommandsComplete : Prop :=
  (∀ (c : Instr) (s : State), ∃ t, exec c s = .next t ∧ t.pending = s.pending) ∧
  (∀ s : State, s.SafeStep ∧ ∃ t, step s = .next t ∧ t.pending = s.pending.drop 1)

/-- A device held in a power-on or cold reset takes no command but those of reset, the PCIe link and the test access port (R61,
R68, R79; that the others do nothing is the model's reading, log entry 33). -/
def Obligations.HeldDevice : Prop :=
  ∀ (c : Instr) (s : State), s.dev.held = true → actsHeld c = false → exec c s = .next s.begin.commit

/-- The watchdog (R78): a kick restarts the count with its full period, a period of 0 acting as 1; arming it stores the
write-once period and enable and starts the count; the count reaching 0 raises TOP_EVENT.wdog and requests a watchdog reset. -/
def Obligations.WatchdogActs : Prop :=
  ∀ s : State,
    (s.Reaches R.TOP_WDOG_KICK → s.dev.flag F.TOP_WDOG_CTRL_enable = true → s.dev.busy = false →
      Runs .watchdogKick s (fun d =>
        let e := (d.touched R.TOP_WDOG_KICK).put F.TOP_WDOG_COUNT (max 1 (d.get F.TOP_WDOG_CTRL_period))
        { e with rst := { e.rst with watchdogEdges := 0 } })) ∧
    (∀ period : BitVec 16, s.Reaches R.TOP_WDOG_CTRL → s.dev.onceWritten R.TOP_WDOG_CTRL = false → s.dev.busy = false →
      ∃ u : State, exec (.watchdogArm period) s = .next u.commit ∧
        u.dev.get F.TOP_WDOG_CTRL_enable = 1 ∧ u.dev.get F.TOP_WDOG_CTRL_period = period.toNat ∧
        u.dev.get F.TOP_WDOG_COUNT = max 1 period.toNat ∧ u.dev.rst.watchdogEdges = 0 ∧
        u.dev.onceWritten R.TOP_WDOG_CTRL = true) ∧
    (s.Up → s.dev.flag F.TOP_WDOG_CTRL_enable = true → s.dev.get F.TOP_WDOG_COUNT = 1 → s.dev.busy = false →
      exec .watchdogReset s = .next
        ((s.begin.onDev (fun d => (d.put F.TOP_WDOG_COUNT 0).fault R.TOP_EVENT 2 E.TOP_WDOG 0)).warmRequest 3 false).1.commit)

/-- Resets that hold and release the whole device (R61, R68, R523): power-on and the end of a cold reset release it with the boot
source the pin gives; RESETN low and a failing supply hold it, with nothing left in the log, the windows and the memories. -/
def Obligations.DeviceResets : Prop :=
  ∀ (s : State) (flash mramOk : Bool),
    (∃ u : State, exec (.powerOnReset flash mramOk) s = .next u.commit ∧ u.Up ∧ u.dev.img.fromFlash = flash ∧
      u.dev.mem = [] ∧ u.flt.log = [] ∧ u.irq = {} ∧ u.pending = s.pending) ∧
    (s.dev.held = true → ∃ u : State, exec (.resetnRelease flash mramOk) s = .next u.commit ∧ u.Up ∧
      u.dev.img.fromFlash = flash ∧ u.flt.log = s.flt.log ∧ u.irq = s.irq ∧ u.pending = s.pending) ∧
    (s.Up → ∃ u : State, exec .coldReset s = .next u.commit ∧ u.dev.rst.phase = .cold ∧ u.dev.bitAt R.TOP_RST_CAUSE 1 = true ∧
      u.dev.mem = [] ∧ u.dev.fwd = {} ∧ u.dev.qsc = {} ∧ u.flt.log = [] ∧ u.irq = {} ∧ u.pending = s.pending) ∧
    (∃ u : State, exec .powerDown s = .next u.commit ∧ u.dev.rst.phase = .powerOn ∧ u.dev.host = {} ∧
      u.dev.mem = [] ∧ u.dev.fwd = {} ∧ u.dev.qsc = {} ∧ u.flt.log = [] ∧ u.flt.windows = [] ∧ u.irq = {} ∧ u.pending = s.pending)

/-- A warm reset asked for over TOP_RST_CTRL.warm runs where a full image stands, none runs yet and the staging memory is
unspoiled (R70, R72): its cause bit is set, the global region and the port groups are re-applied, the device is no longer halted,
the log stands, and windows that waited for a block reset wait for it. Before a full image, or with a spoiled staging memory, it
acts as a cold reset with its own cause, released at once (R72); while one runs, it sets its cause and TOP_RST_CTRL.warm and goes
no deeper (R79). WARM_RESET_DONE while one runs ends it (Table TOP-4). -/
def Obligations.WarmResetRuns : Prop :=
  ∀ s : State,
    (s.Reaches R.TOP_RST_CTRL → s.dev.busy = false → s.dev.applied = true → s.dev.img.spoiled = false →
      ∃ u : State, exec .warmReset s = .next u.commit ∧
        u.dev = (((s.begin.dev.endHold R.TOP_RST_CTRL).cause 2).warmBegin true).put F.FLT_STATUS_halted 0 ∧
        u.flt.log = s.flt.log ∧ u.irq = s.irq ∧ u.pending = s.pending ∧
        ∀ k w, Sparse.get? u.flt.windows k = some w → ∀ pg, w.await ≠ .block pg) ∧
    (s.Reaches R.TOP_RST_CTRL → s.dev.busy = false → (s.dev.applied = false ∨ s.dev.img.spoiled = true) →
      exec .warmReset s = .next ((((s.begin.onDev (Dev.endHold R.TOP_RST_CTRL)).coldUnits.onDev (Dev.coldInstead 2)).completed
        .halt).fltSync).commit) ∧
    (s.Reaches R.TOP_RST_CTRL → s.dev.busy = true → Runs .warmReset s (fun d =>
      ((d.endHold R.TOP_RST_CTRL).cause 2).put F.TOP_RST_CTRL_warm 1)) ∧
    (s.Up → s.dev.busy = true →
      exec .warmResetDone s = .next
        (((s.begin.onDev Dev.warmEnd).completed .warm).onDev Dev.haltNow).fltSync.commit)

/-- A running warm reset shuts the global region and the port groups (R71), their registers, the aliases of their bits and their
memories: a read gives 0 and changes nothing but the holding register of its page, a write is discarded; the time region, TOP_RST_CTRL,
TOP_RST_CAUSE and TOP_READY answer as without it. -/
def Obligations.WarmResetShuts : Prop :=
  (∀ (s : State) (addr : BitVec 28), s.Up → s.dev.busy = true → aliasBase ≤ addr.toNat → addr.toNat < aliasEnd → addr.toNat % 4 = 0 →
    (addr.toNat - aliasBase) / 128 * 4 < controlEnd → s.dev.shut ((addr.toNat - aliasBase) / 128 * 4) = true →
      Runs (.rcRead (.bar0 addr 1)) s (fun d =>
        { d.endHold addr.toNat with host := { (d.endHold addr.toNat).host with rdata := [0], unsupported := false } }) ∧
      ∀ be w, RunsAccess (.registerWrite addr be [w]) s (Dev.endHold addr.toNat)) ∧
  (∀ (s : State) (addr : BitVec 28) (c : Cellref), s.Up → s.dev.busy = true → controlEnd ≤ addr.toNat →
    ¬ (aliasBase ≤ addr.toNat ∧ addr.toNat < aliasEnd) → addr.toNat % 4 = 0 → cellAt addr.toNat = some c →
    (c.region ≠ Region.time →
      Runs (.rcRead (.bar0 addr 1)) s (fun d =>
        { d.endHold addr.toNat with host := { (d.endHold addr.toNat).host with rdata := [0], unsupported := false } }) ∧
      ∀ be w, RunsAccess (.registerWrite addr be [w]) s (Dev.endHold addr.toNat)) ∧
    (c.area = .mgtTx ∨ c.area = .mgtRx → s.dev.cellOpen c = (s.dev.cellPresent c && s.dev.domainOn c.area.domain))) ∧
  ∀ (s : State) (addr : BitVec 28), s.Up → s.dev.busy = true → addr.toNat < controlEnd → addr.toNat % 4 = 0 →
    (controlRegion addr.toNat ≠ Region.time → addr.toNat ≠ R.TOP_RST_CTRL → addr.toNat ≠ R.TOP_RST_CAUSE → addr.toNat ≠ R.TOP_READY →
      Runs (.rcRead (.bar0 addr 1)) s (fun d =>
        { d.endHold addr.toNat with host := { (d.endHold addr.toNat).host with rdata := [0], unsupported := false } }) ∧
      ∀ be w, RunsAccess (.registerWrite addr be [w]) s (Dev.endHold addr.toNat)) ∧
    (controlRegion addr.toNat = Region.time ∨ addr.toNat = R.TOP_RST_CTRL ∨ addr.toNat = R.TOP_RST_CAUSE ∨ addr.toNat = R.TOP_READY →
      s.dev.shut addr.toNat = false) ∧
    (∀ (r : RegRow) (i : Nat), controlRegion addr.toNat = Region.time ∨ addr.toNat = R.TOP_RST_CTRL ∨
        addr.toNat = R.TOP_RST_CAUSE ∨ addr.toNat = R.TOP_READY → s.dev.there addr.toNat = true →
      registerAt addr.toNat = some (r, i) → Sparse.get? s.dev.host.hold (holdOf addr.toNat) = none →
        (s.dev.readRegister addr.toNat true).1 = s.dev.readValue r i addr.toNat ∧
        (∀ w, s.writeRegister addr.toNat 0xF w =
          (s.onDev (Dev.endHold addr.toNat)).regWrite r i addr.toNat Via.whole w addr.toNat))

/-- A write of TOP_BLK_RST acts on the blocks its bits name, from the lowest, and one of TOP_PORT_RST_0 or _1 on the ports: a bit
starts the reset of a present block that accepts one, or of a present port, at once where nothing holds it (R58, R74, R75, R76); a
block that accepts none refuses (R74), an absent one counts the write (R52); the end of either ends it. -/
def Obligations.PartResets : Prop :=
  ∀ s : State,
    (∀ blocks : Word, s.Reaches R.TOP_BLK_RST → blocks.toNat < 2 ^ 24 →
      Runs (.blockReset blocks) s (fun d => Dev.each ((List.range 24).filter (fun pg => blocks.getLsbD pg)) (fun pg e =>
        if blockResettable pg = false then e.put F.TOP_RST_CTRL_refused 1
        else if e.blockPresent pg = false then e.absentWrite R.TOP_BLK_RST
        else e.blockRequest pg) (d.touched R.TOP_BLK_RST))) ∧
    (∀ (high : Bool) (ports : Word), s.Reaches (if high then R.TOP_PORT_RST_1 else R.TOP_PORT_RST_0) →
      Runs (.portReset high ports) s (fun d => Dev.each (((List.range 32).filter (fun i => ports.getLsbD i)).map
          (· + (if high then 32 else 0))) (fun p e =>
        if e.portPresent p then e.portRequest p else e.absentWrite (portRstReg p))
          (d.touched (if high then R.TOP_PORT_RST_1 else R.TOP_PORT_RST_0)))) ∧
    (∀ pg : Fin 24, s.Reaches R.TOP_BLK_RST → blockResettable pg = true → s.dev.blockPresent pg = true → s.dev.busy = false →
      s.dev.bitAt R.TOP_BLK_RST pg = false → s.dev.blockWaits pg = false →
      Runs (.blockReset (BitVec.ofNat 32 (2 ^ pg.val))) s (fun d => (d.touched R.TOP_BLK_RST).blockStart pg)) ∧
    (∀ pg : Fin 24, s.Reaches R.TOP_BLK_RST → blockResettable pg = false →
      Runs (.blockReset (BitVec.ofNat 32 (2 ^ pg.val))) s (fun d => (d.touched R.TOP_BLK_RST).put F.TOP_RST_CTRL_refused 1)) ∧
    (∀ p : Fin 64, s.Reaches (portRstReg p) → s.dev.portPresent p = true → s.dev.busy = false →
      s.dev.bitAt (portRstReg p) (p % 32) = false → s.dev.prRunning = false →
      Runs (.portReset (decide (32 ≤ p.val)) (BitVec.ofNat 32 (2 ^ (p.val % 32)))) s
        (fun d => (d.touched (portRstReg p)).portStart p)) ∧
    (∀ pg : Fin 24, s.Up → s.dev.blockInReset pg = true →
      exec (.blockResetDone pg) s = .next
        (((s.begin.onDev (Dev.blockEnd pg)).completed (.block pg)).onDev Dev.haltNow).fltSync.commit) ∧
    (∀ p : Fin 64, s.Up → s.dev.bitAt (portRstReg p) (p % 32) = true → s.dev.rst.heldPorts.contains p.val = false →
      Runs (.portResetDone p) s (fun d => ((d.setBit (portRstReg p) (p % 32) false).portRestart true p).haltNow))

/-- The PCIe side of the device (R64, R68, R77, R113): a host reset returns the MSI-X table, the BARs, bus mastering and D0 and drops the rings,
PERST_N high lets the link train, DL_Up with the rate and width trained makes the host interface and port 64 ready but during EXTEST (R443), PERST_N
low takes both, and so does DL_Down, which raises HIF_EVENT.link_down with nothing to explain it. -/
def Obligations.HostLink : Prop :=
  ∀ s : State,
    (∀ kind, kind ≠ HostReset.perst → s.Up → s.dev.host.hostReset = false → ∃ u : State, exec (.hostReset kind) s = .next u.commit ∧
      u.irq = {} ∧ u.dev.host.hostReset = true ∧ u.dev.host.dlUp = false ∧ u.dev.host.linkRate = 0 ∧ u.dev.host.linkWidth = 0 ∧
      u.dev.host.descs = [] ∧ u.dev.host.done = [] ∧ u.dev.host.d3hot = false ∧
      u.dev.host.busMaster = false ∧ u.dev.host.bars = [] ∧ u.flt = s.flt) ∧
    Runs .perstNRelease s (fun d => { d with host := { d.host with perstN := true, training := !d.held } }) ∧
    Runs (.hostReset .perst) s (fun d => (({ d with host := { d.host with
      d3hot := false, busMaster := false, bars := [], dlUp := false, perstN := false, training := false, linkRate := 0, linkWidth := 0 } }).put F.TOP_READY_hif 0).portDown 64) ∧
    (s.Up →
      (s.dev.host.perstN = true → s.dev.sec.extest = false → ∃ rate ∈ [1, 2, 3, 4], ∃ width ∈ [1, 2, 4], Runs .pcieDlUp s (fun d =>
        ((({ d.draw with host := { d.host with
          dlUp := true, hostReset := false, training := false, linkRate := rate, linkWidth := width } }).put
            F.TOP_READY_hif 1).put (readyBit 64) 1).haltNow)) ∧
      (s.dev.host.perstN = false ∨ s.dev.sec.extest = true → Runs .pcieDlUp s Dev.haltNow)) ∧
    Runs .pcieDlDown s (fun d =>
      let e := { d with host := { d.host with dlUp := false, training := s.dev.host.perstN, linkRate := 0, linkWidth := 0 } }
      ((if s.dev.flag F.TOP_READY_hif = true ∧ s.dev.host.hostReset = false ∧ s.dev.host.perstN = true then
        e.fault R.HIF_EVENT 4 E.HIF_LINK_DOWN 0 else e).put F.TOP_READY_hif 0).portDown 64)

/-- The image loader over the flash (R44, R45): a slot read into the staging memory is applied where nothing speaks against it,
and else the next slot is read or the load fails with its reason; a flash that does not answer fails slot A with 0x11 and slot B
with it for good. IMG_CTRL.start_full where no image stands and none loads (R47): the staged image is applied where nothing
speaks against it, and else the load fails with its reason; over an applied image or a load it is refused with reason 0x12 or 0x0E.
IMG_CTRL.lock sets the lock (R94). -/
def Obligations.ImageLoad : Prop :=
  (∀ (s : State) (slot : Nat), s.Up → s.dev.img.reading = some slot →
    (∀ image, ∃ d : Dev, d = ((s.begin.dev.clearMem stagingBase storeBase).store stagingBase
        (if (checkHeader image).isSome then image.take 256 else image.take 4194304)) ∧
      Runs (.imgSlotReadDone image) s (fun _ =>
        match d.fullReason with
        | none => ({ d with img := { d.img with reading := none } }).applyFull d.staged
        | some r =>
          if d.refusesImages then ({ d with img := { d.img with reading := none } }).loadFails r
          else d.flashSlotFails r slot)) ∧
    (slot = 0 → ∃ u : State, exec .flashTimeout s = .next u.commit ∧ u.dev.get F.IMG_STATUS_reason = 0x11 ∧
      u.dev.get F.IMG_STATUS_state = Img.loading ∧ u.dev.img.reading = some 1) ∧
    (slot ≠ 0 → ∃ u : State, exec .flashTimeout s = .next u.commit ∧ u.dev.get F.IMG_STATUS_reason = 0x11 ∧
      u.dev.get F.IMG_STATUS_state = Img.failed ∧ u.dev.img.reading = none ∧ u.dev.flag ⟨R.IMG_EVENT, 1, 1⟩ = true)) ∧
  (∀ s : State, s.Reaches R.IMG_CTRL →
    (s.dev.get F.IMG_STATUS_state = Img.empty ∨ s.dev.get F.IMG_STATUS_state = Img.failed →
      ∃ d : Dev, d.mem = s.dev.mem ∧ d.get F.IMG_STATUS_source = 2 ∧ d.img = s.dev.img ∧
        Runs .startFull s (fun _ =>
          match d.fullReason with
          | none => d.applyFull d.staged
          | some r => d.loadFails r)) ∧
    (s.dev.get F.IMG_STATUS_state ≠ Img.empty → s.dev.get F.IMG_STATUS_state ≠ Img.failed →
      ∃ u : State, exec .startFull s = .next u.commit ∧
        u.dev.get F.IMG_STATUS_reason = (if s.dev.get F.IMG_STATUS_state = Img.appliedSt then 0x12 else 0x0E) ∧
        u.dev.get F.IMG_STATUS_state = s.dev.get F.IMG_STATUS_state ∧ u.dev.flag ⟨R.IMG_EVENT, 1, 1⟩ = true ∧
        u.dev.raised = s.dev.raised ++ [⟨E.IMG_FAIL, 0⟩] ∧ u.dev.mem = s.dev.mem) ∧
    (∃ u : State, exec .imgLock s = .next u.commit ∧ u.dev.locked = true ∧ u.dev.flag F.IMG_CTRL_lock = true ∧
      u.dev.mem = s.dev.mem ∧ u.dev.get F.IMG_STATUS_state = s.dev.get F.IMG_STATUS_state))

/-- Writes to the two image windows while they are open store the enabled bytes (R47, R54), and nothing beside them. -/
def Obligations.ImageWindows : Prop :=
  ∀ (s : State) (be : BitVec 4) (data : Word), s.Up → s.dev.busy = false →
    (∀ index : BitVec 20, s.dev.stagingOpen = true →
      RunsAccess (.stagingWindowWrite index be data) s (fun d =>
        enabledBytes (stagingBase + 4 * index.toNat) be data (d.endHold (stagingBase + 4 * index.toNat)))) ∧
    (∀ index : BitVec 15, s.dev.pendingOpen = true →
      RunsAccess (.pendingWindowWrite index be data) s (fun d =>
        enabledBytes (pendingBase + 4 * index.toNat) be data (d.endHold (pendingBase + 4 * index.toNat)))) ∧
    (∀ (a : Nat) (d : Dev), (∀ x, x < a ∨ a + 4 ≤ x → (enabledBytes a be data d).byte x = d.byte x) ∧
      ∀ i : Fin 4, be.getLsbD i = true → (enabledBytes a be data d).byte (a + i) = BitVec.ofNat 8 (data.toNat / 256 ^ i.val))

/-- A partial re-structure (R53–R56): started on an applied image it enters pr_verifying with its options, and what speaks against its
start refuses it with a reason; its verification
flushes where asked and enters pr_quiescing, or fails with a reason; the drain limit flushes; with the group quiet its image is
in the group store, its version shows and the state is applied again. -/
def Obligations.PartialRestructure : Prop :=
  ∀ s : State,
    (∀ (group : Fin 8) (flush loss : Bool), s.Reaches R.IMG_CTRL → s.dev.get F.IMG_STATUS_state = Img.appliedSt →
      s.dev.refusesImages = false → (s.dev.locked = false ∨ s.dev.policyBit Policy.prAfterLock = true) →
      (loss = true ∨ ∀ l ∈ s.dev.prLanes group s.dev.pendingImage, ∀ p ∈ s.dev.refPorts, l ∉ s.dev.portLanes p) →
      ∃ u : State, exec (.prStart group flush loss) s = .next u.commit ∧ u.dev.get F.IMG_STATUS_state = Img.prVerifying ∧
        u.dev.get F.IMG_CTRL_pr_start = 1 ∧ u.dev.get F.IMG_CTRL_pr_group = group.val ∧
        u.dev.get F.IMG_CTRL_pr_flush = bit flush ∧ u.dev.img.prGroup = group.val ∧ u.dev.mem = s.dev.mem) ∧
    (∀ (group : Fin 8) (flush loss : Bool) (r : Nat), s.Reaches R.IMG_CTRL →
      let st := s.dev.get F.IMG_STATUS_state
      let carries := ∃ l ∈ s.dev.prLanes group s.dev.pendingImage, ∃ p ∈ s.dev.refPorts, l ∈ s.dev.portLanes p
      (r = 0x0E ∧ (1 ≤ st ∧ st ≤ 3 ∨ 5 ≤ st ∧ st ≤ 7) ∨ r = 0x0C ∧ (st = 0 ∨ 8 ≤ st) ∨
        st = Img.appliedSt ∧ (r = 0x13 ∧ s.dev.refusesImages = true ∨ s.dev.refusesImages = false ∧
          (r = 0x0F ∧ loss = false ∧ carries ∨ r = 0x10 ∧ (loss = true ∨ ¬ carries) ∧ s.dev.locked = true ∧
            s.dev.policyBit Policy.prAfterLock = false))) →
      ∃ u : State, exec (.prStart group flush loss) s = .next u.commit ∧ u.dev.get F.IMG_STATUS_state = st ∧
        u.dev.get F.IMG_STATUS_reason = r ∧ u.dev.img = s.dev.img ∧ u.dev.mem = s.dev.mem) ∧
    (s.Up → s.dev.get F.IMG_STATUS_state = Img.prVerifying → s.dev.prPowerWaits = true → Runs .prVerifyDone s id) ∧
    (s.Up → s.dev.get F.IMG_STATUS_state = Img.prVerifying → s.dev.prPowerWaits = false →
      Runs .prVerifyDone s (fun d => Dev.afterPr (fun e =>
        match (match checkHeader e.pendingImage with
          | some r => some r
          | none => if !isPartial e.pendingImage then some 0x14
            else e.verify e.pendingImage (some e.img.prGroup)) with
        | some r => e.prFails r true
        | none =>
          let e1 := e.put F.IMG_STATUS_state Img.prQuiescing
          let e2 := { e1 with img := { e1.img with prLen := imageLen e.pendingImage } }
          if e2.flag F.IMG_CTRL_pr_flush then e2.prFlush else e2) d)) ∧
    (s.Up → s.dev.get F.IMG_STATUS_state = Img.prQuiescing → Runs .prDrainTimeout s Dev.prFlush) ∧
    (s.Up → s.dev.get F.IMG_STATUS_state = Img.prQuiescing → s.dev.prQuiet = true →
      ∃ e : Dev, Runs .prQuiesced s (fun d => Dev.afterPr (fun _ => e.rdnEval) d) ∧
        e.get F.IMG_STATUS_state = Img.appliedSt ∧ e.get F.IMG_CTRL_pr_start = 0 ∧
        e.get (F.IMG_GROUP_VER s.dev.img.prGroup) = numAt (s.dev.bytes pendingBase s.dev.img.prLen) 0x14 4 ∧
        e.flag ⟨R.IMG_EVENT, 2, 1⟩ = true ∧ Sparse.get? e.img.groups s.dev.img.prGroup = some s.dev.img.prLen)

/-- What a plain write makes of each bit of a register (Table TOP-4): a bit of an immediate RW field becomes the bit written, a
bit of a W1C field clears where 1 is written, a bit of a W1S field sets where 1 is written, a bit of an RO or RC field stays, and
so does a bit that no field names. A write of one bit through its alias (R96) to an immediate RW field makes that bit of the
register the bit written and leaves the others. -/
def Obligations.PlainWriteBits : Prop :=
  (∀ (d : Dev) (r : RegRow) (a : Nat) (w : Word), a ≠ R.HIF_UG_PEND → r.fields.Pairwise (fun f g =>
      f.lsb + f.width ≤ g.lsb ∨ g.lsb + g.width ≤ f.lsb) → w &&& ~~~(namedBits r a) = 0 →
    (∀ f ∈ r.fields, ∀ k, k < 32 → f.lsb ≤ k → k < f.lsb + f.width →
      ((d.plainWrite r a Via.whole w).word a).getLsbD k =
        match f.ty with
        | .rw => if f.upd = .i then w.getLsbD k else (d.word a).getLsbD k
        | .ro => (d.word a).getLsbD k
        | .rc => (d.word a).getLsbD k
        | .w1c => (d.word a).getLsbD k && !w.getLsbD k
        | .w1s => (d.word a).getLsbD k || w.getLsbD k
        | .wo => if f.upd = .i ∧ d.onceWritten a = false then w.getLsbD k else (d.word a).getLsbD k
        | .wl => if f.upd = .i ∧ d.locked = false then w.getLsbD k else (d.word a).getLsbD k) ∧
    (∀ k, k < 32 → (∀ f ∈ r.fields, ¬ (f.lsb ≤ k ∧ k < f.lsb + f.width)) →
      ((d.plainWrite r a Via.whole w).word a).getLsbD k = (d.word a).getLsbD k)) ∧
  (∀ (s : State) (offset : BitVec 26) (be : BitVec 4) (data : Word) (r : RegRow) (i : Nat),
    let o := offset.toNat / 128 * 4
    let b := offset.toNat / 4 % 32
    s.Reaches o → o < controlEnd → offset.toNat % 4 = 0 → be.getLsbD 0 = true → registerAt o = some (r, i) → reachesState o = false →
    o ≠ R.HIF_UG_PEND → o / 0x10000 * 0x10000 + r.off ≠ R.SEC_ATT_NONCE 0 → o / 0x10000 * 0x10000 + r.off ≠ R.TOP_WDOG_CTRL →
    (∀ (d : Dev) (w : Word), d.special (o / 0x10000 * 0x10000 + r.off) i w = none) →
    (∀ (old d : Dev) (w : Word), Dev.after old (o / 0x10000 * 0x10000 + r.off) i w d = d) →
    r.fields.Pairwise (fun f g => f.lsb + f.width ≤ g.lsb ∨ g.lsb + g.width ≤ f.lsb) →
    (∃ f ∈ r.fields, f.ty = .rw ∧ f.upd = .i ∧ f.lsb ≤ b ∧ b < f.lsb + f.width) → (namedBits r o).getLsbD b = true →
      ∃ u : State, exec (.bitAliasWrite offset be data) s = .next u.settle.commit ∧
        (u.dev.word o).getLsbD b = data.getLsbD 0 ∧ ∀ k, k ≠ b → (u.dev.word o).getLsbD k = (s.dev.word o).getLsbD k)

/-- A host write of a dword to a register whose write starts nothing of its own does the plain write and what it sets going (R87,
R89), whether sent as a register write or as a write of a buffered register. A host write of several dwords (Table HIF-3) is one access
to both words where two lie at an aligned address of the control pages, which counts at most once in HIF_ACC_CNT and in IMG_ABSENT_CNT
(R52), and elsewhere one access for each dword, in ascending order. -/
def Obligations.RegisterWriteRuns : Prop :=
  (∀ (s : State) (addr : BitVec 28) (r : RegRow) (i : Nat) (w : Word), s.Reaches addr.toNat → addr.toNat < controlEnd →
    addr.toNat % 4 = 0 → registerAt addr.toNat = some (r, i) → reachesState addr.toNat = false →
    addr.toNat / 0x10000 * 0x10000 + r.off ≠ R.SEC_ATT_NONCE 0 → addr.toNat / 0x10000 * 0x10000 + r.off ≠ R.TOP_WDOG_CTRL →
    (∀ d : Dev, d.special (addr.toNat / 0x10000 * 0x10000 + r.off) i (w &&& namedBits r addr.toNat) = none) →
    s.dev.writeFlags r addr.toNat Via.whole w = [] →
      RunsAccess (.registerWrite addr 0xF [w]) s (fun d =>
        Dev.after (d.endHold addr.toNat) (addr.toNat / 0x10000 * 0x10000 + r.off) i (w &&& namedBits r addr.toNat)
          ((d.endHold addr.toNat).plainWrite r addr.toNat Via.whole w)) ∧
      RunsAccess (.shadowWrite addr w) s (fun d =>
        Dev.after (d.endHold addr.toNat) (addr.toNat / 0x10000 * 0x10000 + r.off) i (w &&& namedBits r addr.toNat)
          ((d.endHold addr.toNat).plainWrite r addr.toNat Via.whole w))) ∧
  (∀ (s : State) (addr : BitVec 28) (be : BitVec 4) (ws : List Word), s.Up →
    (∀ w0 w1, ws = [w0, w1] → addr.toNat % 8 < 4 → addr.toNat / 4 * 4 < controlEnd →
      exec (.registerWrite addr be ws) s = .next (s.begin.writePair (addr.toNat / 4 * 4) be w0 w1).settle.commit) ∧
    (ws.length ≠ 2 ∨ 4 ≤ addr.toNat % 8 ∨ controlEnd ≤ addr.toNat / 4 * 4 →
      exec (.registerWrite addr be ws) s = .next (s.begin.writeEach addr.toNat be ws).commit ∧
      (be = 0xF → exec (.tableEntryWrite addr ws) s = .next (s.begin.writeEach addr.toNat be ws).commit))) ∧
  (∀ (t : State) (a : Nat) (be : BitVec 4) (w : Word) (ws : List Word), a % 4 = 0 →
    t.writeEach a be [] = t ∧ t.writeEach a be (w :: ws) = ((t.writeDword a be w).settle).writeEach (a + 4) be ws) ∧
  (∀ (old d : Dev) (a : Nat), a < 2 ^ 28 →
    (d.raised.any (fun e => e.code == E.HIF_ACC_REFUSED && (e.inst == a || e.inst == a + 4)) = true →
      (Dev.oneAccess a old d).get F.HIF_ACC_CNT = satAdd F.HIF_ACC_CNT.width (old.get F.HIF_ACC_CNT) 1 ∧
      (Dev.oneAccess a old d).get F.HIF_ACC_ADDR = a ∧
      (Dev.oneAccess a old d).raised.countP (fun e => e.code == E.HIF_ACC_REFUSED && (e.inst == a || e.inst == a + 4)) = 1) ∧
    (d.raised.any (fun e => e.code == E.IMG_ABSENT_WRITE && (e.inst == a || e.inst == a + 4)) = true →
      (Dev.oneAccess a old d).get F.IMG_ABSENT_CNT = satAdd F.IMG_ABSENT_CNT.width (old.get F.IMG_ABSENT_CNT) 1 ∧
      (Dev.oneAccess a old d).get F.IMG_ABSENT_ADDR = a ∧
      (Dev.oneAccess a old d).raised.countP (fun e => e.code == E.IMG_ABSENT_WRITE && (e.inst == a || e.inst == a + 4)) = 1))

/-- The accesses that R92 flags, and the writes that are dropped without a flag: no register at the address is undefined (bit 2),
a dword not written whole is flagged as bit 1, an absent unit counts the write (R52), a warm reset discards it (R71). A flagged
access (R92): the bit of its kind, the address, the count that stops at its greatest value, HIF_EVENT.acc and the fault. -/
def Obligations.RefusedWrites : Prop :=
  (∀ (s : State) (addr : BitVec 28) (be : BitVec 4) (w : Word), s.Up → addr.toNat < controlEnd → addr.toNat % 4 = 0 →
    (s.dev.shut addr.toNat = true → RunsAccess (.registerWrite addr be [w]) s (Dev.endHold addr.toNat)) ∧
    (s.dev.shut addr.toNat = false → s.dev.there addr.toNat = false →
      RunsAccess (.registerWrite addr be [w]) s (fun d => (d.endHold addr.toNat).absentWrite addr.toNat)) ∧
    (s.Reaches addr.toNat → registerAt addr.toNat = none →
      RunsAccess (.registerWrite addr be [w]) s (fun d => (d.endHold addr.toNat).flagAccess 2 addr.toNat)) ∧
    (s.Reaches addr.toNat → (registerAt addr.toNat).isSome = true → be ≠ 0xF →
      RunsAccess (.registerWrite addr be [w]) s (fun d => (d.endHold addr.toNat).flagAccess 1 addr.toNat))) ∧
  (∀ (d : Dev) (i addr : Nat), i < 8 → addr < 2 ^ 28 →
    (d.flagAccess i addr).bitAt R.HIF_ACC_ERR i = true ∧ (d.flagAccess i addr).get F.HIF_ACC_ADDR = addr ∧
    (d.flagAccess i addr).get F.HIF_ACC_CNT = min (2 ^ F.HIF_ACC_CNT.width - 1) (d.get F.HIF_ACC_CNT + 1) ∧
    (d.flagAccess i addr).bitAt R.HIF_EVENT 0 = true ∧ (d.flagAccess i addr).raised = d.raised ++ [⟨E.HIF_ACC_REFUSED, addr⟩] ∧
    ∀ a, a ≠ R.HIF_ACC_ERR → a ≠ R.HIF_ACC_ADDR → a ≠ R.HIF_ACC_CNT → a ≠ R.HIF_EVENT → (d.flagAccess i addr).word a = d.word a)

/-- Reads (R9, R83–R85, R87–R90): a register that answers gives its value and restores its RC fields; the lower half of a pair
read alone holds the upper one, and the next read of that upper half gives what was held; two dwords at an aligned address, or
the dwords of an entry, are read in one step. A read of BAR2 gives the MSI-X table or the pending bits, one of the configuration
space the function's IDs, the subsystem's once a full image is applied; a BAR written reads back its base, its size and its type; the
function's power state and its bus-master enable are held (log entries 77, 86); an I/O request, an AtomicOp or a locked read completes with Unsupported Request. -/
def Obligations.RegisterReads : Prop :=
  (∀ (s : State) (addr : BitVec 28) (r : RegRow) (i : Nat), s.Reaches addr.toNat → addr.toNat < controlEnd → addr.toNat % 4 = 0 →
    registerAt addr.toNat = some (r, i) → Sparse.get? s.dev.host.hold (holdOf addr.toNat) = none →
    (isPairLow addr.toNat = false → Runs (.rcRead (.bar0 addr 1)) s (fun d =>
      let e := ((d.endHold addr.toNat).readCheck r addr.toNat).readClears r addr.toNat
      { e with host := { e.host with rdata := [d.readValue r i addr.toNat], unsupported := false } })) ∧
    (isPairLow addr.toNat = true → ∀ (r2 : RegRow) (i2 : Nat), registerAt (addr.toNat + 4) = some (r2, i2) →
      Runs (.pairLowerRead addr false) s (fun d =>
        let e := ((((d.endHold addr.toNat).readCheck r addr.toNat).readClears r addr.toNat).readCheck r2 (addr.toNat + 4)).holdUpper
          (addr.toNat + 4) (d.readValue r2 i2 (addr.toNat + 4))
        { e with host := { e.host with rdata := [d.readValue r i addr.toNat], unsupported := false } })) ∧
    (∀ (d : Dev) (x : Word), d.shut addr.toNat = false → d.there addr.toNat = true →
      ((d.holdUpper addr.toNat x).readRegister addr.toNat true).1 = x)) ∧
  (∀ (s : State) (addr : BitVec 28), s.Up →
    (addr.toNat % 8 = 0 → ∀ c ∈ [Instr.pairLowerRead addr true, .rcRead (.bar0 addr 2)], Runs c s (fun d =>
      let x := d.readDword addr.toNat false
      let y := x.2.readDword (addr.toNat + 4) false
      { y.2 with host := { y.2.host with rdata := [x.1, y.1], unsupported := false } })) ∧
    (∀ n, n ≠ 1 → n ≠ 2 → Runs (.rcRead (.bar0 addr n)) s (fun d =>
      let x := Dev.readEach n (addr.toNat / 4 * 4) d
      { x.2 with host := { x.2.host with rdata := x.1, unsupported := false } })) ∧
    (∀ (v : Fin 64) (k : Fin 4) (a : BitVec 16), a.toNat = 16 * v + 4 * k → Runs (.rcRead (.bar2 a)) s (Dev.answer
      [if k.val = 3 then BitVec.ofNat 32 (bit (s.irq.masked.contains v.val)) else Sparse.getD s.irq.msix (4 * v + k) 0] false)) ∧
    (∀ half : Fin 2, ∃ w : Word, Runs (.rcRead (.bar2 (BitVec.ofNat 16 (0x8000 + 4 * half)))) s (Dev.answer [w] false) ∧
      ∀ i : Fin 32, w.getLsbD i = s.irq.pending.any (fun v => v == 32 * half.val + i.val)) ∧
    (Runs (.rcRead (.config 0)) s (Dev.answer [0x64801F2E] false) ∧
      Runs (.rcRead (.config 2)) s (Dev.answer [BitVec.ofNat 32 (0x02800000 + bits (s.dev.word R.TOP_ID) 24 8)] false) ∧
      Runs (.rcRead (.config 11)) s (Dev.answer [if s.dev.applied then s.dev.word R.HIF_SUBSYS else 0] false)) ∧
    (∀ (k : BitVec 10) (w : Word) (b : Bool),
      Runs (.rcRead (.power b)) s (fun d =>
        { d with host := { d.host with d3hot := b, rdata := [], unsupported := false } }) ∧
      Runs (.rcRead (.busMaster b)) s (fun d =>
        { d with host := { d.host with busMaster := b, rdata := [], unsupported := false } }) ∧
      ∃ u : State, exec (.rcRead (.setBar k w)) s = .next u.commit ∧ u.dev.csr = s.dev.csr ∧ u.dev.mem = s.dev.mem ∧
        (k = 4 → u.dev.configDword 4 = w &&& 0xF0000000 ||| 4) ∧ (k = 6 → u.dev.configDword 6 = w &&& 0xFFFF0000 ||| 4) ∧
        (k = 5 ∨ k = 7 → u.dev.configDword k.toNat = w)) ∧
    Runs (.rcRead .other) s (Dev.answer [] true))

/-- Table entries (R90, R91): a dword of an entry with no reserved bit set waits for the entry's last dword, which stores the
dwords held and itself together; a memory without a mate flag takes them with nothing beside. -/
def Obligations.TableEntries : Prop :=
  ∀ (s : State) (addr : BitVec 28) (w : Word) (c : Cellref), s.Up → addr.toNat % 4 = 0 → controlEnd ≤ addr.toNat →
    ¬ (aliasBase ≤ addr.toNat ∧ addr.toNat < aliasEnd) → cellAt addr.toNat = some c → s.dev.busy = false →
    s.dev.cellPresent c = true → s.dev.gateBankTaken c = false → s.dev.domainOn c.area.domain = true →
    s.dev.flag F.TOP_READY_fwd = true → c.area.readOnly = false → c.area ≠ .staging → c.area ≠ .pendingWin →
    c.area ≠ .ctrVal → c.area ≠ .ctrCfg → c.area ≠ .mgtTx → w &&& ~~~(c.area.defined ((addr.toNat - c.base) / 4)) = 0 →
    (addr.toNat + 4 ≠ c.base + c.size → RunsAccess (.tableEntryWrite addr [w]) s (fun d =>
      let e := d.endHold addr.toNat
      { e with host := { e.host with entry := Sparse.put e.host.entry addr.toNat w } })) ∧
    (addr.toNat + 4 = c.base + c.size →
      RunsAccess (.tableEntryWrite addr [w]) s (fun d => (d.endHold addr.toNat).commitEntry c addr.toNat w)) ∧
    (∀ d : Dev, c.area ≠ .flows → (d.putDword c addr.toNat w).bytes addr.toNat 4 = leBytes 4 w.toNat ∧
      ∀ x, x < addr.toNat ∨ addr.toNat + 4 ≤ x → (d.putDword c addr.toNat w).byte x = d.byte x)

/-- Update groups and arm slots (R98, R101–R103): a strobe fires the groups it names; arming an arm slot with a time base that is
valid and no register group in its mask that is only strobed enables it with its mask; an enabled slot whose time has come fires
its groups and reports it, late where it was armed late, and the slots of one edge fire the union of their groups, with those that a
strobe of that edge names, once (R104). The firing of a group on one shadow (R98): where neither its parity nor the block gives the write more
to do, the buffered fields of the register take the shadow's bits, the others stay, and the shadow is no longer pending. -/
def Obligations.UpdateGroups : Prop :=
  (∀ s : State,
    (∀ groups : BitVec 8, s.Reaches R.HIF_UG_STROBE →
      Runs (.ugStrobe groups) s (fun d => (d.touched R.HIF_UG_STROBE).fireGroups groups.toNat)) ∧
    (∀ (slot : Fin 4) (groups : BitVec 8), s.Reaches (R.HIF_ARM_CTRL slot) → s.dev.timeReady = true →
      s.dev.namesStrobed groups.toNat = false → s.dev.get (F.HIF_ARM_NS slot) < 1000000000 →
      ∃ u : State, exec (.armSlotArm slot groups) s = .next u.commit ∧ u.dev.flag (F.HIF_ARM_CTRL_enable slot) = true ∧
        u.dev.get (F.HIF_ARM_CTRL_mask slot) = groups.toNat ∧ u.dev.shadow = s.dev.shadow ∧ u.dev.mem = s.dev.mem ∧
        (u.dev.host.lateArms.contains slot.val = true ↔ s.dev.armTime slot ≤ s.dev.nowNs)) ∧
    (∀ slot : Fin 4, s.Up → s.dev.flag (F.HIF_ARM_CTRL_enable slot) = true → s.dev.armTime slot ≤ s.dev.nowNs →
      s.dev.host.lateArms.contains slot.val = false →
      Runs (.armSlotFire ⟨BitVec.ofNat 4 (2 ^ slot.val), 0⟩) s (fun d =>
        ((d.put (F.HIF_ARM_CTRL_enable slot) 0).put (F.HIF_ARM_CTRL_fired slot) 1).fireGroups
          (d.get (F.HIF_ARM_CTRL_mask slot)))) ∧
    (∀ (slots : BitVec 4) (strobe : BitVec 8), s.Up → Runs (.armSlotFire ⟨slots, strobe⟩) s (fun d =>
      let due := (List.range 4).filter (fun k =>
        slots.getLsbD k && (d.flag (F.HIF_ARM_CTRL_enable k) && decide (d.armTime k ≤ d.nowNs)))
      let named := if d.busy then 0 else strobe.toNat
      let e := Dev.each due (fun k x => ((x.put (F.HIF_ARM_CTRL_enable k) 0).put (F.HIF_ARM_CTRL_fired k) 1).when
        (d.host.lateArms.contains k) (Dev.put (F.HIF_ARM_CTRL_late k) 1)) d
      let e1 := { e with host := { e.host with lateArms := d.host.lateArms.filter (fun k => !due.contains k) } }
      if due = [] ∧ named = 0 then e1
      else e1.fireGroups ((due.map (fun k => d.get (F.HIF_ARM_CTRL_mask k))).foldl (· ||| ·) named)))) ∧
  (∀ (d : Dev) (a : Nat) (w : Word) (m : Bool) (r : RegRow) (ij : Nat × Nat), Sparse.get? d.shadow a = some (w, m) →
    d.parity.contains (a + 2 ^ 28) = false → a / 0x10000 ≠ 9 → a / 0x10000 ≠ 23 → rowAt a = some (r, ij) →
    r.fields.Pairwise (fun f g => f.lsb + f.width ≤ g.lsb ∨ g.lsb + g.width ≤ f.lsb) →
    (∀ f ∈ r.fields, f.lsb + f.width ≤ 32) →
      Sparse.get? (d.copyShadow a).shadow a = none ∧
      (∀ f ∈ r.fields, bits ((d.copyShadow a).word a) f.lsb f.width =
        if f.upd = .i then bits (d.word a) f.lsb f.width else bits w f.lsb f.width) ∧
      ∀ b, b ≠ a → (d.copyShadow a).word b = d.word b ∧ Sparse.get? (d.copyShadow a).shadow b = Sparse.get? d.shadow b)

/-- The scrubber, the AER registers and a completion timeout (R107, R113): a pass with nothing spoiled counts itself; a
correctable and an uncorrectable error set their AER bit and their event; a ring whose read got no completion is disabled with
HIF_EVENT.cpl. The junction temperature near and above its maximum sets its event bit and raises its fault (R501). -/
def Obligations.HostErrors : Prop :=
  (∀ s : State, s.Up →
    (s.dev.parity = [] → Runs (.scrubPass []) s (fun d =>
      d.put F.HIF_SCRUB_PASS ((d.get F.HIF_SCRUB_PASS + 1) % 2 ^ F.HIF_SCRUB_PASS.width))) ∧
    (∀ n : Fin 32, Runs (.aerError false n) s (fun d =>
      ({ d with host := { d.host with aerCorr := orBit d.host.aerCorr n } }).fault R.HIF_EVENT 1 E.HIF_AER_CORR n)) ∧
    (∀ n : Fin 32, n.val ≠ 14 → Runs (.aerError true n) s (fun d =>
      ({ d with host := { d.host with aer := orBit d.host.aer n } }).fault R.HIF_EVENT 2 E.HIF_AER_UNCORR n)) ∧
    (∀ ring : Fin 16, Runs (.completionTimeout ring) s (fun d =>
      (({ d with host := { d.host with aer := orBit d.host.aer 14 } }).fault R.HIF_EVENT 3 E.HIF_CPL_TIMEOUT (28 + ring.val)).put
        (if ring.val < 8 then F.HIF_RXR_SIZE_enable ring else F.HIF_TXR_SIZE_enable (ring.val - 8)) 0))) ∧
  (∀ s : State, s.Up →
    Runs .thermWarn s (fun d => (d.put ⟨R.TOP_EVENT, 0, 1⟩ 1).raise E.TOP_THERM_WARN 0) ∧
    Runs .thermCrit s (fun d => (d.put ⟨R.TOP_EVENT, 1, 1⟩ 1).raise E.TOP_THERM_CRIT 0))

/-- The messages of a vector (R84, R110, R111): one leaves, with the address and data of its MSI-X table entry, when its level
rises while it is unmasked and no end of interrupt is due; a masked one becomes pending and leaves at the unmask; none leaves again before the end of interrupt, which sends one at once where
the level still is 1. -/
def Obligations.InterruptVectors : Prop :=
  (∀ (s : State) (v : Fin 64),
    (s.Reaches (if v.val < 32 then R.HIF_VEC_EOI_0 else R.HIF_VEC_EOI_1) →
      exec (.vectorEoi v) s = .next ((s.begin.onDev (Dev.endHold R.HIF_VEC_EOI_0)).vectorEoi v).commit) ∧
    (∀ data : Word, s.Up →
      (data.getLsbD 0 = true → ∃ u : State, exec (.vectorUnmask v ⟨3, data⟩) s = .next u.commit ∧
        u.irq.masked.contains v.val = true ∧ u.dev = s.begin.dev ∧ u.irq.pending = s.irq.pending ∧
        u.irq.inService = s.irq.inService) ∧
      (data.getLsbD 0 = false → s.irq.pending.contains v.val = true → s.irq.inService.contains v.val = false →
        ∃ u : State, exec (.vectorUnmask v ⟨3, data⟩) s = .next u.commit ∧ u.dev = s.begin.dev.emit (s.irq.message v) ∧
          u.irq.masked.contains v.val = false ∧ u.irq.pending.contains v.val = false ∧
          u.irq.inService.contains v.val = true) ∧
      (data.getLsbD 0 = false → s.irq.pending.contains v.val = false → exec (.vectorUnmask v ⟨3, data⟩) s = .next
        ({ s.begin with irq := { s.irq with masked := s.irq.masked.filter (· != v.val) } }).commit) ∧
      ∀ k : Fin 4, k.val ≠ 3 → ∃ u : State, exec (.vectorUnmask v ⟨k, data⟩) s = .next u.commit ∧ u.dev = s.begin.dev ∧
        { u.irq with msix := [] } = { s.irq with msix := [] } ∧
        ∀ x, Sparse.getD u.irq.msix x 0 =
          if x = 4 * v + k then (if k.val = 0 then data &&& 0xFFFFFFFC#32 else data) else Sparse.getD s.irq.msix x 0)) ∧
  (∀ (s : State) (v : Nat),
    (s.irq.level.contains v = false → s.irq.pending.contains v = false →
      s.vectorEoi v = { s with irq := { s.irq with inService := s.irq.inService.filter (· != v) } }) ∧
    (s.irq.level.contains v = true → s.irq.masked.contains v = false →
      (s.vectorEoi v).dev = s.dev.emit (s.irq.message v) ∧ (s.vectorEoi v).irq.inService.contains v = true) ∧
    (s.irq.level.contains v = true → s.irq.masked.contains v = true → (s.vectorEoi v).dev = s.dev ∧
      (s.vectorEoi v).irq.pending.contains v = true)) ∧
  (∀ (s : State) (v : Nat), v ∈ s.interrupts.irq.level →
    (v ∉ s.irq.level → v ∉ s.irq.masked → v ∉ s.irq.inService →
      s.irq.message v ∈ s.interrupts.dev.sent ∧ v ∈ s.interrupts.irq.inService) ∧
    (v ∉ s.irq.level → v ∈ s.irq.masked → v ∈ s.interrupts.irq.pending ∧
      s.interrupts.dev.sent.countP (Sent.isMessage v) = s.dev.sent.countP (Sent.isMessage v)) ∧
    (v ∈ s.irq.inService ∨ v ∈ s.irq.level →
      s.interrupts.dev.sent.countP (Sent.isMessage v) = s.dev.sent.countP (Sent.isMessage v)))

/-- INT_N after every command (R112, R443): it is driven low exactly while no EXTEST has the balls and some source at level 1 in
HIF_SRC_LEVEL_0 or _1 is enabled in HIF_INTN_EN_0 or _1, whatever the vectors, the link and the ends of interrupt are. -/
def Obligations.IntNFollowsSources : Prop :=
  ∀ (c : Instr) (s t : State), exec c s = .next t →
    (t.irq.intN = true ↔ t.dev.sec.extest = false ∧ ∃ x, x < 64 ∧
      (if x < 32 then t.dev.bitAt R.HIF_SRC_LEVEL_0 x else t.dev.bitAt R.HIF_SRC_LEVEL_1 (x - 32)) = true ∧
      (if x < 32 then t.dev.bitAt R.HIF_INTN_EN_0 x else t.dev.bitAt R.HIF_INTN_EN_1 (x - 32)) = true)

/-- Whatever command runs, a vector whose message is pending is masked or awaits its end of interrupt (R111). -/
def Obligations.PendingVectorsWait : Prop :=
  ∀ s t : State, (∀ v ∈ s.irq.pending, v ∈ s.irq.masked ∨ v ∈ s.irq.inService) → step s = .next t →
    ∀ v ∈ t.irq.pending, v ∈ t.irq.masked ∨ v ∈ t.irq.inService

/-- Frames at the ports (R22, R121, R122, R138, R168–R170): a segment that arrives on an Ethernet port is taken by the port, one
under PCS loopback takes nothing from its line; a tunnel port takes what its lane's payload holds next, and a frame's symbols give
back its bytes. A first segment on a port that takes frames and receives none is a new frame with its stamp and bytes, which the
port goes on receiving; a further one that still fits the header window joins it. The end of a frame (R121, R170): with a right FCS
and no tag to check it is complete, else it turns bad with reason 0x33. Transmit rings (R114, R218): a tail written gives the
descriptors fetched to the ring that is enabled and ready; a first read of frame bytes from a ring with a descriptor starts the
ring's frame under the descriptor's requests, a further one goes into it; a read with no descriptor, of a ring that is not enabled or in
the time-only state (R468) has nothing to take. -/
def Obligations.FrameArrival : Prop :=
  (∀ (s : State) (p : Fin 64) (seg : Seg), s.Up →
    (s.dev.flag (F.MAC_CFG_pcs_loop p) = false →
      (∀ bits fragments, Runs (.frameReceive p (some (bits, fragments)) seg) s
        (Dev.lineOut (Dev.receiveAt p (s.dev.rxStamp p bits) fragments seg))) ∧
      Runs (.frameReceive p none seg) s (Dev.lineOut (Dev.receiveMore p seg))) ∧
    (s.dev.flag (F.MAC_CFG_pcs_loop p) = true → ∀ start, Runs (.frameReceive p start seg) s (Dev.lineOut id))) ∧
  (∀ (s : State) (n : Fin 16) (bits : Nat) (beyond : Bool), s.Up →
    (∀ seg rest, tunnelSeg (s.dev.current (65 + n)).isSome beyond (s.dev.rope n).rx.stream = some (true, seg, rest) →
      Runs (.tunnelFrameReceive n bits beyond) s (Dev.lineOut (fun d =>
        (d.ropeRx n (fun x => { x with stream := rest })).receiveFirst (65 + n) bits false seg))) ∧
    (∀ seg rest, tunnelSeg (s.dev.current (65 + n)).isSome beyond (s.dev.rope n).rx.stream = some (false, seg, rest) →
      Runs (.tunnelFrameReceive n bits beyond) s (Dev.lineOut (fun d =>
        (d.ropeRx n (fun x => { x with stream := rest })).receiveMore (65 + n) seg))) ∧
    (tunnelSeg (s.dev.current (65 + n)).isSome beyond (s.dev.rope n).rx.stream = none →
      Runs (.tunnelFrameReceive n bits beyond) s (Dev.lineOut (Dev.ropeRx n (fun x => { x with stream := [] }))))) ∧
  (∀ (bs : List Byte) (good beyond : Bool) (rest : List Sym), tunnelSeg false beyond (tunnelSyms bs good ++ rest) =
    some (true, { bytes := bs, last := true, codeErr := !good, overRate := beyond }, rest)) ∧
  (∀ (d : Dev) (p : Nat) (seg : Seg), d.takesFrames p = true → p ≠ 64 → seg.last = false →
    (∀ (rx : Stamp) (fragments : Bool), d.current p = none → seg.bytes.length < 128 → seg.bytes.length ≤ d.maxFrame p →
      (d.receiveAt p rx fragments seg).current p = some d.fwd.nextFrame ∧
      (d.receiveAt p rx fragments seg).frame? d.fwd.nextFrame =
        some { port := p, rx := rx, fragments := fragments, bytes := seg.bytes, hurt := seg.codeErr } ∧
      (d.receiveAt p rx fragments seg).fwd.nextFrame = d.fwd.nextFrame + 1 ∧
      { d.receiveAt p rx fragments seg with fwd := {} } = { d with fwd := {} }) ∧
    (∀ (i : Nat) (f : Frame), d.current p = some i → d.frame? i = some f → f.port = p → f.raw = [] → f.windowed = false →
      f.buf = none → f.bytes.length + seg.bytes.length < 128 → f.bytes.length + seg.bytes.length ≤ d.maxFrame p →
      d.receiveMore p seg =
        d.setFrame i { f with bytes := f.bytes ++ seg.bytes, hurt := f.hurt || seg.codeErr, short := false })) ∧
  (∀ (d : Dev) (i : Nat) (f : Frame) (codeErr beyond : Bool), d.frame i = f → f.port ≠ 64 → f.raw = [] → f.sa = none →
    (codeErr = true ∨ fcsOk f.bytes = false →
      d.finish i codeErr false beyond = (d.countReceived f.port f.bytes false codeErr).endBad i 0x33) ∧
    (codeErr = false → fcsOk f.bytes = true → (d.countReceived f.port f.bytes false false).ptpOf f = none →
      d.finish i codeErr false beyond =
        ((d.countReceived f.port f.bytes false false).setFrame i { f with complete := true, auth := Auth.none }).preemptChecks i)) ∧
  (∀ (s : State) (ring : Fin 8),
    (∀ (tail : BitVec 16) (descs : List Desc), s.Up → s.dev.busy = false →
      Runs (.txRingTail ring tail descs) s (fun d => (d.endHold (R.HIF_TXR_TAIL ring)).ringTail ring tail.toNat descs)) ∧
    (∀ (seg : Seg) (i : Nat) (x : Desc) (l : List Desc), s.Up → Sparse.getD s.dev.host.descs ring.val [] = x :: l →
      s.dev.flag (F.HIF_TXR_SIZE_enable ring) = true → s.dev.timeOnly = false → s.dev.current (ringKey ring) = some i → (s.dev.frame i).windowed = true → seg.last = false →
      9728 ≥ ((s.dev.frame i).bytes ++ seg.bytes).length →
      ((s.dev.setFrame i { s.dev.frame i with bytes := (s.dev.frame i).bytes ++ seg.bytes, short := false }).frame i).overruns = false →
      Runs (.cpuFrameFetched ring seg) s (Dev.lineOut (fun d =>
        (d.setFrame i { s.dev.frame i with bytes := (s.dev.frame i).bytes ++ seg.bytes, short := false }).storeFrame i
          (s.dev.frame i).bytes.length))) ∧
    (∀ (seg : Seg) (x : Desc) (l : List Desc), s.Up → Sparse.getD s.dev.host.descs ring.val [] = x :: l →
      s.dev.flag (F.HIF_TXR_SIZE_enable ring) = true → s.dev.timeOnly = false → s.dev.current (ringKey ring) = none → seg.last = false → seg.bytes.length < 128 → ∃ e : Dev,
      Runs (.cpuFrameFetched ring seg) s (Dev.lineOut (fun _ => e)) ∧ e.current (ringKey ring) = some s.dev.fwd.nextFrame ∧
        e.frame? s.dev.fwd.nextFrame = some { port := 64, cls := ring, ring := ring, rx := s.dev.stampAt s.dev.now
                                              bypass := if x.word.testBit 31 then some (x.word % 128) else none
                                              tsId := x.word / 256 % 65536, tsOp := x.word / 2 ^ 24 % 4, bytes := seg.bytes } ∧
        e.fwd.nextFrame = s.dev.fwd.nextFrame + 1 ∧ { e with fwd := {} } = { s.begin.dev with fwd := {} }) ∧
    (∀ seg : Seg, s.Up → Sparse.getD s.dev.host.descs ring.val [] = [] ∨ s.dev.flag (F.HIF_TXR_SIZE_enable ring) = false ∨
        s.dev.timeOnly = true → Runs (.cpuFrameFetched ring seg) s (Dev.lineOut id)))

/-- The receiver of an Ethernet lane (R123, R124, R126, R130, R134, R139, R464): a signal on a present lane shows and wakes what an
enabled port needs; the CDR of a lane that runs locks; one that loses its lock raises HSL_EVENT.cdr_loss, counts and ends the lane's
alignment; a locked lane whose training has ended gains alignment with its slip, deskew and FEC position, a new epoch and the
realign event; it loses alignment; 1.2 ms later its phase is measured where nothing tests the lane, and valid where its TDC channel has
no fault (R287). -/
def Obligations.LaneReceivers : Prop :=
  ∀ (s : State) (l : Fin 64), s.Up →
    (s.dev.lanePresent l = true → Runs (.signalDetect ⟨l, by omega⟩) s (fun d =>
      let e := d.put (F.HSL_STATUS_signal l) 1
      match e.lanePort l with
      | some p => e.when (e.flag (F.MAC_CFG_enable p)) (fun x => (x.wake (4 + l / 16)).wakeDatapath)
      | none => e)) ∧
    (s.dev.laneRuns l = true → Runs (.cdrLock ⟨l, by omega⟩) s (Dev.put (F.HSL_STATUS_cdr_lock l) 1)) ∧
    (∀ gone, s.dev.flag (F.HSL_STATUS_cdr_lock l) = true → Runs (.cdrLoss ⟨l, by omega⟩ gone) s (fun d =>
      ((((d.put (F.HSL_STATUS_cdr_lock l) 0).fault (R.HSL_EVENT l) 1 E.HSL_CDR_LOSS l).count (laneCtr l 3) 1).alignLoss l).when
        gone (Dev.put (F.HSL_STATUS_signal l) 0))) ∧
    (∀ slip deskew fecPos, s.dev.laneRuns l = true → s.dev.flag (F.HSL_STATUS_cdr_lock l) = true →
      s.dev.flag (F.HSL_STATUS_align_lock l) = false →
      (∀ p, s.dev.lanePort l = some p → s.dev.hasAn p = false ∨ s.dev.get (F.MAC_STATUS_an_state p) = 4) →
      Runs (.alignLock l slip deskew fecPos) s (fun d =>
        let place := match s.dev.lanePort l with
          | some p => if s.dev.get (F.MAC_CFG_fec p) = 0 then 0 else min 5439 fecPos
          | none => 0
        let e := (((d.put (F.HSL_RX_ALIGN_rx_slip l) (min 79 slip)).put (F.HSL_RX_ALIGN_rx_deskew l) (min 4095 deskew)).put
          (F.HSL_RX_ALIGN_rx_fec_pos l) place).put (F.HSL_STATUS_align_lock l) 1
        (((e.wrap (F.HSL_STATUS_align_epoch l) 1).fault (R.HSL_EVENT l) 0 E.HSL_REALIGN l).count (laneCtr l 2) 1).onPort l
          (fun p x => (((x.event (R.MAC_EVENT p) 3).rxResid p).txResid p).faultSync p))) ∧
    (s.dev.flag (F.HSL_STATUS_align_lock l) = true ∨ s.dev.flag (F.HSL_STATUS_phase_valid l) = true →
      Runs (.alignLoss l) s (fun d =>
        let e := d.put (F.HSL_STATUS_align_lock l) 0
        ({ e with lanes := { e.lanes with measured := e.lanes.measured.filter (· != l.val) } }.put (F.HSL_STATUS_phase_valid l) 0).onPort
          l (fun p x => (x.faultSync p).phxEval p))) ∧
    (s.dev.laneRuns l = true → s.dev.flag (F.HSL_STATUS_align_lock l) = true → s.dev.laneTesting l = false →
      (∀ p, s.dev.lanePort l = some p → s.dev.flag (F.MAC_CFG_pcs_loop p) = false) → Runs (.phaseValid l) s (fun d =>
        let e := { d with lanes := { d.lanes with measured := addOnce l.val d.lanes.measured } }
        if s.dev.flag (F.TDC_STATUS_fault l) then e else (e.put (F.HSL_STATUS_phase_valid l) 1).onPort l Dev.phxEval)) ∧
    (∀ (d : Dev) (p : Nat), (d.faultSync p).flag (F.MAC_STATUS_local_fault p) =
      (d.flag (F.MAC_CFG_enable p) && (d.portLanes p).any (fun x => !d.flag (F.HSL_STATUS_align_lock x))))

/-- The link of an Ethernet port (R122, R125, R129, R130, R134, R138, R139, R142): negotiation that resolves to the port's own mode
and FEC goes to training, one that does not fails and waits its break-link time; training ends in negotiation done or fails; the
link comes up where the port may have it; it goes down, with a remote fault shown, unless PCS loopback holds it. A write of MAC_CFG
enables a port, with or without PCS loopback, or disables it at a frame boundary. -/
def Obligations.PortLinks : Prop :=
  ∀ (s : State) (p : Fin 64), s.Up →
    (∀ techs fecAble fecReq, s.dev.hasAn p = true → s.dev.portPresent p = true → s.dev.flag (F.MAC_CFG_enable p) = true →
      s.dev.get (F.MAC_STATUS_an_state p) = 1 → Runs (.anComplete p techs fecAble fecReq) s (fun d =>
        let ability := techs.contains (s.dev.ownTech p)
        let e := (d.put (F.MAC_AN_LP_ability p) (bit ability)).put (F.MAC_AN_LP_fec_req p) fecReq
        if ability = true ∧ (if fecAble then fecReq ≤ s.dev.get (F.MAC_CFG_fec p) else s.dev.get (F.MAC_CFG_fec p) = 0) then e.put (F.MAC_STATUS_an_state p) 3
        else
          let x := (((e.linkDown p).fault (R.MAC_EVENT p) 2 E.MAC_AN_FAIL p)).put (F.MAC_STATUS_an_state p) 0
          { x with lanes := { x.lanes with breakLink := addOnce p x.lanes.breakLink } })) ∧
    (s.dev.lanes.breakLink.contains p.val = true → s.dev.portPresent p = true → s.dev.flag (F.MAC_CFG_enable p) = true →
      Runs (.anBreakLinkTimeout p) s (fun d =>
        ({ d with lanes := { d.lanes with breakLink := d.lanes.breakLink.filter (· != p.val) } }).put
          (F.MAC_STATUS_an_state p) (if d.hasAn p then 1 else 0))) ∧
    (s.dev.get (F.MAC_STATUS_an_state p) = 3 → Runs (.trainingTimeout p) s (fun d =>
      ((d.linkDown p).fault (R.MAC_EVENT p) 2 E.MAC_AN_FAIL p).anStart p)) ∧
    (s.dev.get (F.MAC_STATUS_an_state p) = 3 → Runs (.linkTrainingDone p) s (Dev.put (F.MAC_STATUS_an_state p) 4)) ∧
    (s.dev.flag (F.MAC_STATUS_link p) = false → s.dev.mayLink p = true → Runs (.linkUp p) s (fun d =>
      ((((d.put (F.MAC_STATUS_link p) 1).put (F.MAC_STATUS_remote_fault p) 0).event (R.MAC_EVENT p) 0).put (readyBit p) 1).phxEval
        p)) ∧
    (∀ remote, s.dev.flag (F.MAC_STATUS_link p) = true →
      (s.dev.flag (F.MAC_CFG_pcs_loop p) = false ∨ s.dev.mayLink p = false → Runs (.linkDown ⟨p, remote⟩) s (Dev.lineOut (fun d =>
        let e := d.when (remote && s.dev.portPresent p) (Dev.put (F.MAC_STATUS_remote_fault p) 1)
        (((e.put (F.MAC_STATUS_link p) 0).fault (R.MAC_EVENT p) 1 E.MAC_LINK_DOWN p).portDown p).phxEval p))) ∧
      (s.dev.flag (F.MAC_CFG_pcs_loop p) = true → s.dev.mayLink p = true → Runs (.linkDown ⟨p, remote⟩) s (Dev.lineOut
        (Dev.when (remote && s.dev.portPresent p) (Dev.put (F.MAC_STATUS_remote_fault p) 1))))) ∧
    (∀ data : Word, s.Reaches (R.MAC_CFG p) → data &&& ~~~(namedAt (R.MAC_CFG p)) = 0 → ∃ x : Dev,
      x = ((s.begin.dev.touched (R.MAC_CFG p)).put (F.MAC_CFG_an_en p) (bits data 16 1)).put (F.MAC_CFG_pcs_loop p)
        (bits data 17 1) ∧
      (s.dev.flag (F.MAC_CFG_enable p) = false → data.getLsbD 0 = true → data.getLsbD 17 = false →
        Runs (.portEnable p data) s (fun _ =>
          let e := x.enablePort p
          if e.flag (F.MAC_STATUS_link p) && !e.mayLink p then e.linkDown p else e)) ∧
      (s.dev.flag (F.MAC_CFG_enable p) = false → data.getLsbD 0 = true → data.getLsbD 17 = true →
        Runs (.portEnable p data) s (fun _ =>
          let e := x.enablePort p
          (Dev.each [0, 1, 2] Dev.wake ((Dev.each (e.portLanes p) Dev.phaseLost e).linkUp p)).phxEval p)) ∧
      (s.dev.flag (F.MAC_CFG_enable p) = true → data.getLsbD 0 = false → data.getLsbD 17 = false →
        Runs (.portEnable p data) s (fun _ =>
          let e := if s.dev.midFrame p then { x with lanes := { x.lanes with disableDue := addOnce p x.lanes.disableDue } }
            else x.disablePort p
          if e.flag (F.MAC_STATUS_link p) && !e.mayLink p then e.linkDown p else e)))

/-- The power states of a lane (R132–R134, R462) and its PRBS generator and checker (R135–R137): L1 where the port has link, nothing
to send, no gate that opens soon and the tolerance, and out of it; L2 for a lane that no enabled port uses, and out of it to bring-up
where the time-only state does not hold it (R469); the checker locks,
counts the errors it meets, loses lock; an injected error is asked for, and the generator's next bits carry it once. -/
def Obligations.LanePowerAndPrbs : Prop :=
  (∀ (s : State) (l : Fin 64), s.Up →
    (∀ p, s.dev.lanePort l = some p → s.dev.laneRuns l = true → s.dev.get (F.HSL_STATUS_pwr_state l) = 0 →
      s.dev.portReady p = true → 280 ≤ s.dev.portTol p → s.dev.midFrame p = false → s.dev.waitingOn p = 0 →
      s.dev.opensSoon p = false →
      Runs (.l1Entry l) s (fun d => (d.put (F.HSL_STATUS_pwr_state l) 1).enterState (laneCtr l 0))) ∧
    (s.dev.get (F.HSL_STATUS_pwr_state l) = 1 → Runs (.l1Exit l) s (fun d =>
      (d.leaveState (laneCtr l 0)).put (F.HSL_STATUS_pwr_state l) 0)) ∧
    (s.dev.lanePresent l = true → s.dev.heldInL2 l = true → Runs (.l2Entry l) s (fun d =>
      ((d.setLaneState l 2).put (F.HSL_STATUS_cdr_lock l) 0).alignLoss l)) ∧
    (s.dev.lanePresent l = true → s.dev.heldInL2 l = false → s.dev.timeOnlyLane l = false → s.dev.domainOn (4 + l / 16) = true →
      s.dev.get (F.HSL_STATUS_pwr_state l) = 2 → Runs (.l2Exit l) s (fun d =>
        ((d.leaveState (laneCtr l 1)).put (F.HSL_STATUS_pwr_state l) 0).onPort l Dev.anStart)) ∧
    (∀ errors : Nat,
      let errs := fun (d : Dev) => d.setPair (R.HSL_PRBS_ERR_LO l) (R.HSL_PRBS_ERR_HI l)
        (min (2 ^ 64 - 1) (d.pair (R.HSL_PRBS_ERR_LO l) (R.HSL_PRBS_ERR_HI l) + errors))
      (s.dev.flag (F.HSL_STATUS_prbs_lock l) = false → s.dev.laneRuns l = true → s.dev.flag (F.HSL_PRBS_CTRL_rx_en l) = true →
        Runs (.prbsLock ⟨l, errors⟩) s (Dev.put (F.HSL_STATUS_prbs_lock l) 1)) ∧
      (s.dev.flag (F.HSL_STATUS_prbs_lock l) = true → Runs (.prbsLock ⟨l, errors⟩) s errs ∧
        Runs (.prbsLockLoss l errors) s (fun d => ((errs d).put (F.HSL_STATUS_prbs_lock l) 0).put ⟨R.HSL_EVENT l, 2, 1⟩ 1))) ∧
    (s.Reaches (R.HSL_PRBS_CTRL l) → s.dev.flag (F.HSL_PRBS_CTRL_tx_en l) = true → ∃ (u : State) (e : Dev),
      exec (.prbsInject l) s = .next u.commit ∧ u.dev = e.laneTestSync l ∧ e.get (F.HSL_PRBS_CTRL_inject l) = 1 ∧
        e.lanes = s.dev.lanes)) ∧
  (∀ (d : Dev) (l : Fin 64), d.flag (F.HSL_PRBS_CTRL_tx_en l) = true → d.laneRuns l = true → d.get (F.HSL_CTRL_loopback l) = 0 →
    d.get (F.HSL_PRBS_CTRL_inject_period l) = 0 → (d.prbsEdge l).get (F.HSL_PRBS_CTRL_inject l) = 0 ∧
      Sparse.getD (d.prbsEdge l).lanes.inverted l.val 0 =
        Sparse.getD d.lanes.inverted l.val 0 + d.get (F.HSL_PRBS_CTRL_inject l))

/-- The bring-up of a rope lane (Table RLK-5, R153–R158): a signal is noted, wakes what an enabled lane needs and starts it; its
CDR locks and loses lock with the framing; loss of signal takes it to DOWN; the states' limits take it on: a confirmation that
does not come excludes the next rate and falls back, one that does not come there either ends in DOWN for a while, a step without
the ack goes to RUN, the hold ends, and RUN without hyperframe lock goes to SYNC; a restart goes through DOWN. -/
def Obligations.RopeBringUp : Prop :=
  ∀ (s : State) (n : Fin 16), s.Up →
    Runs (.signalDetect ⟨64 + n, by omega⟩) s (fun d =>
      let e := d.ropeLink n (fun x => { x with signal := true })
      (e.when (e.blockPresent 13 && e.flag (F.RLK_CFG_enable n)) (fun x => (x.wake 8).wakeDatapath)).ropeStart n) ∧
    Runs (.cdrLock ⟨64 + n, by omega⟩) s (Dev.ropeLink n (fun x => { x with cdr := true })) ∧
    (∀ gone, Runs (.cdrLoss ⟨64 + n, by omega⟩ gone) s (fun d =>
      (d.ropeLink n (fun x => { x with cdr := false })).loseFraming n)) ∧
    (s.dev.ropeState n ≠ Rlk.down → Runs (.ropeSignalLoss n) s (fun d =>
      (d.ropeLink n (fun x => { x with signal := false, cdr := false })).ropeEnter n Rlk.down)) ∧
    (s.dev.ropeState n = Rlk.down → Runs (.ropeSignalLoss n) s
      (Dev.ropeLink n (fun x => { x with signal := false, cdr := false }))) ∧
    (s.dev.ropeState n = Rlk.confirm → Runs (.confirmTimeout n) s (fun d =>
      let r := (s.dev.rope n).link.r
      ((((d.ropeLink n (fun x => { x with excluded := orBit x.excluded (r + 1), target := r })).put ⟨R.RLK_EVENT n, 3, 1⟩ 1).ropeRate
        n r).ropeEnter n Rlk.fallback))) ∧
    (s.dev.ropeState n = Rlk.fallback → Runs (.fallbackTimeout n) s (fun d =>
      (d.ropeEnter n Rlk.down).ropeLink n (fun x => { x with held := true }))) ∧
    (s.dev.ropeState n = Rlk.step → Runs (.stepTimeout n) s (fun d =>
      (d.ropeLink n (fun x => { x with target := x.r })).ropeEnter n Rlk.run)) ∧
    (s.dev.ropeState n = Rlk.down → Runs (.downHoldExpiry n) s (fun d =>
      (d.ropeLink n (fun x => { x with held := false })).ropeStart n)) ∧
    (s.dev.ropeState n = Rlk.run → s.dev.flag (F.RLK_STATUS_hf_lock n) = false →
      Runs (.runLockTimeout n) s (fun d => d.ropeEnter n Rlk.sync)) ∧
    (s.Reaches (R.RLK_CTRL n) → Runs (.rlkRestart n) s (fun d =>
      ((d.touched (R.RLK_CTRL n)).ropeEnter n Rlk.down).ropeStart n))

/-- What a rope lane receives and sends (R144–R153, R159–R163): its code groups read back as the symbols they were coded from; a
frame outside DOWN updates code errors, framing, the control words and the elastic buffer, a freeze that waits comes with it, and
hyperframe lock takes SYNC to CAPS; a hyperframe collected whole counts, its words where clean are the partner's and drive the
negotiation, the tunnel, the report and the management channel, and where not raise RLK_EVENT.cw_err; rope frames leave one after
the other, frame 0 with the next hyperframe, each of K28.5, its number, four control octets, K28.0 and the payload; an offset is
measured and a phase jump unfreezes; the buffer freezes after four good hyperframes. The management channel of a rope lane
(R165–R167): a chunk is queued where none waits; a pop takes the oldest received one. -/
def Obligations.RopeTraffic : Prop :=
  (∀ (plus : Bool) (l : List Sym), Sym.invalid ∉ l → decodeGroups plus (encodeSyms plus l).1 = (l, (encodeSyms plus l).2)) ∧
  (∀ (s : State) (n : Fin 16), s.Up →
    (∀ f : RopeFrame, s.dev.ropeState n ≠ Rlk.down → s.dev.ropeSends n = true →
      Runs (.ropeFrameReceive n f) s (fun d =>
        let syms := decodeGroups (s.dev.rope n).rx.plus (invertGroups (s.dev.flag (F.RLK_CFG_rx_invert n)) f.groups)
        let line := (s.dev.rope n).rx.line ++ syms.1
        ((d.sat (F.RLK_CODE_ERR n) (syms.1.count .invalid)).ropeRx n (fun x => { x with plus := syms.2 })).ropeLine n f
          (256 * 2 ^ s.dev.get (F.RLK_STATUS_rate n)) (line.length + 1) line)) ∧
    (∀ bits : Nat, Rlk.caps ≤ s.dev.ropeState n → s.dev.ropeSends n = true → s.dev.flag (F.RLK_STATUS_hf_lock n) = true →
      (s.dev.rope n).rx.next = 240 →
      let x := (s.dev.rope n).rx
      let arrival := x.zero + (s.dev.rxSfd (65 + n) bits - s.dev.rxSfd (65 + n) 0)
      let h : Hyperframe :=
        { words := x.words, clean := !x.badWords, area := x.area, areaClean := !x.badArea, arrival := arrival }
      let taken := fun (number : Nat) (d : Dev) =>
        let e := (d.ropeRx n (fun y => { y with next := 0, words := [], area := [] })).count (ropeCtr n 0) 1
        e.ropeRx n (fun y => { y with hyper := number, arrival := e.stampAt ((arrival : Int) - e.rxDelay (65 + n)).toNat })
      (x.badWords = true ∨ x.words.length ≠ 80 ∨ ropeCrc (x.words.take 76) ≠ octets x.words 76 2 ∨ octet x.words 0 ≠ 1 →
        Runs (.hyperframeReceive n bits) s (fun d =>
          let e := ((taken ((x.hyper + 1) % 256) d).sat (F.RLK_CW_ERR n) 1).fault (R.RLK_EVENT n) 7 E.RLK_CW_ERR n
          (e.ropeLink n (fun y => { y with caps := 0, confirms := 0 })).mgtReceive n h)) ∧
      (x.badWords = false → x.words.length = 80 → ropeCrc (x.words.take 76) = octets x.words 76 2 → octet x.words 0 = 1 →
        Runs (.hyperframeReceive n bits) s (fun d =>
          let e := (((taken (octet x.words 1) d).put (F.RLK_PARTNER_CAP n) (cw x.words 10)).put (F.RLK_PARTNER_ID_HI n)
            (cw x.words 14)).put (F.RLK_PARTNER_ID_LO n) (cw x.words 15)
          let e1 := (e.put (F.RLK_PARTNER_TS n) (cw x.words 4)).ropeRx n (fun y => { y with accepted := x.words })
          (((e1.negotiate n (octet x.words 2) (octet x.words 48) (octet x.words 49)).syncTunnel n).ropeReport n h).mgtReceive n h))) ∧
    (∀ bits frames, Runs (.hyperframeTransmit n ⟨bits, frames⟩) s (fun d =>
      Dev.each (List.range frames) (fun i e => e.sendFrame n (s.dev.txSfd (65 + n) bits + i * 6250 * 65536 / 3)) d)) ∧
    (∀ offset change : Int, s.dev.ropeState n ≠ Rlk.down → s.dev.ropeSends n = true → Runs (.offsetMeasure n offset change) s (fun d =>
        let jump := match (s.dev.rope n).rx.phase with
          | some p => decide (max 20 (min 2000 (s.dev.get F.RLK_JUMP_TH_thresh)) < (change - p).natAbs)
          | none => false
        let e := (d.sput (F.RLK_OFFSET n) offset).put (F.RLK_STATUS_freq_lock n) (bit (decide (offset.natAbs ≤ 100)))
        let e1 := e.ropeRx n (fun y => { y with
          phase := some change
          freq := if decide (offset.natAbs ≤ 100) && !jump && e.flag (F.RLK_STATUS_hf_lock n) then (s.dev.rope n).rx.freq + 1 else 0 })
        if jump then e1.unfreeze n true else e1)) ∧
    (s.dev.ropeState n = Rlk.run → s.dev.flag (F.RLK_STATUS_frozen n) = false → 4 ≤ (s.dev.rope n).rx.freq →
      s.dev.flag (F.RLK_STATUS_hf_lock n) = true →
      Runs (.bufferFreeze n) s (fun d =>
        if (s.dev.rope n).rx.filled then d.ropeRx n (fun y => { y with freezeDue := true }) else d.freeze n))) ∧
  (∀ (d : Dev) (n : Fin 16) (f : RopeFrame) (l : List Sym) (size k : Nat), 0 < size →
    (d.flag (F.RLK_STATUS_frame_lock n) = true →
      (l.length < size → d.ropeLine n f size (k + 1) l = d.ropeRx n (fun x => { x with line := l })) ∧
      (size ≤ l.length → d.ropeLine n f size (k + 1) l = (d.ropeSlots n f (l.take size)).ropeLine n f size k (l.drop size))) ∧
    (d.flag (F.RLK_STATUS_frame_lock n) = false → l ≠ [] → Sym.comma ∉ l →
      d.ropeLine n f size (k + 1) l = (d.ropeRx n (fun x => { x with goodK := 0 })).ropeRx n (fun x => { x with line := [] })) ∧
    (let e := d.framing n l
     let e1 := if (e.rope n).rx.freezeDue = true ∧ e.ropeState n = Rlk.run then e.freeze n else e
     let e2 := if e1.flag (F.RLK_STATUS_frame_lock n) = true then (e1.takeSlots n l).elastic n f l else e1
     d.ropeSlots n f l =
       if e2.ropeState n = Rlk.sync ∧ e2.flag (F.RLK_STATUS_hf_lock n) then e2.ropeEnter n Rlk.caps else e2)) ∧
  (∀ (d : Dev) (n : Fin 16) (t : Nat), d.ropeSends n = true → (d.rope n).tx.runs = true → (d.rope n).tx.frame < 240 →
    let f := (d.rope n).tx.frame
    let e := if f = 0 then d.startHyperframe n t else d.refreshWords n f
    let x := (e.rope n).tx
    let word := if f < 20 then slice x.words (4 * f) 4 else slice x.area (4 * (f - 20)) 4
    let room := 256 * 2 ^ e.get (F.RLK_STATUS_rate n) - 7
    let coded := encodeSyms x.plus ([Sym.comma, .data (BitVec.ofNat 8 f)] ++ word.map Sym.data ++ [.filler] ++ x.stream.take room ++
      List.replicate (room - (x.stream.take room).length) .idle)
    (d.sendFrame n t).sent = e.sent ++ [.rope n (invertGroups (e.flag (F.RLK_CFG_tx_invert n)) coded.1)] ∧
      ((d.sendFrame n t).rope n).tx.plus = coded.2 ∧ ((d.sendFrame n t).rope n).tx.frame = (f + 1) % 240 ∧
      ((d.sendFrame n t).rope n).tx.stream = x.stream.drop room) ∧
  (∀ (s : State) (n : Fin 16),
    (∀ data : Word, s.Reaches (R.RLK_MGT_TX n) → data &&& ~~~(namedAt (R.RLK_MGT_TX n)) = 0 →
      s.dev.flag (F.RLK_MGT_TX_send n) = false → Runs (.mgtSendWrite n data) s (fun d =>
        ((((d.touched (R.RLK_MGT_TX n)).put (F.RLK_MGT_TX_length n) (bits data 0 10)).put (F.RLK_MGT_TX_first n)
          (bits data 14 1)).put (F.RLK_MGT_TX_last n) (bits data 15 1)).put (F.RLK_MGT_TX_send n) (bits data 16 1))) ∧
    (s.Reaches (R.RLK_MGT_RX n) → s.dev.get (F.RLK_MGT_RX_count n) ≠ 0 → Runs (.mgtPop n) s (fun d =>
      ((d.touched (R.RLK_MGT_RX n)).put (F.RLK_MGT_RX_count n) (d.get (F.RLK_MGT_RX_count n) - 1)).put
        (F.RLK_MGT_RX_head n) ((d.get (F.RLK_MGT_RX_head n) + 1) % 4))))

/-- The engines (R182, R185–R190, R197, R200–R209, R502): a dispatcher cycle sends the heads of at most two ports whose target queues
have a place, a different port each, and notes the one it served last; a header goes to the tail of its bucket owner's queue. An engine
takes the head of its queue, resolves it and hands its action over, the header leaving its bucket, its context counting it whatever
becomes of the frame, and a header that waited taking the free place; an engine that holds a header too long drops its frame and
retires. -/
def Obligations.EngineWork : Prop :=
  (∀ (s : State) (k : Fin 8), s.Up →
    (∀ p, s.begin.dev.served k = [p] → Runs (.headerDispatch k) s (fun d =>
      let e := d.dispatchHead p
      { e with fwd := { e.fwd with lastServed := Sparse.put e.fwd.lastServed k.val p } })) ∧
    (∀ p q, s.begin.dev.served k = [p, q] → Runs (.headerDispatch k) s (fun d =>
      let e := (d.dispatchHead (min p q)).dispatchHead (max p q)
      { e with fwd := { e.fwd with lastServed := Sparse.put e.fwd.lastServed k.val q } })) ∧
    (∀ (e : Fin 12) (i : Nat) (rest : List Nat) (errors : List MemErr) (d0 : Dev),
      d0 = s.begin.dev.lookupErrors k e errors → d0.engQueue k e = i :: rest →
      Runs (.engineLookup k e errors) s (fun _ => Dev.lineOut (fun d =>
        let x := (((d.setEngQueue k e rest).count (3888 + 24 * k + 2 * e) 1).enterState (3888 + 24 * k + 2 * e + 1)).leaveState
          (3888 + 24 * k + 2 * e + 1)
        let r := x.resolve (d.frame i)
        let trap := r.2.pdelayTrap (d.frame i)
        let v := if trap then Verdict.send { reason := 0x40, cls := (d.frame i).cls } [64] false none
          else r.2.verdict (d.frame i) r.1
        let y := match (if trap then none else r.2.boundTo r.1) with
          | some n => r.2.ctxIngress n (r.2.parsed (d.frame i))
          | none => r.2
        ((y.when (!(d.frame i).express) (Dev.leaveBucket (portGroup (d.frame i).port) (d.frame i).bucket)).handOver i v).refillQueue
          k e) d0)) ∧
    (∀ (e : Fin 12) (i : Nat) (rest : List Nat), s.dev.engQueue k e = i :: rest → Runs (.engineHang k e) s (fun d =>
      let x := ((d.setEngQueue k e rest).raise E.FWD_ENGINE_HANG (16 * k + e)).when (!(d.frame i).express)
        (Dev.leaveBucket (portGroup (d.frame i).port) (d.frame i).bucket)
      ((if (d.frame i).dropped.isSome then x.forget i else x.dropFrame i 0x11).refillQueue k e).retireStart k e)) ∧
    (∀ (ring : Fin 8) (i : Nat) (rest : List Nat) (f : Frame), Sparse.getD s.dev.host.bypassQ ring.val [] = i :: rest →
      s.dev.frame? i = some f → f.waits = false → s.dev.earlierOf ring i = false → s.dev.flag F.TOP_READY_qsc = true →
      f.bad ≠ chainFailed → f.bypass.getD 127 ≤ 80 → s.dev.portPresent (f.bypass.getD 127) = true →
      Runs (.bypassFrameEnqueue ring) s (fun d =>
        (({ d with host := { d.host with bypassQ := Sparse.put d.host.bypassQ ring.val rest } }).setFrame i { f with
          looked := true, act := some { cls := ring.val }, copies := [{ port := f.bypass.getD 127, queue := ring.val }]
          lastOwner := f.bypass.getD 127 }).createCopies i))) ∧
  (∀ (d : Dev) (k : Nat), (d.served k).length ≤ 2 ∧ (d.served k).Nodup ∧ (∀ p ∈ d.served k, p ∈ clusterPorts k) ∧
    (∀ p l, d.served k = p :: l → d.headReady p = true ∧ ∀ q ∈ l, (d.dispatchHead p).headReady q = true) ∧
    (d.served k = [] ↔ ∀ p ∈ clusterPorts k, d.headReady p = false)) ∧
  (∀ (d : Dev) (p i : Nat) (rest : List Nat), d.headerFifo p = i :: rest → (d.frame i).express = false → (d.frame i).port = p →
    d.headWaits (portGroup p) (d.frame i).bucket = false →
    let x := d.bucket (portGroup p) (d.frame i).bucket
    (d.dispatchHead p).headerFifo p = rest ∧
      (d.dispatchHead p).engQueue x.ownerCl x.owner = d.engQueue x.ownerCl x.owner ++ [i])

/-- Stealing, recall, moves and retirement (R200–R207): the steal units of the clusters that evaluate in one cycle each select the bucket
found for their thief, and of those one for each home cluster commits, the home cluster's own thief first and then the lowest cluster;
a committed steal changes the bucket's owner alone, counts, and restarts the thief's idle count; every bucket's activity halves; a recall
marks every bucket of the cluster moving; a moving bucket with nothing in flight goes to its default owner, or to the least loaded engine
where its owner retires; a retire bit set or cleared starts or ends a retirement, which an engine with no bucket and no header ends. The
retire bits of an engine (R205–R207): set, the engine's retirement starts; cleared, it returns to service. -/
def Obligations.BucketWork : Prop :=
  (∀ s : State, s.Up →
    (∀ (clusters : BitVec 8) (cycles : Nat) (l : List Nat), l = (List.range 8).filter (fun k => clusters.getLsbD k) →
      ∃ e : Dev, e = Dev.each l (fun k d => d.idleCycles k cycles) s.begin.dev ∧
        Runs (.steal clusters cycles) s (fun _ => Dev.each (winners (l.filterMap e.stealEval)) Dev.commitSteal e)) ∧
    (∃ u : State, exec .activityHalving s = .next u.commit ∧ u.dev.csr = s.dev.csr ∧ u.dev.fwd.frames = s.dev.fwd.frames ∧
      ∀ j b, b < 4096 → (s.dev.fwd.buckets.map (·.1)).Nodup →
        u.dev.bucket j b = { s.dev.bucket j b with activity := (s.dev.bucket j b).activity / 2 })) ∧
  (∀ (s : State) (k : Fin 8), s.Up →
    (s.Reaches (R.FWD_STEAL_CFG k) → ∃ (u : State) (e : Dev), exec (.stealRecall k) s = .next u.commit ∧ u.dev = e.recall k ∧
      e.fwd = s.dev.fwd ∧ e.mem = s.dev.mem ∧ u.dev.flag (F.FWD_STEAL_CFG_recall k) = true) ∧
    (∀ bucket : BitVec 12, (s.dev.bucket k bucket.toNat).moving = true → (s.dev.bucket k bucket.toNat).inflight = 0 →
      Runs (.bucketMove k bucket) s (fun d =>
        let owner := if (d.bucket k bucket.toNat).away then d.leastLoaded k else d.homeOwner k bucket.toNat
        ((((d.setBucket k bucket.toNat { d.bucket k bucket.toNat with
          owner := owner, ownerCl := k.val, moving := false, away := false }).releaseWaiting k
            bucket.toNat).syncBorrow).recallEnds k))) ∧
    (∀ e : Fin 12, s.dev.retiringEng k e = true → s.dev.owned k e = [] → s.dev.engQueue k e = [] →
      Runs (.retireDone k e) s (fun d =>
        (({ d with fwd := { d.fwd with retiring := d.fwd.retiring.erase (engineKey k e) } }).put
          ⟨R.FWD_ENG_STATUS k, e, 1⟩ 1).put ⟨R.FWD_EVENT, 1, 1⟩ 1))) ∧
  (∀ (s : State) (k : Fin 8) (e : Fin 12), s.Reaches (R.FWD_ENG_CTRL k) →
    (s.dev.bitAt (R.FWD_ENG_CTRL k) e = false → Runs (.engineRetire k e) s (fun d =>
      (d.touched (R.FWD_ENG_CTRL k)).retireStart k e)) ∧
    (s.dev.bitAt (R.FWD_ENG_CTRL k) e = true → Runs (.engineUnretire k e) s (fun d =>
      (d.touched (R.FWD_ENG_CTRL k)).unretire k e)) ∧
    (s.dev.bitAt (R.FWD_ENG_CTRL k) e = true → Runs (.engineRetire k e) s (Dev.touched (R.FWD_ENG_CTRL k))) ∧
    (s.dev.bitAt (R.FWD_ENG_CTRL k) e = false → Runs (.engineUnretire k e) s (Dev.touched (R.FWD_ENG_CTRL k)))) ∧
  (∀ (d : Dev) (k : Nat) (x : Theft), d.stealEval k = some x →
    x.cluster = k ∧ d.thief k = some x.thief ∧ (d.bucket x.home x.bucket).inflight = 0 ∧ (d.bucket x.home x.bucket).moving = false ∧
      0 < (d.bucket x.home x.bucket).activity) ∧
  (∀ (l : List Theft) (x : Theft), x ∈ winners l → x ∈ l ∧ ∀ y ∈ winners l, y.home = x.home → y = x) ∧
  (∀ (l : List Theft) (x : Theft), x ∈ l → x.home < 8 → ∃ y ∈ winners l, y.home = x.home ∧
    ((∃ z ∈ l, z.home = x.home ∧ z.cluster = x.home) → y.cluster = x.home)) ∧
  (∀ (d : Dev) (x : Theft), x.cluster < 8 → x.home < 8 → x.thief < 12 → x.bucket < 4096 →
    ((d.commitSteal x).bucket x.home x.bucket).owner = x.thief ∧ ((d.commitSteal x).bucket x.home x.bucket).ownerCl = x.cluster ∧
    (d.waitingFor x.home x.bucket = [] → (d.commitSteal x).bucket x.home x.bucket =
      { d.bucket x.home x.bucket with owner := x.thief, ownerCl := x.cluster } ∧ (d.commitSteal x).idleOf x.cluster x.thief = 0))

/-- Retirement refused (R206): the retire bit of the express engine of a cluster, or of its last engine in service, stays at 0,
and FWD_EVENT.retire_refused sets; nothing else changes. A 0 written to a retire bit ends a retirement not yet complete: the engine is
back in service, every bucket stays with the engine that owns it, and one already moving completes its move. -/
def Obligations.RetireRefused : Prop :=
  (∀ (s : State) (k : Fin 8) (e : Fin 12), s.Reaches (R.FWD_ENG_CTRL k) → s.dev.bitAt (R.FWD_ENG_CTRL k) e = true →
    s.dev.retiringEng k e = true →
      ∃ d : Dev, Runs (.engineUnretire k e) s (fun _ => d) ∧ d.bitAt (R.FWD_ENG_CTRL k) e = false ∧ d.retired k e = false ∧
        d.fwd.retiring = s.dev.fwd.retiring.erase (engineKey k e) ∧ d.fwd.buckets = s.dev.fwd.buckets) ∧
  (∀ (s : State) (k : Fin 8) (b : BitVec 12), s.Up → (s.dev.bucket k b.toNat).moving = true →
    (s.dev.bucket k b.toNat).inflight = 0 →
      ∃ d : Dev, Runs (.bucketMove k b) s (fun _ => d) ∧ (d.bucket k b.toNat).moving = false ∧
        (d.bucket k b.toNat).ownerCl = k.val ∧
        (d.bucket k b.toNat).owner = if (s.dev.bucket k b.toNat).away then s.dev.leastLoaded k else s.dev.homeOwner k b.toNat) ∧
  ∀ (s : State) (k : Fin 8) (e : Fin 12), s.Reaches (R.FWD_ENG_CTRL k) → s.dev.bitAt (R.FWD_ENG_CTRL k) e = false →
    (e.val = s.dev.expressEngine k ∨ (s.dev.inService k e = true ∧ ∀ x ∈ s.dev.servants k, x = e.val)) →
      ∃ d : Dev, Runs (.engineRetire k e) s (fun _ => d) ∧ d.bitAt (R.FWD_ENG_CTRL k) e = false ∧ d.bitAt R.FWD_EVENT 2 = true ∧
        d.fwd = s.dev.fwd ∧ d.mem = s.dev.mem ∧ d.raised = s.dev.raised ∧ ∀ a, a ≠ R.FWD_EVENT → d.word a = s.dev.word a

/-- Admission of copies (R183, R232, R235–R237, R254, R56, R407): while the queues take frames and no earlier frame has copies left to
create, the oldest frame handed over is taken up and its copies created, the frames with copies left going on in the next cycles. A copy
that nothing refuses goes to the tail of its queue with its launch time; a copy over its queue's limit is refused, and the others are
dropped with the reason of what stops them. -/
def Obligations.CopyAdmission : Prop :=
  (∀ (s : State) (i : Nat) (rest : List Nat) (f : Frame), s.Up → s.dev.flag F.TOP_READY_qsc = true → s.dev.frame? i = some f →
    (s.dev.bpm.creating = [] → s.dev.bpm.handed = i :: rest → f.bad ≠ chainFailed →
      Runs .copyAdmit s (fun d => ({ d with bpm := { d.bpm with handed := rest } }).createCopies i)) ∧
    (s.dev.bpm.creating ≠ [] → Runs .copyAdmit s id) ∧
    (s.dev.bpm.creating = i :: rest → Runs .multicastCopyCreate s (Dev.createCopies i))) ∧
  (∀ (d : Dev) (i : Nat) (c : CopyRef),
    (d.quiescing (portGroup c.port) = true →
      d.createCopy i c = (d.enqueueAction i).dropCopy i c.port c.queue 0x24 0 false) ∧
    (d.quiescing (portGroup c.port) = false →
      (d.queueLimit c.port c.queue < d.get (F.BPM_QCELLS c.port c.queue) + (d.frame i).cells →
        d.createCopy i c = d.refuse i c.port c.queue) ∧
      (d.get (F.BPM_QCELLS c.port c.queue) + (d.frame i).cells ≤ d.queueLimit c.port c.queue →
        (d.portReady c.port = false →
          d.createCopy i c = (d.enqueueAction i).dropCopy i c.port c.queue (if c.port = 64 then 0x27 else 0x25) 0 false) ∧
        (d.portReady c.port = true → d.standsBy c.port = true →
          d.createCopy i c = (d.enqueueAction i).dropCopy i c.port c.queue 0x38 0 false) ∧
        (d.portReady c.port = true → d.standsBy c.port = false →
          ((∃ t, ((d.frame i).act.getD {}).launch = some t ∧ c.port ≠ 64 ∧ d.get (F.QSC_LAUNCH_horizon c.port) ≠ 0 ∧
              d.timeReady = true ∧ d.now + d.get (F.QSC_LAUNCH_horizon c.port) * 8000 * 65536 < t) →
            d.createCopy i c = (d.enqueueAction i).dropCopy i c.port c.queue 0x31 0 false) ∧
          ((∀ t, ((d.frame i).act.getD {}).launch = some t → c.port = 64 ∨ d.get (F.QSC_LAUNCH_horizon c.port) = 0 ∨
              d.timeReady = false ∨ t ≤ d.now + d.get (F.QSC_LAUNCH_horizon c.port) * 8000 * 65536) →
            ((d.frame i).bad ≠ 0 →
              d.createCopy i c = (d.enqueueAction i).dropCopy i c.port c.queue (d.frame i).bad 0 false) ∧
            ((d.frame i).bad = 0 →
              ∃ x : Copy, (d.createCopy i c).queue c.port c.queue = d.queue c.port c.queue ++ [x] ∧ x.frame = i ∧ x.holder = none ∧
                x.launch = ((d.frame i).act.getD {}).launch))))))

/-- Chaining and the group caches (R220, R222–R225): a frame that overruns its first buffer takes a second one, into which what goes
beyond the first is written, or ends with reason 0x22; outside low mode the caches below 8 handles ask to pop the stack, and the caches
above 12, or any in low mode, to push one of their handles, at most four of those that ask being granted in a cycle, from the one after
the last granted on. A free (R229, R230): of an owned buffer by its owner it is accepted, the handle going back; of a buffer not owned it
is a double free and of another owner's a foreign free, which change no buffer and are captured, counted and raised. The host's free
carries the host mark and sets BPM_EVENT.host_free beside it. -/
def Obligations.BufferPools : Prop :=
  (∀ s : State, s.Up →
    (∀ (port : Fin 81) (i h : Nat) (f : Frame), s.dev.fwd.frames.find? (fun x => x.2.port == port.val && x.2.overruns) = some (i, f) →
      s.dev.frame i = f → f.buf = some h → ∀ (r : Option Nat) (e : Dev),
      s.begin.dev.alloc (portGroup port) (s.dev.buf h).tag (s.dev.spills port f.cls)
        (if s.dev.spills port f.cls then poolsFrom (chainPool (handlePool h) (s.dev.maxFrame port))
          else [chainPool (handlePool h) (s.dev.maxFrame port)]) = (r, e) →
      Runs (.chainAlloc port) s (fun _ => Dev.lineOut (fun _ => match r with
        | some c => Dev.each (f.copies.filter (fun x => x.created && !x.consumed))
            (fun x y => y.addCells x.port x.queue (poolCells (handlePool c)))
            ((((e.setBuf h { e.buf h with chain := some c }).setBuf c { e.buf c with mcast := (e.buf h).mcast }).setFrame i
              { f with chain := some c }).storeFrame i f.room)
        | none => (e.setFrame i { f with short := true }).frameBadAt i 0x22 (some f.room)) e)) ∧
    (∀ (k : Fin 4) (groups : BitVec 8),
      (s.dev.flag (F.BPM_POOL_FREE_low k) = false → Runs (.cacheRefill k groups) s
        (Dev.each (granted (s.dev.pool k).lastPop groups.toNat (fun g => decide (((s.dev.pool k).cache g).length < 8)))
          (Dev.cachePop k))) ∧
      (s.dev.flag (F.BPM_POOL_FREE_low k) = true → Runs (.cacheRefill k groups) s id) ∧
      Runs (.cacheDrain k groups) s (Dev.each (granted (s.dev.pool k).lastPush groups.toNat (fun g =>
        (s.dev.pool k).cache g != [] && (s.dev.flag (F.BPM_POOL_FREE_low k) || decide (12 < ((s.dev.pool k).cache g).length))))
          (Dev.cachePush k)))) ∧
  (∀ (last groups : Nat) (asks : Nat → Bool),
    let l := granted last groups asks
    l.length ≤ 4 ∧ l.Nodup ∧ (∀ g ∈ l, g < 8 ∧ hasBit groups g = true ∧ asks g = true) ∧
      (∀ g < 8, hasBit groups g = true → asks g = true → g ∈ l ∨ l.length = 4) ∧
      (hasBit groups ((last + 1) % 8) = true → asks ((last + 1) % 8) = true → l.head? = some ((last + 1) % 8))) ∧
  (∀ (d : Dev) (k g : Nat),
    (∀ n rest, (d.pool k).pushed = n :: rest → d.cachePop k g = d.setPool k
      { ({ d.pool k with pushed := rest } : Pool).setCache g (n :: (d.pool k).cache g) with lastPop := g }) ∧
    ((d.pool k).pushed = [] → (∃ n, n < (d.pool k).size ∧ n ∉ (d.pool k).taken) →
      ∃ n, n < (d.pool k).size ∧ n ∉ (d.pool k).taken ∧ d.cachePop k g = d.draw.setPool k
        { ({ d.pool k with taken := (d.pool k).taken ++ [n] } : Pool).setCache g (n :: (d.pool k).cache g) with lastPop := g }) ∧
    ((d.pool k).cache g ≠ [] → ∃ n ∈ (d.pool k).cache g, d.cachePush k g = d.draw.setPool k
      { (d.pool k).setCache g (((d.pool k).cache g).erase n) with pushed := n :: (d.pool k).pushed, lastPush := g })) ∧
  (∀ (s : State) (h : BitVec 21) (tag : BitVec 8),
    let freed := fun (host : Bool) (d : Dev) =>
      let b := s.dev.buf h.toNat
      if b.owned = false then d.badFree h.toNat tag.toNat 0 host
      else if b.tag ≠ tag.toNat then d.badFree h.toNat tag.toNat 1 host
      else
        let e := (((d.setBuf h.toNat { owned := false, tag := b.tag }).returnHandle (portGroup (tag.toNat % 128)) h.toNat).count
          (4096 + 4 * handlePool h.toNat + 1) 1).when (b.tag == 0xFF) (Dev.endQuarantine h.toNat)
        match b.chain with
        | none => e
        | some c =>
          if (e.buf c).owned then ((e.setBuf c { owned := false, tag := (e.buf c).tag }).returnHandle
            (portGroup (tag.toNat % 128)) c).count (4096 + 4 * handlePool c + 1) 1
          else e.badFree c tag.toNat 0 host
    (s.Up → Runs (.bufferFree h tag) s (freed false)) ∧
    (s.Reaches R.BPM_HOST_FREE → Runs (.hostFree h tag) s (fun d =>
      (freed true (((d.touched R.BPM_HOST_FREE).put F.BPM_HOST_FREE_handle h.toNat).put F.BPM_HOST_FREE_tag tag.toNat)).event
        R.BPM_EVENT 6)) ∧
    (∀ (d : Dev) (n t kind : Nat) (host : Bool), kind < 2 →
      (d.badFree n t kind host).bpm = d.bpm ∧ (d.badFree n t kind host).get F.BPM_BAD_FREE_kind = kind ∧
        (d.badFree n t kind host).get F.BPM_BAD_FREE_CNT = satAdd 32 (d.get F.BPM_BAD_FREE_CNT) 1 ∧
        (d.badFree n t kind host).flag ⟨R.BPM_EVENT, kind, 1⟩ = true ∧
        (d.badFree n t kind host).raised = d.raised ++ [⟨E.BPM_DOUBLE_FREE + kind, n⟩]))

/-- Transmission (R233, R242, R243, R255–R258, R313, R419): at a frame boundary of a ready port with nothing in transmission and no
report or announce that waits a turn whose queue is no longer eligible has ended and the scheduler's queue sends its head, and with none
eligible a preempted copy resumes; the earliest timed head of a port starts once its first bit would lie within the limit of Table QSC-3
of its launch time and it can start, waits before that, and is late if its first bit would lie past the limit or it cannot start as its
time comes, an express queue it bares preempting; the last byte of a copy whose whole good frame has arrived sends it with its FCS, settles its debit, gives its delay sample
and consumes it. A write of QSC_FLUSH_p discards every copy of the queues named that is not in transmission, with reason 0x26 (R244). -/
def Obligations.Transmission : Prop :=
  (∀ (s : State) (p : Fin 81), s.Up →
    (∀ bits ecc q, (s.dev.phxOf p).due = none → Sparse.get? s.dev.belay.annDue p.val = none → s.dev.sendingOn p = none →
      s.dev.portReady p = true → s.dev.flag F.TOP_READY_qsc = true → s.dev.standsBy p = false →
      (∀ r < 8, ∀ c l, s.dev.queue p r = c :: l → s.dev.isLate p c = false ∧ s.dev.fitsNever p r c = false) →
      s.dev.pickStrict p = some q → Runs (.copyTransmit p bits ecc) s (Dev.lineOut (fun d =>
        (d.endTurn p (fun r => d.eligible p r)).launchHead p q bits ecc))) ∧
    (∀ bits ecc x, (s.dev.phxOf p).due = none → Sparse.get? s.dev.belay.annDue p.val = none → s.dev.sendingOn p = none →
      s.dev.portReady p = true → s.dev.flag F.TOP_READY_qsc = true → s.dev.standsBy p = false → (∀ r < 8, s.dev.queue p r = []) →
      s.dev.mayResume p = some x → Runs (.copyTransmit p bits ecc) s (Dev.lineOut (fun d =>
        ((d.endTurn p (fun r => d.eligible p r)).setSuspended p none).setSending p (some x)))) ∧
    (∀ bits ecc, s.dev.standsBy p = false → (∀ r < 8, s.dev.queue p r = []) → Runs (.timedLaunch p ⟨bits, ecc⟩) s (Dev.lineOut id)) ∧
    (∀ bits ecc t q c rest first, first = s.dev.firstBit p bits → s.dev.standsBy p = false →
      (∀ r < 8, ∀ c l, s.dev.queue p r = c :: l → s.dev.isLate p c = false ∧ s.dev.fitsNever p r c = false) →
      s.dev.timedPick p = some (t, q) → s.dev.queue p q = c :: rest →
      (first + s.dev.launchEarly p < t → Runs (.timedLaunch p ⟨bits, ecc⟩) s (Dev.lineOut (Dev.preemptCheck p))) ∧
      (t ≤ first + s.dev.launchEarly p → t + s.dev.launchLimit p < first →
        Runs (.timedLaunch p ⟨bits, ecc⟩) s (Dev.lineOut (fun d => (d.lateHead p q).preemptCheck p))) ∧
      (t ≤ first + s.dev.launchEarly p → first ≤ t + s.dev.launchLimit p → s.dev.sendingOn p = none →
        (s.dev.portReady p = true → s.dev.arrived c = true → hasBit (s.dev.gateMask p) q = true → s.dev.guardOk p q c = true →
          (s.dev.preemptable p q && (s.dev.qsc.heldMac.contains p.val || (Sparse.get? s.dev.qsc.suspended p.val).isSome)) = false →
          Runs (.timedLaunch p ⟨bits, ecc⟩) s (Dev.lineOut (fun d => (d.leaveL1 p).launchHead p q bits ecc))) ∧
        (hasBit (s.dev.gateMask p) q = false ∨ s.dev.portReady p = false → first < t →
          Runs (.timedLaunch p ⟨bits, ecc⟩) s (Dev.lineOut (Dev.preemptCheck p))) ∧
        (hasBit (s.dev.gateMask p) q = false ∨ s.dev.portReady p = false → t ≤ first →
          Runs (.timedLaunch p ⟨bits, ecc⟩) s (Dev.lineOut (fun d => (d.lateHead p q).preemptCheck p))))) ∧
    (∀ x descs, s.dev.sendingOn p = some x → x.copy.holder = none → (s.dev.frame x.copy.frame).complete = true →
      (s.dev.frame x.copy.frame).bad = 0 → Runs (.copyTransmitDone ⟨p, descs⟩) s (Dev.lineOut (fun d =>
        let f := s.dev.frame x.copy.frame
        let out := d.wireBytes p x true none ++ fcs (d.wireBytes p x true none)
        let e := if p.val = 64 then (d.setSending p none).deliver x.queue descs f out else (d.setSending p none).sendOut p out
        let e1 := ((e.settleDebit p x f.bytes.length).countSent p x.queue out.length).delaySample f x.tx
        (e1.candidate (frameCandidate f p x.queue (if x.copy.late then 3 else 0) 0 x.copy.cells x.tx)).consumeCopy
          x.copy.frame p true true))) ∧
    (∀ x bs descs, s.dev.sendingOn p = some x → x.copy.holder = some bs → Runs (.copyTransmitDone ⟨p, descs⟩) s (Dev.lineOut (fun d =>
        let body := d.wireBytes p x true none
        (((d.setSending p none).sendOut p (body ++ fcs body)).countSent p x.queue (body.length + 4)).candidate
          (holderCandidate p x.queue 4 0 x.copy.flow x.tx bs))))) ∧
  (∀ (s : State) (p : Fin 81) (queues : BitVec 8), s.Reaches (R.QSC_FLUSH p) →
    Runs (.queueFlush p queues) s (fun d =>
      Dev.each ((List.range 8).filter (fun q => queues.getLsbD q)) (fun q e => e.flushQueue p q 0x26) (d.touched (R.QSC_FLUSH p)))) ∧
  (∀ (d : Dev) (p : Nat) (x : Sending) (len : Nat),
    (d.settleDebit p x len).deficit p x.queue = d.deficit p x.queue + (if x.debit = 0 then 0 else (x.debit : Int) - len))

/-- Gate lists and preemption (R246, R247, R250–R252, R266): the entry of the operational list in force at this instant of the time
base takes effect with its gate states and its hold or release, and no other does; a pending list becomes operational under the valid
time base once its first cycle start has come, its entry then in force with it; the verify procedure ends succeeded or failed. The first
cycle start of a list is the first of base + n × cycle, n any integer, at or after the instant. The stream keeper (R259, R261–R263): a
visit to a running flow that may run, whose due time plus grace has passed and whose fill count is below its limit, sends its placeholder
on the watched queue, brings the due time forward, counts it and, from running, goes to filling with its event; at the limit the flow
ramps down; the keeper goes on to the next flow. -/
def Obligations.GatesAndStreams : Prop :=
  (∀ (s : State) (p : Fin 81), s.Up →
    (∀ (entry : Fin 256) g, s.dev.runningList p = some g → s.dev.entryNow p g = some entry.val →
      ∃ e : Dev, e.qsc = { s.dev.qsc with
          oper := Sparse.put s.dev.qsc.oper p.val { g with held := false }
          gates := Sparse.put s.dev.qsc.gates p.val (s.dev.gateStates p g.bank entry)
          heldMac := if s.dev.gateOp p g.bank entry = 1 then addOnce p.val s.dev.qsc.heldMac
            else if s.dev.gateOp p g.bank entry = 2 then s.dev.qsc.heldMac.filter (· != p.val) else s.dev.qsc.heldMac } ∧
        e.get (F.QSC_GCL_STATUS_entry p) = entry.val ∧ e.mem = s.dev.mem ∧ e.raised = s.dev.raised ∧
        Runs (.gateEntry p entry) s (fun _ =>
          ((e.turnSync p).when (s.dev.gateOp p g.bank entry == 1 || (match s.dev.sendingOn p with
            | some x => !hasBit (s.dev.gateStates p g.bank entry) x.queue | none => false)) (Dev.preempt p)).preemptCheck p)) ∧
    (∀ (entry : Fin 256), (∀ g, s.dev.runningList p = some g → s.dev.entryNow p g ≠ some entry.val) →
      Runs (.gateEntry p entry) s id) ∧
    (∀ g, Sparse.get? s.dev.qsc.pend p.val = some g → s.dev.timeReady = true → g.due ≤ s.dev.nowNs → Runs (.gclSwitch p) s (fun d =>
      ((((({ d with qsc := { d.qsc with oper := Sparse.put d.qsc.oper p.val g, pend := Sparse.del d.qsc.pend p.val } }).put
        (F.QSC_GCL_STATUS_pending p) 0).put (F.QSC_GCL_STATUS_running p) 1).put (F.QSC_GCL_STATUS_oper_bank p) g.bank).event
          (R.QSC_EVENT p) 2).gateEntry p ((s.dev.entryNow p g).getD 0))) ∧
    (∀ ok, p.val < 64 → s.dev.flag (F.QSC_PREEMPT_enable p) = true → s.dev.flag (F.QSC_PREEMPT_verify_dis p) = false →
      s.dev.portReady p = true → ∃ u : State, exec (.preemptVerify p ok) s = .next u.commit ∧
        u.dev.get (F.QSC_PREEMPT_verify_state p) = (if ok then 2 else 3) ∧ u.dev.flag (F.QSC_PREEMPT_active p) = ok ∧
        u.dev.flag ⟨R.QSC_EVENT p, 4, 1⟩ = (s.dev.flag ⟨R.QSC_EVENT p, 4, 1⟩ || !ok) ∧ u.dev.qsc = s.dev.qsc ∧
        u.dev.mem = s.dev.mem ∧ u.dev.raised = s.dev.raised)) ∧
  (∀ base cycle now : Nat, 0 < cycle → now ≤ cycleStart base cycle now ∧ cycleStart base cycle now < now + cycle ∧
    ((cycleStart base cycle now : Int) - base) % cycle = 0) ∧
  (∀ s : State, s.Up → s.dev.flag F.TOP_READY_qsc = false → Runs .streamKeeperVisit s id) ∧
  (∀ (s : State) (n : Nat), s.Up → s.dev.flag F.TOP_READY_qsc = true → n = s.dev.qsc.skVisit % 4096 → s.dev.skMayRun n = true →
    s.dev.skState n = Sk.running ∨ s.dev.skState n = Sk.filling →
    (∀ bs launch, field (s.dev.flowWord n 6) 0 16 < field (s.dev.flowWord n 2) 16 16 →
      s.dev.skDue n + 16 * field (s.dev.flowWord n 2) 0 16 ≤ s.dev.skNow → s.dev.placeholder n = some bs →
      launch = (if s.dev.flowWord n 3 = 0 then none else some (s.dev.skLaunch (s.dev.skDue n + s.dev.flowWord n 3))) →
      s.dev.beyondHorizon (field (s.dev.flowWord n 0) 0 7) launch = false →
      s.dev.standsBy (field (s.dev.flowWord n 0) 0 7) = false →
      ∃ e : Dev, exec .streamKeeperVisit s = .next (s.begin.onDev (fun _ =>
          { e with qsc := { e.qsc with skVisit := (n + 1) % 4096 } })).commit ∧
        (∃ c : Copy, c.holder = some bs ∧ c.flow = n ∧ c.launch = launch ∧
          e.queue (field (s.dev.flowWord n 0) 0 7) (field (s.dev.flowWord n 0) 8 3) =
            s.dev.queue (field (s.dev.flowWord n 0) 0 7) (field (s.dev.flowWord n 0) 8 3) ++ [c]) ∧
        e.skState n = Sk.filling ∧ field (e.flowWord n 6) 0 16 = field (s.dev.flowWord n 6) 0 16 + 1 ∧
        e.skDue n = (s.dev.skDue n + max 16 (s.dev.flowWord n 1)) % (2 ^ 32 * 1000000000 * 16) ∧
        e.flowWord n 7 = min (2 ^ 32 - 1) (s.dev.flowWord n 7 + 1) ∧
        (s.dev.skState n = Sk.running → e.bitAt R.QSC_SK_EVENT 0 = true ∧ e.get F.QSC_SK_LAST = n)) ∧
    (field (s.dev.flowWord n 2) 16 16 ≤ field (s.dev.flowWord n 6) 0 16 → s.dev.skDue n ≤ s.dev.skNow →
      Runs .streamKeeperVisit s (fun d =>
        let e := ((d.setSkState n Sk.ramped).fault R.QSC_SK_EVENT 1 E.QSC_SK_EXHAUSTED n).put F.QSC_SK_LAST n
        { e with qsc := { e.qsc with skVisit := (n + 1) % 4096 } })))

/-- The time base as the host sees and sets it (R272–R276, R299): a snapshot holds the whole time of day and the epoch; an
adjustment that nothing refuses sets the time base, adds to it as a step, or begins a slew, one of nothing ending at once, and a refused
one raises TBS_EVENT.adj_refused; every step raises the epoch and its event and moves the TDC's instants with it; the edge that completes
a slew adds its last part, no more than one edge's share, and before that edge the slew goes on; a pop removes the oldest transmit stamp. An edge of the time clock at the time base (R268): while it counts and no slew runs, one
period under the feed-forward value is added, with no feed-forward exactly 625 × 2^40 units; while it does not count it stands. -/
def Obligations.TimeBaseSet : Prop :=
  (∀ s : State,
    (s.Reaches R.TBS_SNAP → ∃ u : State, exec .tbsSnap s = .next u.commit ∧
      u.dev.get F.TBS_SNAP_FRAC = fracOf s.dev.now ∧ u.dev.get F.TBS_SNAP_NS = nsOf s.dev.now ∧
      u.dev.get F.TBS_SNAP_SEC_LO = secOf s.dev.now % 2 ^ 32 ∧ u.dev.get F.TBS_SNAP_SEC_HI_sec = secOf s.dev.now / 2 ^ 32 % 2 ^ 16 ∧
      u.dev.get F.TBS_SNAP_SEC_HI_epoch = s.dev.get F.TBS_STATUS_epoch ∧ u.dev.tbs = s.dev.tbs ∧ u.dev.mem = s.dev.mem ∧
      ∀ a, (a < R.TBS_SNAP ∨ R.TBS_SNAP_SEC_HI < a) → u.dev.word a = s.dev.word a) ∧
    (s.Up → s.dev.blockPresent 6 = true →
      (s.dev.adjRefused 1 = false → Runs .tbsSet s (fun d => (d.stepTime d.adjUnits).put F.TBS_ADJ_CTRL_op 0)) ∧
      (s.dev.adjRefused 2 = false → Runs .tbsAdd s (fun d =>
        (d.stepTime ((d.tbs.tb : Int) + d.adjSigned).toNat).put F.TBS_ADJ_CTRL_op 0)) ∧
      (s.dev.adjRefused 3 = false → s.dev.adjSigned ≠ 0 → Runs .tbsSlew s (fun d =>
        ((({ d with tbs := { d.tbs with slewAcc := 0 } }).setSlew d.adjSigned).put F.TBS_STATUS_slewing 1).put
          F.TBS_ADJ_CTRL_op 0)) ∧
      (s.dev.adjRefused 3 = false → s.dev.adjSigned = 0 → Runs .tbsSlew s (fun d =>
        ((((({ d with tbs := { d.tbs with slewAcc := 0 } }).setSlew 0).setSlew 0).event R.TBS_EVENT 1).put F.TBS_STATUS_slewing
          0).put F.TBS_ADJ_CTRL_op 0)) ∧
      (∀ c ∈ [(Instr.tbsSet, 1), (.tbsAdd, 2), (.tbsSlew, 3)], s.dev.adjRefused c.2 = true → Runs c.1 s (fun d =>
        (d.fault R.TBS_EVENT 2 E.TBS_ADJ_REFUSED 0).put F.TBS_ADJ_CTRL_op 0))) ∧
    (s.Up → s.dev.flag F.TBS_STATUS_slewing = true →
      (s.dev.tbs.slew.natAbs * 1600000 ≤ s.dev.slewPart → Runs .slewDone s (fun d =>
        ((((d.setTb ((d.tbs.tb : Int) + d.tbs.slew).toNat).moveApart d.tbs.slew).setSlew 0).event R.TBS_EVENT 1).put
          F.TBS_STATUS_slewing 0)) ∧
      (s.dev.slewPart < s.dev.tbs.slew.natAbs * 1600000 → Runs .slewDone s id)) ∧
    (∀ (e : TxStamp) (rest : List TxStamp), s.Reaches R.TBS_TXQ_POP → s.dev.tbs.txq = e :: rest →
      Runs .txStampPop s (fun d =>
        let x := d.touched R.TBS_TXQ_POP
        let y := { x with tbs := { x.tbs with txq := rest } }
        (y.when (e.port != 64) (fun z => z.put (F.TBS_TXQ_QUOTA_used e.port) (z.get (F.TBS_TXQ_QUOTA_used e.port) - 1))).syncTxq)) ∧
    (∀ (d : Dev) (v : Nat), (d.stepTime v).tbs.tb = v % timeWrap ∧
      (d.stepTime v).get F.TBS_STATUS_epoch = (d.get F.TBS_STATUS_epoch + 1) % 256 ∧
      (d.stepTime v).flag ⟨R.TBS_EVENT, 0, 1⟩ = true ∧ (d.stepTime v).raised = d.raised ++ [⟨E.TBS_STEP, 0⟩] ∧
      ∀ c, ((d.stepTime v).tdcOf c).last = (d.tdcOf c).last.map (fun t =>
        ((t : Int) + ((v : Int) - d.tbs.tb).tdiv (unitsPerNs / 65536)).toNat))) ∧
  (∀ d : Dev,
    (d.flag F.TBS_STATUS_counting = true → d.flag F.TBS_STATUS_slewing = false →
      d.timeEdge.tbs.tb = (d.tbs.tb + d.increment) % timeWrap ∧ d.timeEdge.mem = d.mem ∧ d.timeEdge.raised = d.raised) ∧
    (d.flag F.TBS_STATUS_counting = false → d.timeEdge.tbs.tb = d.tbs.tb) ∧
    (d.sget F.TBS_FF = 0 → d.increment = 625 * 2 ^ 40))

/-- The TDC channels (R66, R278–R287): a measured edge writes the channel's result and the place of the edge on the time clock, an edge
too near the last is skipped and counted; a calibration pair near the trimmed nominals is kept, a third failure in a row faults the
channel; a trim request starts the named channels; a trim run selects the 32 cells and 27 steps whose values lie nearest the medians, and
of its pairs of runs one that agrees is applied and the fourth that disagrees faults the channel; the reference that the channel's lane
carries is evaluated after each. A TDC result (R282): the time of the event, its epoch, its validity, which the readiness of both the time
base and the TDC gives, and the result count; only the channel's own registers and state change. -/
def Obligations.TdcChannels : Prop :=
  (∀ s : State,
    (∀ (c : Fin 80) (cm t : Nat), s.Up → s.dev.tdcAccepts c cm = (some t, false) →
      Runs (.tdcPeriodicMeasure c cm) s (fun d =>
        (d.tdcResult c t).setTdc c { (d.tdcResult c t).tdcOf c with onEdges := some (d.edgeTime c cm) })) ∧
    (∀ (c : Fin 80) (cm : Nat), s.Up → s.dev.tdcAccepts c cm = (none, true) →
      Runs (.tdcPeriodicMeasure c cm) s (fun d => d.sat (F.TDC_SKIP_CNT c) 1)) ∧
    (∀ (c : Fin 92) (cm t : Nat), s.Up → s.dev.tdcAccepts c cm = (some t, false) → Runs (.tdcMeasure c cm) s (fun d =>
      let e := (d.tdcResult c t).setTdc c { (d.tdcResult c t).tdcOf c with onEdges := some (d.edgeTime c cm) }
      let e1 := ((e.when (decide (80 ≤ c.val) && e.tdcMode c == 3) (Dev.put (F.TDC_CFG_mode c) 0)).when (decide (88 ≤ c.val))
        (Dev.tdcEvent 3 c)).calSample c t
      if 80 ≤ c.val ∧ c.val < 88 then (e1.refPulse (c - 80) t).outPulse (c - 80) t else e1)) ∧
    (∀ (c : Fin 92) (cm : Nat), s.Up → s.dev.tdcAccepts c cm = (none, true) →
      Runs (.tdcMeasure c cm) s (fun d => d.sat (F.TDC_SKIP_CNT c) 1)) ∧
    (∀ (c : Fin 92) (c1 c2 : Nat), s.Up → s.dev.flag (F.TDC_STATUS_fault c) = false → s.dev.tdcPresent c = true →
      s.dev.tdcPowered c = true → c1 < 2 ^ 12 → c2 < 2 ^ 12 →
      (c1 ≤ s.dev.get (F.TDC_TRIM_c1_nom c) + 3 ∧ s.dev.get (F.TDC_TRIM_c1_nom c) ≤ c1 + 3 ∧
        c2 ≤ s.dev.get (F.TDC_TRIM_c2_nom c) + 3 ∧ s.dev.get (F.TDC_TRIM_c2_nom c) ≤ c2 + 3 →
        Runs (.tdcCalPair c c1 c2) s (Dev.onChannel c (fun d =>
          (((d.put (F.TDC_CAL_c1 c) c1).put (F.TDC_CAL_c2 c) c2).put (F.TDC_STATUS_fails c)
            0).setTdc c { d.tdcOf c with c1 := c1, c2 := c2, paired := true }))) ∧
      (s.dev.get (F.TDC_TRIM_c1_nom c) + 3 < c1 ∨ c1 + 3 < s.dev.get (F.TDC_TRIM_c1_nom c) ∨
          s.dev.get (F.TDC_TRIM_c2_nom c) + 3 < c2 ∨ c2 + 3 < s.dev.get (F.TDC_TRIM_c2_nom c) →
        Runs (.tdcCalPair c c1 c2) s (Dev.onChannel c (fun d =>
          ((((((d.put (F.TDC_CAL_c1 c) c1).put (F.TDC_CAL_c2 c) c2).sat (F.TDC_RETRY_CNT c)
            1).put (F.TDC_STATUS_fails c) (d.get (F.TDC_STATUS_fails c) + 1)).setTdc c { d.tdcOf c with retried := true }).when
              (decide (2 ≤ d.get (F.TDC_STATUS_fails c))) (Dev.tdcFault c)))))) ∧
    (∀ (i : Fin 3) (w : Word), s.Reaches (R.TDC_TRIM_REQ i) → w &&& ~~~(namedAt (R.TDC_TRIM_REQ i)) = 0 →
      Runs (.tdcTrimRequest i w) s (fun d => (d.touched (R.TDC_TRIM_REQ i)).trimRequest i w)) ∧
    (∀ (c : Fin 92) (q : Trim) (a r : TrimResult), s.Up → s.dev.flag (F.TDC_STATUS_trimming c) = true →
      s.dev.tdcPowered c = true → r = trimResult q →
      ((s.dev.tdcOf c).run1 = none →
        Runs (.tdcTrimRun c q) s (Dev.onChannel c (fun d => d.setTdc c { d.tdcOf c with run1 := some r }))) ∧
      ((s.dev.tdcOf c).run1 = some a → a.cells = r.cells → a.steps = r.steps → near2 a.c1 r.c1 = true → near2 a.c2 r.c2 = true →
        ∃ e : Dev, Runs (.tdcTrimRun c q) s (Dev.onChannel c (fun _ => e.tdcReady)) ∧ e.flag (F.TDC_STATUS_trimmed c) = true ∧
          e.flag (F.TDC_STATUS_trimming c) = false ∧ e.flag (F.TDC_STATUS_fault c) = false ∧
          e.get (F.TDC_TRIM_c1_nom c) = r.c1 % 2 ^ 12 ∧ e.get (F.TDC_TRIM_c2_nom c) = r.c2 % 2 ^ 12 ∧
          e.get (F.TDC_TRIM_CM_LO c) = r.cells % 2 ^ 32 ∧ e.get (F.TDC_TRIM_VM c) = r.steps % 2 ^ 30 ∧
          e.get (F.TDC_STATUS_trim_epoch c) = (s.dev.get (F.TDC_STATUS_trim_epoch c) + 1) % 256 ∧
          e.flag ⟨R.TDC_EVENT, 1, 1⟩ = true ∧ e.raised = s.dev.raised) ∧
      ((s.dev.tdcOf c).run1 = some a → a.agrees r = false → (s.dev.tdcOf c).pairs < 3 →
        Runs (.tdcTrimRun c q) s (Dev.onChannel c (fun d =>
          d.setTdc c { d.tdcOf c with run1 := none, pairs := (d.tdcOf c).pairs + 1 }))) ∧
      ((s.dev.tdcOf c).run1 = some a → a.agrees r = false → (s.dev.tdcOf c).pairs = 3 →
        Runs (.tdcTrimRun c q) s (Dev.onChannel c (fun d =>
          ((((d.setTdc c { d.tdcOf c with run1 := none, pairs := 0 }).trimEnds c).tdcEvent 2 c).raise E.TDC_TRIM_FAIL c).tdcFault
            c))))) ∧
  (∀ (n : Nat) (l : List Nat),
    let m := nthD l.mergeSort ((l.length - 1) / 2) 0 + nthD l.mergeSort (l.length / 2) 0
    (nearestMedian n l).length = min n l.length ∧ (∀ i ∈ nearestMedian n l, i < l.length) ∧ (nearestMedian n l).Pairwise (· < ·) ∧
      ∀ i ∈ nearestMedian n l, ∀ j < l.length, j ∉ nearestMedian n l →
        (2 * (nthD l i 0 : Int) - m).natAbs ≤ (2 * (nthD l j 0 : Int) - m).natAbs) ∧
  (∀ (d : Dev) (c : Fin 92) (t : Nat),
    (d.tdcResult c t).get (F.TDC_RES_LO_frac c) = fracOf t ∧ (d.tdcResult c t).get (F.TDC_RES_LO_sec c) = secOf t % 256 ∧
    (d.tdcResult c t).get (F.TDC_RES_HI_ns c) = nsOf t ∧
    (d.tdcResult c t).get (F.TDC_RES_LO_epoch c) = d.get F.TBS_STATUS_epoch ∧
    (d.tdcResult c t).flag (F.TDC_RES_HI_valid c) = (d.timeReady && d.flag F.TOP_READY_tdc) ∧
    (d.tdcResult c t).flag (F.TDC_RES_HI_retried c) = (d.tdcOf c).retried ∧
    (d.tdcResult c t).get (F.TDC_RES_CNT c) = (d.get (F.TDC_RES_CNT c) + 1) % 2 ^ 32 ∧
    (∀ a, a ≠ R.TDC_RES_LO c → a ≠ R.TDC_RES_HI c → a ≠ R.TDC_RES_CNT c → (d.tdcResult c t).word a = d.word a) ∧
    { d.tdcResult c t with csr := d.csr, tdc := d.tdc } = d ∧
    (∀ k, k ≠ c.val → (d.tdcResult c t).tdcOf k = d.tdcOf k))

/-- Phase transfer (R133, R308–R315): a sample on a link that acquires takes the grid boundary's arrival from the lane's last TDC
result, unwrapped and with a step compensated, and reports delay and offset once there are RTT samples; a report due wakes its lanes and
leaves at once with its stamp where the port stands at a boundary with a gap for it, and waits where a copy is in transmission; a good
report, as its port's MACsec opens it, is accepted, one of another version is counted and left, one the policy drops is none; an
ambiguous one leaves what the link knows of its partner; a TRACK link without reports goes STALE and loses its offset. Calibration of a
link against an external pulse (R322, R323): it starts on a TRACK link with a channel in event mode, is refused with reason 3 while one
runs, 1 on another link and 2 with another channel, and ends with the mean error and the constant that takes it away, or fails for too few samples. -/
def Obligations.PhaseTransfer : Prop :=
  (∀ s : State, s.Up →
    (∀ (k : Fin 80) (blocks t : Nat), 2 ≤ s.dev.phxState k →
      (s.dev.tdcOf (if k.val < 64 then s.dev.refLane k else k)).last = some t →
      let x := s.dev.phxOf k
      let g : Int := s.dev.gridPeriod k
      let block : Int := if k.val < 64 then 65536 * nthD [61440, 24576, 12288, 6144, 3072, 1536] (s.dev.get (F.MAC_CFG_speed k)) 6144
        else g
      let a : Int := ((t : Int) - s.dev.rxDelay (if k.val < 64 then k else k + 1)) * gridUnits - blocks * block
      let f := (a - (s.dev.get (F.PHX_PARTNER_GRID k) : Int) * gridUnits) % g
      let m := if x.seen then roundDiv (x.mIn + x.step - f) (s.dev.gridPeriod k : Int).toNat * g + f else f
      (x.seen = true → ((m - (x.mIn + x.step)).natAbs : Int) ≤
        s.dev.phxThreshold k + (s.dev.sget (F.PHX_FREQ k)).natAbs * 6291456 / 100000) →
      x.count + 1 < s.dev.phxInterval k → Runs (.phxSample k blocks) s (fun d =>
        let e := (d.setPhx k { x with mIn := m, arr := a, step := 0, seen := true, count := x.count + 1
                                      mStart := if x.seen then x.mStart + x.step else m
                                      alpha := d.asym k, delta := d.sget (F.PHX_ASYM_FIX k), jumped := false }).asymSync k
        if x.rtts ≠ [] then e.phxReport k else e)) ∧
    (∀ (p : Fin 64) (words bits : Nat) (e : Dev), s.dev.phxSends p = true → (s.dev.phxOf p).due = none →
      e = (s.begin.dev.leaveL1 p).setPhx p { s.dev.phxOf p with due := some s.dev.now } →
      (s.dev.sendingOn p = none → e.fitsGap p ((e.reportBytes p (80 * words + bits)).length + e.secLen p (e.reportBytes p (80 * words + bits))) = true →
        Runs (.phxReportSend p words bits) s (fun _ => Dev.lineOut (fun d =>
          ((d.insertFrame p (d.reportBytes p (80 * words + bits))).count (devCtr 1) 1).setPhx p
            { s.dev.phxOf p with seq := ((s.dev.phxOf p).seq + 1) % 65536, due := none }) e)) ∧
      ((s.dev.sendingOn p).isSome = true → Runs (.phxReportSend p words bits) s (fun _ => Dev.lineOut id e))) ∧
    (∀ (p : Fin 64) (bits : Nat) (line bs : List Byte), s.dev.opened p line = some bs → s.dev.isReport p bs = true →
      let w := fun (i n : Nat) => octets bs (14 + i) n
      let stamp := s.dev.rxStamp p bits
      (fcsOk bs = true → bs.length = 82 → w 0 1 = 1 → w 1 1 % 4 = 3 → w 4 8 ≠ s.dev.identity → s.dev.phxState p ≠ Phx.off →
        (∀ t, (s.dev.phxOf p).lastAcc = some t → t + 100000 * 65536 ≤ stamp.t) →
        Runs (.phxReportReceive p bits line) s (Dev.phxAccept p stamp.t
          { ident := w 4 8, port := w 12 1, mode := w 15 1, epoch := w 14 1, grid := w 28 4, hops := w 13 1
            follows := some (hasBit (w 1 1) 4), m := if hasBit (w 1 1) 2 then some (signed 64 (w 32 8)) else none
            coarse := (stamp.t : Int) - instant (w 16 6) (w 22 4) (w 26 2)
            asym := some (signed 32 (w 40 4), signed 32 (w 44 4)) })) ∧
      (w 0 1 ≠ 1 → w 4 8 ≠ s.dev.identity →
        Runs (.phxReportReceive p bits line) s (fun d => d.sat (F.PHX_RPT_ERR p) 1))) ∧
    (∀ (p : Fin 64) (bits : Nat) (line : List Byte), s.dev.opened p line = none → Runs (.phxReportReceive p bits line) s id) ∧
    (∀ k : Fin 80, s.dev.phxState k = Phx.track → Runs (.phxStaleTimeout k) s (fun d =>
      ((((d.put (F.PHX_STATUS_state k) Phx.stale).event (R.PHX_EVENT_k k) 3).phxLose k).calCheck.phxHops)))) ∧
  (∀ (d : Dev) (k : Fin 80) (arrival : Nat) (i : PhxInfo), (d.phxOf k).jumped = false → d.phxAmbiguous k i = true →
    let e := d.phxAccept k arrival i
    e.get (F.PHX_PARTNER_GRID k) = d.get (F.PHX_PARTNER_GRID k) ∧
      e.get (F.PHX_STATUS_partner_epoch k) = d.get (F.PHX_STATUS_partner_epoch k) ∧
      e.get (F.PHX_STATUS_partner_hops k) = d.get (F.PHX_STATUS_partner_hops k) ∧ (e.phxOf k).partner = (d.phxOf k).partner ∧
      e.get (F.PHX_AMBIG k) = satAdd 32 (d.get (F.PHX_AMBIG k)) 1 ∧ e.bitAt (R.PHX_EVENT_k k) 4 = true) ∧
  (∀ s : State,
    (∀ (k channel : Fin 128) (target : Bool), s.Reaches R.PHX_CAL_CTRL → ∃ e : Dev,
      e.get F.PHX_CAL_CTRL_link = k.val ∧ e.get F.PHX_CAL_CTRL_chan = channel.val ∧ e.get F.PHX_CAL_CTRL_target = bit target ∧
      e.get F.PHX_CAL_CTRL_start = 0 ∧ e.mem = s.dev.mem ∧
      (s.dev.get F.PHX_CAL_STATUS_state ≠ 1 → k.val < 80 → s.dev.phxState k = Phx.track → 80 ≤ channel.val → channel.val ≤ 91 →
        s.dev.tdcMode channel = 1 → Runs (.phxCalStart k target channel) s (fun _ =>
          let x := (e.calReason 1 0).put F.PHX_CAL_STATUS_samples 0
          { x with phxCal := { epoch := s.dev.get F.TBS_STATUS_epoch, partnerEpoch := s.dev.get (F.PHX_STATUS_partner_epoch k)
                               link := k, chan := channel, target := target } })) ∧
      (s.dev.get F.PHX_CAL_STATUS_state = 1 → Runs (.phxCalStart k target channel) s (fun _ => e.put F.PHX_CAL_STATUS_reason 3)) ∧
      (s.dev.get F.PHX_CAL_STATUS_state ≠ 1 →
        (80 ≤ k.val ∨ s.dev.phxState k ≠ Phx.track →
          Runs (.phxCalStart k target channel) s (fun _ => e.put F.PHX_CAL_STATUS_reason 1)) ∧
        (k.val < 80 → s.dev.phxState k = Phx.track → channel.val < 80 ∨ 91 < channel.val ∨ s.dev.tdcMode channel ≠ 1 →
          Runs (.phxCalStart k target channel) s (fun _ => e.put F.PHX_CAL_STATUS_reason 2)))) ∧
    (s.Up → s.dev.get F.PHX_CAL_STATUS_state = 1 →
      let k := s.dev.phxCal.link
      s.dev.phxState k = Phx.track → s.dev.get F.TBS_STATUS_epoch = s.dev.phxCal.epoch →
      s.dev.get (F.PHX_STATUS_partner_epoch k) = s.dev.phxCal.partnerEpoch →
      (2 * s.dev.get F.PHX_CAL_STATUS_samples < s.dev.calLen → Runs .phxCalEnd s (Dev.calFail 6)) ∧
      (s.dev.calLen ≤ 2 * s.dev.get F.PHX_CAL_STATUS_samples → s.dev.phxCal.hi - s.dev.phxCal.lo ≤ 2 * 65536 →
        let mean := roundDiv s.dev.phxCal.sum (s.dev.get F.PHX_CAL_STATUS_samples)
        let rtt := s.dev.pairInt (R.PHX_RTT_LO k) (R.PHX_RTT_HI k)
        Runs .phxCalEnd s (fun d => ((((d.setPairInt R.PHX_CAL_ERR_LO R.PHX_CAL_ERR_HI mean).put F.PHX_CAL_RESULT (saturate 32
          (if d.phxCal.target then d.sget (F.PHX_ASYM_FIX k) + 2 * mean
            else d.asym k + (if rtt = 0 then 0 else roundDiv (2 * mean * 1000000000 * rtt.sign) rtt.natAbs)))).calReason 2 0).event
              R.PHX_EVENT 0)))))

/-- A used slot at a tick of REF (R341, Table REF-3): OFF goes to FAIL; FAIL goes to WAIT once nothing speaks against it; WAIT
fails with a reason or becomes QUAL as its time is up; QUAL goes to ALARM with a reason; ALARM becomes QUAL again, or is
disqualified with its timer. WAIT and ALARM timers that expire do so as a tick of that slot. -/
def Obligations.SlotTicks : Prop :=
  (∀ (d0 : Dev) (n : Fin 32),
    let d := d0.put (F.REF_SLOT_STAT_kind_eff n) (d0.slotKind n)
    let jump := (d.refs.jumps.contains n.val || d.refs.jumpCands.contains (d.slotCand n)) && d.slotKind n == 1
    d0.slotUsed n = true → (Sparse.get? d0.refs.strobed n.val).isSome = false →
    (d.slotState n = Slot.off → d0.slotTick n = d.setSlot n Slot.fail) ∧
    (d.slotState n = Slot.fail → d.badRate n = false → d.slotDownstream n = false → d.slotAlarm n = false →
      d.flag (F.REF_SLOT_STAT_freq_valid n) = true → d.within n (d.accLimit n) = true → d.stillOutvoted n = false →
      d0.slotTick n = (d.setSlot n Slot.wait).setWaited n 0) ∧
    (d.slotState n = Slot.wait → jump = false →
      (d.slotAlarm n = true → d0.slotTick n = d.slotFails n 1) ∧
      (d.slotAlarm n = false → d.within n (d.accLimit n) = false → d0.slotTick n = d.slotFails n 2) ∧
      (d.slotAlarm n = false → d.within n (d.accLimit n) = true → d.slotDownstream n = false → d.stillOutvoted n = true →
        d0.slotTick n = d.slotFails n 4) ∧
      (d.slotAlarm n = false → d.within n (d.accLimit n) = true → d.slotDownstream n = false → d.stillOutvoted n = false →
        d0.slotTick n = if d.waitTicks n ≤ Sparse.getD d.refs.waited n.val 0 + 1 then d.qualify n
          else d.setWaited n (Sparse.getD d.refs.waited n.val 0 + 1))) ∧
    (d.slotState n = Slot.qual → jump = false → d.slotDownstream n = false →
      (d.slotAlarm n = true ∨ d.within n (d.rejLimit n) = false → d0.slotTick n =
        ((((d.setSlot n Slot.alarm).put (F.REF_SLOT_TIMER n) (10 * d.get (F.REF_SLOT_TIME_disq_time n))).put
          (F.REF_SLOT_STAT_reason n) (if d.slotAlarm n then 1 else 2)).refEvent 1 n)) ∧
      (d.slotAlarm n = false → d.within n (d.rejLimit n) = true → d0.slotTick n = d)) ∧
    (d.slotState n = Slot.alarm → jump = false → d.slotDownstream n = false →
      (d.slotAlarm n = false → d.within n (d.rejLimit n) = true → d0.slotTick n = d.qualify n) ∧
      (d.slotAlarm n = true → d.get (F.REF_SLOT_TIMER n) ≤ 1 →
        d0.slotTick n = d.disqualify n (d.get (F.REF_SLOT_STAT_reason n))))) ∧
  (∀ (s : State) (n : Fin 32), s.Up →
    (s.dev.slotState n = Slot.wait → Runs (.slotWaitExpiry n) s (fun d => (d.setWaited n (d.waitTicks n)).slotTick n)) ∧
    (s.dev.slotState n = Slot.alarm → Runs (.slotDisqExpiry n) s (fun d => (d.put (F.REF_SLOT_TIMER n) 0).slotTick n)))

/-- A tick of REF (R336): the slots a strobe changed go OFF, then votes, slot states, disagreements, selection, loops, and the records
that follow. A frequency window gives a slot its offset, where its candidate is there to be measured (R337). A posted correction near the time base and newer than the last is taken, another is counted as
rejected (R332); without posts the host's candidate is no longer live (R338). -/
def Obligations.ReferenceWork : Prop :=
  ∀ s : State,
    (∀ phaseT phaseF, s.Up → s.dev.blockPresent 9 = true → Runs (.refTick phaseT phaseF) s (fun d =>
      let off := Dev.each d.refs.strobed (fun x y => y.strobeTick x.1 x.2) d
      let e := Dev.each slots Dev.slotTick off.endPairs.vote.endPairs
      let e1 := ({ e with refs := { e.refs with jumps := [], jumpCands := [], strobed := [] } }).endPairs.beginPairs.vote.endPairs
      let e2 := ((((e1.select 0).select 1).runLoop 0 phaseT).runLoop 1 phaseF).syncFollowed
      ((e2.sumTick 0).sumTick 1).phxHops)) ∧
    (∀ (n : Fin 32) (offset x : Int), s.Up → s.dev.slotState n ≠ Slot.off → (Sparse.get? s.dev.refs.strobed n.val).isSome = false →
      s.dev.windowOffset n offset = some x → ∃ e : Dev,
      Runs (.freqWindow n offset) s (fun _ => e.beginPairs) ∧ e.flag (F.REF_SLOT_STAT_freq_valid n) = true ∧
        e.get (F.REF_SLOT_FREQ n) = saturate (F.REF_SLOT_FREQ n).width (x + roundDiv (s.dev.sget (F.DPL_STEER 0)) 100) ∧
        (∀ p ∈ e.refs.pairs, p.within < 10)) ∧
    (∀ (n : Fin 32) (offset : Int), s.Up → s.dev.slotState n = Slot.off ∨ (Sparse.get? s.dev.refs.strobed n.val).isSome = true ∨
      s.dev.windowOffset n offset = none → Runs (.freqWindow n offset) s id) ∧
    (s.Reaches R.REF_PTP_CTRL →
      let at_ := instant (s.dev.get F.REF_PTP_AT_SEC_LO + 2 ^ 32 * s.dev.get F.REF_PTP_AT_SEC_HI) (s.dev.get F.REF_PTP_AT_NS) 0
      (((at_ : Int) - s.dev.now).natAbs ≤ 65536 * 1000000000 → (∀ o t, s.dev.refs.lastPost = some (o, t) → t < at_) →
        ∃ u : State, exec .ptpPost s = .next u.commit ∧
          u.dev.get F.REF_PTP_CNT_accepted = (s.dev.get F.REF_PTP_CNT_accepted + 1) % 2 ^ F.REF_PTP_CNT_accepted.width ∧
          u.dev.refs.ptpLive = true ∧
          u.dev.refs.lastPost = some (s.dev.pairInt R.REF_PTP_OFS_LO R.REF_PTP_OFS_HI, at_) ∧ u.dev.mem = s.dev.mem) ∧
      (65536 * 1000000000 < ((at_ : Int) - s.dev.now).natAbs → ∃ u : State, exec .ptpPost s = .next u.commit ∧
        u.dev.get F.REF_PTP_CNT_rejected = (s.dev.get F.REF_PTP_CNT_rejected + 1) % 2 ^ F.REF_PTP_CNT_rejected.width ∧
          u.dev.refs = s.dev.refs ∧ u.dev.mem = s.dev.mem) ∧
      ((∃ o t, s.dev.refs.lastPost = some (o, t) ∧ at_ ≤ t) → ∃ u : State, exec .ptpPost s = .next u.commit ∧
        u.dev.get F.REF_PTP_CNT_rejected = (s.dev.get F.REF_PTP_CNT_rejected + 1) % 2 ^ F.REF_PTP_CNT_rejected.width ∧
          u.dev.refs = s.dev.refs ∧ u.dev.mem = s.dev.mem)) ∧
    (s.Up → Runs .ptpPostTimeout s (fun d => { d with refs := { d.refs with ptpLive := false } }))

/-- The operating phase and forced slots (R340, R346): a write of the phase or the automatic move to SERVICE sets it, and outside
TEST no slot is forced; a slot is forced in TEST where it belongs to the DPLL and is in use, and else refused with its event. A
DPLL that has acquired its reference long enough enters LOCKED (R354). -/
def Obligations.PhaseAndForce : Prop :=
  ∀ s : State,
    (∀ phase : Fin 4, s.Reaches R.REF_CTRL → ∃ e : Dev, (∀ a, e.word a = s.dev.word a) ∧ e.refs = s.dev.refs ∧ e.dplls = s.dev.dplls ∧
      e.mem = s.dev.mem ∧ Runs (.refPhaseWrite phase) s (fun _ => e.setPhase phase)) ∧
    (s.Up → s.dev.flag F.REF_CTRL_auto_service = true → s.dev.get F.REF_CTRL_phase = 0 → s.dev.dplState 0 = Dpl.locked →
      Runs .autoService s (Dev.setPhase 1)) ∧
    (∀ (d : Dev) (p : Nat), p < 4 → p ≠ d.get F.REF_CTRL_phase → (d.setPhase p).get F.REF_CTRL_phase = p ∧
      (d.setPhase p).flag ⟨R.REF_EVENT, 6, 1⟩ = true ∧
      (p ≠ 2 → (d.setPhase p).flag F.REF_FORCE_t_en = false ∧ (d.setPhase p).flag F.REF_FORCE_f_en = false)) ∧
    (∀ w : Word, s.Reaches R.REF_FORCE → w &&& ~~~(namedAt R.REF_FORCE) = 0 → ∃ u : State,
      exec (.refForce w) s = .next u.commit ∧ u.dev.get F.REF_FORCE_t_slot = bits w 0 5 ∧ u.dev.get F.REF_FORCE_f_slot = bits w 8 5 ∧
        u.dev.flag F.REF_FORCE_t_en = (w.getLsbD 7 && (s.dev.get F.REF_CTRL_phase == 2 && s.dev.slotDpll (bits w 0 5) == 0 &&
          s.dev.slotRank (bits w 0 5) != 0)) ∧
        u.dev.flag F.REF_FORCE_f_en = (w.getLsbD 15 && (s.dev.get F.REF_CTRL_phase == 2 && s.dev.slotDpll (bits w 8 5) == 1 &&
          s.dev.slotRank (bits w 8 5) != 0)) ∧ u.dev.refs = s.dev.refs ∧ u.dev.mem = s.dev.mem) ∧
    (∀ x : Fin 2, s.Up → s.dev.dplState x = Dpl.acquire → s.dev.inWindowErr x = true → ∃ u : State, exec (.dpllLocked x) s = .next u.commit ∧
      u.dev.dplState x = Dpl.locked ∧ u.dev.flag (F.DPL_STATUS_transfer x) = false ∧ u.dev.alarmed x = none ∧
      u.dev.flag (F.DPL_HO_STATUS_returning x) = false ∧ u.dev.flag ⟨R.DPL_EVENT x, 0, 1⟩ = true ∧ (u.dev.dpll x).age = 0 ∧
      (u.dev.dpll x).lockedSince = true ∧ u.dev.mem = s.dev.mem)

/-- Holdover and what it draws on (R270, R358, R366–R373): the second's entry of each DPLL, the ageing term and the compensated
value once per second, the temperature source going stale, the minute's entry, the refit outside holdover, and the erasure of
both. -/
def Obligations.HoldoverWork : Prop :=
  ∀ s : State,
    (∀ diode, s.Up → ∃ (u : State) (v w : SecondEntry), exec (.secondEntry diode) s = .next u.commit ∧
      (u.dev.dpll 0).ring = (v :: (s.dev.dpll 0).ring).take 7200 ∧ (u.dev.dpll 1).ring = (w :: (s.dev.dpll 1).ring).take 7200 ∧
      u.dev.learn.secs = s.dev.learn.secs + 1 ∧
      v.value = (if (s.dev.dpll 0).ticks = 0 then (s.dev.dpll 0).integ else roundDiv (s.dev.dpll 0).sum (s.dev.dpll 0).ticks) ∧
      w.value = (if (s.dev.dpll 1).ticks = 0 then (s.dev.dpll 1).integ else roundDiv (s.dev.dpll 1).sum (s.dev.dpll 1).ticks) ∧
      u.dev.mem = s.dev.mem ∧ u.dev.raised = s.dev.raised) ∧
    (∀ x : Fin 2, s.Up → s.dev.dplState x ≤ 1 → Runs (.ageingUpdate x) s (fun d =>
      (d.setAge x (clampInt (-steerMax) steerMax ((d.ageRate x * ((d.dpll x).ageSecs + 1 : Nat)).tdiv 86400))
        ((d.dpll x).ageSecs + 1)).refreshControl x)) ∧
    (∀ x : Fin 2, s.Up → s.dev.dplState x = Dpl.holdover → ∃ e : Dev, Runs (.holdoverUpdate x) s (fun _ => e.refreshControl x) ∧
      e.flag (F.DPL_HO_STATUS_comp x) = s.dev.compensated x ∧
      (s.dev.compensated x = true → (s.dev.sget F.DPL_LRN_TEMP = (s.dev.dpll x).model.held (s.dev.sget F.DPL_LRN_TEMP)) →
        e.get (F.DPL_HO_TEMP x) = saturate (F.DPL_HO_TEMP x).width
          (roundDiv ((s.dev.dpll x).model.eval (s.dev.sget F.DPL_LRN_TEMP) - (s.dev.dpll x).model.eval (s.dev.sget (F.DPL_HO_ANCHOR x)))
            1000000))) ∧
    (s.Up → Runs .tempStale s (fun d =>
      let e := (d.put (F.DPL_HO_STATUS_temp_stale 0) 1).put (F.DPL_HO_STATUS_temp_stale 1) 1
      ({ e with learn := { e.learn with stale := true, staleInMinute := true } }).fault R.DPL_LRN_EVENT 2 E.DPL_LRN_TEMP_STALE 0)) ∧
    (s.Up → s.dev.flag F.DPL_LRN_CTRL_enable = true → Runs .learnMinute s (fun d =>
      ({ d with learn := { d.learn.add (secOf d.now / 3600) ⟨d.minuteWord, some d.learn.secs⟩ with
          staleInMinute := (d.learn.add (secOf d.now / 3600) ⟨d.minuteWord, some d.learn.secs⟩).stale } }).syncMinutes)) ∧
    (s.Up → s.dev.dplState 0 ≠ Dpl.holdover → Runs .modelRefit s (fun d =>
      (({ d with learn := { d.learn with model := d.learn.fit } }).showModel).event R.DPL_LRN_EVENT 0)) ∧
    (s.Reaches R.DPL_LRN_CTRL → ∃ u : State, exec .learnClear s = .next u.commit ∧ u.dev.learn.blocks = [] ∧
      u.dev.learn.model = {} ∧ u.dev.get F.DPL_LRN_STATUS_minutes = 0 ∧ u.dev.flag F.DPL_LRN_STATUS_model_valid = false ∧
      u.dev.flag F.DPL_LRN_CTRL_clear = false ∧ u.dev.mem = s.dev.mem)

/-- The root synthesizer (R380–R386, R374): a locked root that loses lock is reported, counts its tries down and hands the clocks
to the backup; after its interval an automatic attempt starts; an attempt with an entry locks or fails with its reason, and one
without an entry fails with no band; relock and retarget start an attempt where they may, and a retarget that may not is refused
with its event; the ramp's end stops f. The end of a lock attempt (R382, R385): locked, the derived clocks return to the root and
no try is left to make; failed, the reason and the entry show, and the last automatic attempt or a retarget that fails raises
SYN_EVENT.root_lock_fail. -/
def Obligations.RootLock : Prop :=
  (∀ s : State,
    (s.Up → s.dev.attempt = none → s.dev.rootLocked = true → Runs .rootLockLoss s (fun d =>
      ((d.put F.SYN_STATUS_tries_left (d.get F.SYN_CFG_relock_tries)).fault R.SYN_EVENT 0 E.SYN_ROOT_LOCK_LOST 0).rootGone)) ∧
    (s.Up → s.dev.rootLocked = false → s.dev.attempt = none → s.dev.get F.SYN_STATUS_tries_left ≠ 0 →
      Runs .rootRelockTimer s (fun d =>
        (d.put F.SYN_STATUS_tries_left (d.get F.SYN_STATUS_tries_left - 1)).startAttempt 2)) ∧
    (∀ (outcome : Fin 4) (a : Attempt), s.Up → s.dev.attempt = some a → Runs (.rootLockAttemptEnd outcome) s (fun d =>
      if a.entry = none then d.attemptFails a 1
      else if outcome.val = 0 then d.attemptLocks a
      else d.attemptFails a (if outcome.val = 3 then 3 else 2))) ∧
    (s.Reaches R.SYN_CTRL → s.dev.rootLocked = false → s.dev.attempt = none → Runs .synRelock s (fun d =>
      ((d.touched R.SYN_CTRL).put F.SYN_CTRL_relock 1).startAttempt 3)) ∧
    (s.Reaches R.SYN_CTRL → s.dev.attempt = none →
      (∀ j < 16, s.dev.outEnabled j = true → hasBit (s.dev.get F.OUT_STATUS_parked) j = true) → Runs .synRetarget s (fun d =>
        (((d.touched R.SYN_CTRL).put F.SYN_CTRL_retarget 1).rootGone).startAttempt 4)) ∧
    (s.Reaches R.SYN_CTRL → s.dev.attempt.isSome = true → Runs .synRetarget s (fun d =>
      (d.touched R.SYN_CTRL).event R.SYN_EVENT 4)) ∧
    (s.Up → s.dev.rootLocked = true → s.dev.flag F.TBS_STATUS_ff_active = true → Runs .controlRampEnd s (fun d =>
      ((d.put F.TBS_STATUS_ff_active 0).put F.TBS_FF 0).event R.TBS_EVENT 4))) ∧
  (∀ (d : Dev) (a : Attempt),
    ((d.attemptLocks a).flag F.SYN_STATUS_root_lock = true ∧ (d.attemptLocks a).flag F.SYN_STATUS_on_backup = false ∧
      (d.attemptLocks a).flag F.TOP_READY_root = true ∧ (d.attemptLocks a).get F.SYN_STATUS_tries_left = 0 ∧
      (d.attemptLocks a).flag F.SYN_STATUS_busy = false ∧ (d.attemptLocks a).attempt = none) ∧
    (∀ r < 4, (d.attemptFails a r).get F.SYN_FAIL_reason = r ∧ (d.attemptFails a r).flag F.SYN_STATUS_busy = false ∧
      (d.attemptFails a r).attempt = none ∧
      (a.kind = 4 ∨ a.kind = 2 ∧ d.get F.SYN_STATUS_tries_left = 0 →
        (d.attemptFails a r).raised = d.raised ++ [⟨E.SYN_ROOT_LOCK_FAIL, 0⟩]) ∧
      (a.kind ≠ 4 → a.kind ≠ 2 ∨ d.get F.SYN_STATUS_tries_left ≠ 0 → (d.attemptFails a r).raised = d.raised)))

/-- Spread spectrum and the outputs (R390, R392, R396–R404): its settings take a write, the core's in a time-less plan alone; a
park write parks each output that is not in its high phase; a delay write moves the edge; an output pulse is
sent with its width where its source gives the instant; lost alignment and a lost delay line are reported. The parked bits show
(R75, R397): brought up to date, OUT_STATUS.parked sets for each output that is to park and has finished its high phase or pulse. -/
def Obligations.OutputWork : Prop :=
  (∀ s : State,
    (∀ w : Word, s.Reaches R.SYN_SSC_AUX → w &&& ~~~(namedAt R.SYN_SSC_AUX) = 0 → Runs (.sscAuxWrite w) s (fun d =>
      ((d.touched R.SYN_SSC_AUX).put F.SYN_SSC_AUX_mode (bits w 0 2)).put F.SYN_SSC_AUX_depth (bits w 8 6))) ∧
    (∀ w : Word, s.Reaches R.SYN_SSC_CORE → w &&& ~~~(namedAt R.SYN_SSC_CORE) = 0 → Runs (.sscCoreWrite w) s (fun d =>
      if s.dev.flag F.SYN_PLAN_time_less then
        ((d.touched R.SYN_SSC_CORE).put F.SYN_SSC_CORE_mode (bits w 0 2)).put F.SYN_SSC_CORE_depth (bits w 8 6)
      else (d.touched R.SYN_SSC_CORE).event R.SYN_EVENT 5)) ∧
    (∀ park : BitVec 16, s.Reaches R.OUT_CTRL → s.dev.retargeting = false → Runs (.outPark park) s (fun d =>
      ((d.touched R.OUT_CTRL).put F.OUT_CTRL_park park.toNat).syncParked)) ∧
    (∀ (i : Fin 12) (w : Word), s.Reaches (R.OUT_CLK_DLY i) → w &&& ~~~(namedAt (R.OUT_CLK_DLY i)) = 0 →
      Runs (.outDelayWrite i w) s (fun d =>
        ((((d.touched (R.OUT_CLK_DLY i)).put (F.OUT_CLK_DLY_fine i) (bits w 0 10)).put (F.OUT_CLK_DLY_coarse i)
          (bits w 16 4)).delayChanged i (s.dev.delayPlace i)))) ∧
    (∀ (k : Fin 4) (t : Nat) (a : Int) (waiting : List (Int × Nat)), s.Up → (s.dev.ppsOf k).next = none →
      (s.dev.ppsOf k).cfg.enable = true →
      (s.dev.ppsOf k).cfg.edge (max (s.dev.ppsOf k).from_ s.dev.now) (s.dev.ppsOf k).align (s.dev.ppsOf k).realign = some (t, a, waiting) →
      s.dev.timeReady = true → s.dev.parkWanted (12 + k) = false → t < s.dev.now + 106667 →
      (∀ e, (s.dev.ppsOf k).busyTo = some e → e ≤ t) → s.dev.sec.extest = false →
      ∃ e : Dev, Runs (.ppsEdge k) s (fun _ => e) ∧
        e.sent = [.pulse k t (s.dev.ppsOf k).cfg.pulseWidth (s.dev.ppsOf k).cfg.inverted] ∧
        (e.ppsOf k).busyTo = some (t + (s.dev.ppsOf k).cfg.pulseWidth) ∧ (e.ppsOf k).from_ = t + 1 ∧
        (e.ppsOf k).align = some a ∧ (e.ppsOf k).realign = waiting ∧ e.bitAt R.OUT_STATUS (12 + k) = false) ∧
    (∀ k : Fin 4, s.Up → (s.dev.ppsOf k).cfg.src ≠ 0 → s.dev.pulsesOf (s.dev.ppsOf k).cfg.src ≠ [] →
      s.dev.flag (F.OUT_PPS_STATUS_holding k) = false → Runs (.ppsAlignLost k) s (fun d =>
        ((d.put (F.OUT_PPS_STATUS_holding k) 1).outEvent 1 (12 + k)).raise E.OUT_ALIGN_LOST (12 + k))) ∧
    (∀ i : Fin 16, s.Up → Runs (.dllUnlock i) s (fun d =>
      (((d.setDll i false).outEvent 3 i).raise E.OUT_DLL_UNLOCK i).syncParked)) ∧
    (∀ i : Fin 16, s.Up → Runs (.dllRelock i) s (Dev.setDll i true))) ∧
  (∀ (d : Dev) (j : Nat), j < 16 →
    d.syncParked.bitAt R.OUT_STATUS j = (d.bitAt R.OUT_STATUS j || (d.parkWanted j && !d.outHigh j)))

/-- What a member sends (R414, R419, R424, R427, R431): its HEARTBEAT, its DPLL_STATE, announces on the belay-controlled ports,
which leave at a frame boundary with a gap for them, an update from the mirror queue with its sequence, and the word that a walk is done. -/
def Obligations.BelaySends : Prop :=
  ∀ s : State, s.Up →
    (s.dev.isMember = true → Runs .heartbeatSend s (fun d =>
      let e := d.when (!d.belay.hbHeard) (Dev.sat F.RDN_HB_MISS 1)
      let e1 := { e with belay := { e.belay with hbHeard := false, reqSent := e.belay.reqSent || e.belay.resyncReq } }
      e1.sendBelay 1 e1.heartbeatBody)) ∧
    (s.dev.isMember = true → Runs .dpllStateSend s (fun d => d.sendBelay 4 ([BitVec.ofNat 8 (d.dplState 0),
      BitVec.ofNat 8 (d.dplState 1), BitVec.ofNat 8 (d.get (F.DPL_STATUS_slot_valid 0)), BitVec.ofNat 8 d.followedCand] ++
      beBytes 4 (d.word (R.DPL_STEER 0)).toNat ++ beBytes 4 (d.word (R.DPL_STEER 1)).toNat ++ List.replicate 4 0))) ∧
    (s.dev.isActive = true → Runs .announceSend s (Dev.lineOut fun d =>
      let e := Dev.each ((List.range 81).filter (fun p => p != 64 && d.belayPort p && d.portPresent p && d.portReady p))
        (fun p x => (({ x with belay := { x.belay with annDue := Sparse.put x.belay.annDue p d.announceBytes } }.leaveL1 p).announceLeave
          p).2) d
      { e with belay := { e.belay with annSeq := (e.belay.annSeq + 1) % 2 ^ 32 } })) ∧
    (∀ a m rest, s.dev.belay.queue = a :: rest → s.dev.isActive = true → s.dev.belayLanes ≠ [] →
      s.dev.flag F.RDN_STATUS_img_mismatch = false → mirrorCode a = some m → Runs .mirrorSend s (fun d =>
        let seq := (s.dev.belay.mirrorSeq + 1) % 2 ^ 32
        let e := (d.setMirrorQ rest).sendBelay 3 (beBytes 4 a ++ [BitVec.ofNat 8 m, 0, 0, 0] ++ beBytes 4 seq ++ d.mirrorBytes m a)
        let e1 := ({ e with belay := { e.belay with mirrorSeq := seq } }).wrap F.RDN_MIR_SENT 1
        (e1.when (e1.belay.walkDue && decide (rest.length ≤ 2048)) Dev.startWalk).walkFeed)) ∧
    (s.dev.isActive = true → s.dev.belay.walking = true → s.dev.belay.queue = [] → s.dev.flagged s.dev.belay.walkAt = [] →
      s.dev.walkFeed.flagged s.dev.walkFeed.belay.walkAt = [] → s.dev.belayLanes ≠ [] → Runs .resyncWalkEnd s (fun d =>
        ({ d.walkFeed with belay := { d.walkFeed.belay with walking := false } }).sendBelay 5 (beBytes 4 d.belay.mirrorSeq))) ∧
    (s.dev.isActive = true → s.dev.belay.walking = true → s.dev.walkFeed.belay.queue ≠ [] → Runs .resyncWalkEnd s Dev.walkFeed) ∧
    (∀ (d : Dev) (p : Nat) (bs : List Byte), Sparse.get? d.belay.annDue p = some bs → d.isActive = true → d.portReady p = true →
      let gone := { d with belay := { d.belay with annDue := Sparse.del d.belay.annDue p } }
      (d.sendingOn p = none → d.fitsGap p (bs.length + d.secLen p bs) = true → d.announceLeave p = (true, gone.insertFrame p bs)) ∧
      ((d.sendingOn p).isSome = true ∨ d.fitsGap p (bs.length + d.secLen p bs) = false → d.announceLeave p = (false, d))) ∧
    (∀ (d : Dev) (ty : Nat) (body : List Byte), d.belayLanes ≠ [] → (d.sendBelay ty body).belay.seq = (d.belay.seq + 1) % 2 ^ 32 ∧
      ((d.sendBelay ty body).sent.length = d.sent.length + d.belayLanes.length))

/-- What a member does with a message (R412–R415, R426, R428, R431): of one that is not accepted only the counts change; an
accepted HEARTBEAT marks the mate, with its role, rank and flags, and applies the rules of dual activity and of the roles; an accepted
YIELD promotes a standby without interlock and leaves any other member; an update and the end of a walk are taken by the member that is
not ACTIVE and leave the ACTIVE one; a DPLL_STATE starts the comparisons. -/
def Obligations.BelayReceives : Prop :=
  ∀ (s : State) (bs : List Byte) (clean : Bool), s.Up → ∀ (body : List Byte) (e : Dev),
    (∀ x ∈ [(Instr.heartbeatReceive bs clean, 1), (.yieldReceive bs clean, 2), (.mirrorReceive bs clean, 3),
        (.dpllStateReceive bs clean, 4), (.resyncDoneReceive bs clean, 5)],
      s.begin.dev.takeBelay x.2 bs clean = (none, e) → Runs x.1 s (fun _ => e)) ∧
    (s.begin.dev.takeBelay 1 bs clean = (some body, e) → e.flag F.RDN_STATUS_mate_ok = true → e.role = Role.standby →
      octet body 0 % 4 ≠ Role.active → ∃ x : Dev, Runs (.heartbeatReceive bs clean) s (fun _ => x.rdnEval) ∧
        x.flag F.RDN_STATUS_mate_ok = true ∧ x.get F.RDN_STATUS_mate_role = octet body 0 % 4 ∧
        x.get F.RDN_STATUS_mate_rank = octet body 1 % 2 ^ F.RDN_STATUS_mate_rank.width ∧ x.belay.hbHeard = true ∧
        x.belay.mateFault = hasBit (octet body 2) 4) ∧
    (s.begin.dev.takeBelay 1 bs clean = (some body, e) → ∃ x : Dev, Runs (.heartbeatReceive bs clean) s (fun _ =>
        ((if octet body 0 % 4 = Role.active then x.dualActive (octet body 1) else x).takeSynced (octet body 2)
          (!e.flag F.RDN_STATUS_mate_ok)).rdnEval) ∧
      x.flag F.RDN_STATUS_mate_ok = true ∧ x.get F.RDN_STATUS_mate_role = octet body 0 % 4 ∧
      x.get F.RDN_STATUS_mate_rank = octet body 1 % 2 ^ F.RDN_STATUS_mate_rank.width ∧ x.belay.hbHeard = true ∧
      x.belay.mateHold = hasBit (octet body 2) 3 ∧ x.belay.mateFault = hasBit (octet body 2) 4 ∧
      x.belay.mateHoldoff = hasBit (octet body 2) 5 ∧ x.role = (if e.role = Role.guard then Role.standby else e.role)) ∧
    (s.begin.dev.takeBelay 2 bs clean = (some body, e) → e.role = Role.standby → e.flag F.RDN_CFG_ilk_en = false →
      e.heldBack = false → Runs (.yieldReceive bs clean) s (fun _ => e.enterActive)) ∧
    (s.begin.dev.takeBelay 2 bs clean = (some body, e) →
      e.role ≠ Role.standby ∨ e.flag F.RDN_CFG_ilk_en = true ∨ e.heldBack = true → Runs (.yieldReceive bs clean) s (fun _ => e)) ∧
    (e.role = Role.active → (s.begin.dev.takeBelay 3 bs clean = (some body, e) → Runs (.mirrorReceive bs clean) s (fun _ => e)) ∧
      (s.begin.dev.takeBelay 5 bs clean = (some body, e) → Runs (.resyncDoneReceive bs clean) s (fun _ => e))) ∧
    (s.begin.dev.takeBelay 5 bs clean = (some body, e) → e.role ≠ Role.active → Runs (.resyncDoneReceive bs clean) s (fun _ =>
      let waits := e.belay.resyncReq && !e.belay.reqSent
      let known := decide (e.belay.rxMirror.getD 0 = octets body 0 4)
      let x := { e with belay := { e.belay with
        rxMirror := some (octets body 0 4), resyncReq := waits || !known, reqSent := false, doneSince := true } }
      let y := if known = true then x else x.put F.RDN_STATUS_synced 0
      if waits = false ∧ known = true ∧ e.flag F.RDN_STATUS_img_mismatch = false then
        (y.put F.RDN_STATUS_synced 1).event R.RDN_EVENT 8 else y)) ∧
    (s.begin.dev.takeBelay 3 bs clean = (some body, e) → e.role ≠ Role.active → Runs (.mirrorReceive bs clean) s (fun _ =>
      (e.mirrorOrder (octets body 8 4)).mirrorWrite (octets body 0 4) (octet body 4) (body.drop 12))) ∧
    (s.begin.dev.takeBelay 4 bs clean = (some body, e) → Runs (.dpllStateReceive bs clean) s (fun _ =>
      let n := if octet body 0 != e.compareTimes.dplState 0 || octet body 3 != e.compareTimes.followedCand then
        e.compareTimes.belay.differs + 1 else 0
      ({ e.compareTimes with belay := { e.compareTimes.belay with differs := n } }).when (decide (2 ≤ n))
        (Dev.fault R.RDN_EVENT 6 E.RDN_DPLL_MISMATCH 0))) ∧
    (s.begin.dev.takeBelay 5 bs clean = (some body, e) → e.role ≠ Role.active → e.belay.resyncReq = false →
      e.belay.rxMirror.getD 0 = octets body 0 4 → e.flag F.RDN_STATUS_img_mismatch = false →
      Runs (.resyncDoneReceive bs clean) s (fun _ =>
        ({ e with belay := { e.belay with rxMirror := some (octets body 0 4), resyncReq := false, reqSent := false, doneSince := true } }).put
          F.RDN_STATUS_synced 1 |>.event R.RDN_EVENT 8))

/-- The roles of a member (R408–R420): the mate lost, the interlock's level, the claim and the guard's end of a standby, the
release of ILK_N, the end of the holdoff, and an announce: of another ACTIVE member, which restarts a guard, of the mate in another
role, and one that is not right, which counts as a message error. The end of a member's ACTIVE role (R410,
R416): its role, the interlock, its walk and its mirror queue, with the event. -/
def Obligations.BelayRoles : Prop :=
  (∀ s : State, s.Up →
    (s.dev.flag F.RDN_STATUS_mate_ok = true → Runs .mateLost s (fun d =>
      ((d.put F.RDN_STATUS_mate_ok 0).fault R.RDN_EVENT 2 E.RDN_MATE_LOST 0).rdnEval)) ∧
    (s.dev.role = Role.active → s.dev.flag F.RDN_STATUS_ilk_drive = true → Runs .heartbeatMissRelease s (fun d =>
      (d.leaveActive Role.standby none).rdnEval)) ∧
    (s.dev.blockPresent 21 = true → s.dev.role = Role.standby → s.dev.flag F.RDN_CFG_ilk_en = true →
      s.dev.flag F.RDN_STATUS_ilk_level = true → s.dev.heldBack = false → Runs .ilkClaim s Dev.enterActive) ∧
    (s.dev.role = Role.guard → Runs .guardExpiry s (fun d =>
      ({ d with belay := { d.belay with guardDone := true } }).rdnEval)) ∧
    (s.dev.blockPresent 21 = true → s.dev.busy = false → Runs .holdoffExpiry s (fun d => (d.put F.RDN_STATUS_holdoff 0).rdnEval)) ∧
    (∀ level, Runs (.ilkNChange level) s (Dev.put F.RDN_STATUS_ilk_level (bit level))) ∧
    (∀ bs, s.dev.isAnnounce bs = true → octet bs 14 = 0x81 → fcsOk bs = true → octets bs 18 8 = s.dev.mateId → octet bs 15 = Role.active →
      s.dev.role = Role.active → Runs (.announceReceive bs) s (fun d =>
        let x := if d.belay.dual then d else d.fault R.RDN_EVENT 4 E.RDN_DUAL_ACTIVE 0
        let e := { x with belay := { x.belay with dual := true } }
        if e.mateHigher (octet bs 16) then e.yieldNow 2 else e)) ∧
    (∀ bs, (s.dev.isAnnounce bs = false → Runs (.announceReceive bs) s id) ∧
      (s.dev.isAnnounce bs = true →
        (octet bs 14 ≠ 0x81 ∨ fcsOk bs = false ∨ octets bs 18 8 ≠ s.dev.mateId → Runs (.announceReceive bs) s Dev.msgError) ∧
        (octet bs 14 = 0x81 → fcsOk bs = true → octets bs 18 8 = s.dev.mateId →
          (octet bs 15 = Role.active → s.dev.role = Role.guard → Runs (.announceReceive bs) s (fun d =>
            { d with belay := { d.belay with guardDone := false } })) ∧
          (octet bs 15 ≠ Role.active ∨ (s.dev.role ≠ Role.active ∧ s.dev.role ≠ Role.guard) → Runs (.announceReceive bs) s id)))) ∧
    (s.dev.flag F.RDN_CTRL_switchover = true → s.dev.belay.queue = [] → s.dev.role = Role.active →
      Runs .switchoverYield s (fun d =>
        ((d.sendBelay 2 (d.yieldBody 0)).leaveActive Role.standby (some 0)).rdnEval))) ∧
  (∀ (d : Dev) (next : Nat) (reason : Option Nat), next < 4 →
    (d.leaveActive next reason).role = next ∧ (d.leaveActive next reason).flag F.RDN_STATUS_ilk_drive = false ∧
    (d.leaveActive next reason).flag F.RDN_STATUS_holdoff = true ∧ (d.leaveActive next reason).flag F.RDN_STATUS_synced = false ∧
    (d.leaveActive next reason).belay.walking = false ∧ (d.leaveActive next reason).belay.queue = [] ∧
    (d.leaveActive next reason).flag ⟨R.RDN_EVENT, 1, 1⟩ = true ∧ (d.leaveActive next reason).raised = d.raised)

/-- What the host asks of a member by RDN_CTRL (R417, R418, R427): a switchover is accepted where the mate may take over and
refused with its event where it may not; clear_fault clears fault_lock; resync starts a walk. A write of one of these bits leaves
enable and hold as they stand. -/
def Obligations.BelayCommands : Prop :=
  ∀ s : State, s.Reaches R.RDN_CTRL → ∃ e : Dev, (∀ a, a ≠ R.RDN_CTRL → e.word a = s.dev.word a) ∧
    e.get F.RDN_CTRL_enable = s.dev.get F.RDN_CTRL_enable ∧ e.get F.RDN_CTRL_hold = s.dev.get F.RDN_CTRL_hold ∧
    e.get F.RDN_CTRL_switchover = s.dev.get F.RDN_CTRL_switchover ∧ e.belay = s.dev.belay ∧ e.mem = s.dev.mem ∧
    Runs .switchover s (fun _ => e.rdnEval.wakeBelay.switchover) ∧ Runs .clearFault s (fun _ => e.rdnEval.wakeBelay.clearFault) ∧
    Runs .resyncWalk s (fun _ => e.rdnEval.wakeBelay.startWalk) ∧
    (∀ d : Dev,
      let mayTake := d.flag F.RDN_STATUS_mate_ok && d.get F.RDN_STATUS_mate_role == Role.standby && d.flag F.RDN_STATUS_synced &&
        !d.belay.mateHold && !d.belay.mateFault && !d.belay.mateHoldoff
      (d.role = Role.active → mayTake = true → d.switchover = d.put F.RDN_CTRL_switchover 1) ∧
      (d.role ≠ Role.active ∨ mayTake = false → d.flag F.RDN_CTRL_switchover = false → d.switchover = d.event R.RDN_EVENT 14) ∧
      (d.isActive = true → d.startWalk = ({ d.put F.RDN_STATUS_synced 0 with
        belay := { d.belay with walking := true, walkAt := 0, walkDue := false } }).walkFeed))

/-- Fuse operations (R437, R438): with the policy's leave, no lock and VPP_FUSE in range, each of the four starts where its own
condition holds, with what it is to write; under the lock or without the policy's leave it is refused with reason 1, without VPP_FUSE
with reason 2, for the slot, the floor or the mode with reasons 3 to 6, and while one runs with reason 8. One that
ends well writes the fuses and their shadows, one that does not ends with reason 7. What a fuse operation leaves (R438): the
slot's digest with the bits its fuses had and its programmed bit, its revoked bit, the floor, or the mode with the bits it had; a fuse
programmed stays programmed. -/
def Obligations.FuseOperations : Prop :=
  (∀ s : State,
    let asked := fun (vpp : Bool) (op slot mode : Nat) (d : Dev) =>
      ((((d.setVpp vpp).touched R.SEC_OTP_PROG).put F.SEC_OTP_PROG_op op).put F.SEC_OTP_PROG_slot slot).put F.SEC_OTP_PROG_debug mode
    let starts := fun (c : Instr) (op slot mode value : Nat) (digest : List Word) =>
      Runs c s (fun d => (({ asked true op slot mode d with sec := { (asked true op slot mode d).sec with
        otp := some ⟨op, slot, value, digest⟩ } }).put F.SEC_STATUS_otp_busy 1).put F.SEC_OTP_PROG_go 1)
    (s.Reaches R.SEC_OTP_PROG → s.dev.sec.otp = none → s.dev.locked = false → s.dev.policyBit Policy.otpProg = true →
      (∀ slot : Fin 4, hasBit (s.dev.get F.SEC_STATUS_slots_prog) slot = false → s.dev.slotDirty slot = false →
        starts (.otpProgramSlot slot true) 1 slot 0 0 s.dev.stagedDigest) ∧
      (∀ slot : Fin 4, s.dev.goodSlots.all (· == slot.val) = false → hasBit (s.dev.get F.SEC_STATUS_slots_rev) slot = false →
        starts (.otpRevokeSlot slot true) 2 slot 0 0 []) ∧
      (s.dev.get F.SEC_STATUS_floor < min 128 (s.dev.get F.IMG_SEC_VERSION) →
        starts (.otpRaiseFloor true) 3 0 0 (min 128 (s.dev.get F.IMG_SEC_VERSION)) []) ∧
      (∀ mode : Fin 4, s.dev.get F.SEC_STATUS_debug_mode < mode.val → mode.val ≠ 2 →
        starts (.otpRaiseDebug mode true) 4 0 mode mode [])) ∧
    (s.Reaches R.SEC_OTP_PROG → s.dev.sec.otp = none → ∀ (slot : Fin 4) (vpp : Bool),
      (s.dev.locked = true → Runs (.otpRevokeSlot slot vpp) s (fun d => (asked vpp 2 slot 0 d).put F.SEC_OTP_STATUS_reason 1)) ∧
      (s.dev.locked = false → s.dev.policyBit Policy.otpProg = true → Runs (.otpRevokeSlot slot false) s (fun d =>
        (asked false 2 slot 0 d).put F.SEC_OTP_STATUS_reason 2))) ∧
    (s.Reaches R.SEC_OTP_PROG → ∀ (slot mode : Fin 4) (vpp : Bool),
      ∀ x ∈ ([(.otpProgramSlot slot vpp, 1, slot.val, 0), (.otpRevokeSlot slot vpp, 2, slot.val, 0), (.otpRaiseFloor vpp, 3, 0, 0),
          (.otpRaiseDebug mode vpp, 4, 0, mode.val)] : List (Instr × Nat × Nat × Nat)),
        let refused := fun (r : Nat) => Runs x.1 s (fun d => (asked vpp x.2.1 x.2.2.1 x.2.2.2 d).put F.SEC_OTP_STATUS_reason r)
        (s.dev.sec.otp.isSome = true → refused 8) ∧
        (s.dev.sec.otp = none →
          (s.dev.locked = true ∨ s.dev.policyBit Policy.otpProg = false → refused 1) ∧
          (s.dev.locked = false → s.dev.policyBit Policy.otpProg = true → vpp = false → refused 2))) ∧
    (s.Reaches R.SEC_OTP_PROG → s.dev.sec.otp = none → s.dev.locked = false → s.dev.policyBit Policy.otpProg = true →
      ∀ slot mode : Fin 4,
      let refused := fun (c : Instr) (op slot mode r : Nat) =>
        Runs c s (fun d => (asked true op slot mode d).put F.SEC_OTP_STATUS_reason r)
      (hasBit (s.dev.get F.SEC_STATUS_slots_prog) slot = true → refused (.otpProgramSlot slot true) 1 slot 0 3) ∧
      (hasBit (s.dev.get F.SEC_STATUS_slots_prog) slot = false → s.dev.slotDirty slot = true →
        refused (.otpProgramSlot slot true) 1 slot 0 4) ∧
      (s.dev.goodSlots.all (· == slot.val) = true → refused (.otpRevokeSlot slot true) 2 slot 0 5) ∧
      (s.dev.goodSlots.all (· == slot.val) = false → hasBit (s.dev.get F.SEC_STATUS_slots_rev) slot = true →
        refused (.otpRevokeSlot slot true) 2 slot 0 6) ∧
      (min 128 (s.dev.get F.IMG_SEC_VERSION) ≤ s.dev.get F.SEC_STATUS_floor → refused (.otpRaiseFloor true) 3 0 0 6) ∧
      (mode.val ≤ s.dev.get F.SEC_STATUS_debug_mode ∨ mode.val = 2 → refused (.otpRaiseDebug mode true) 4 0 mode 6)) ∧
    (∀ o, s.Up → s.dev.sec.otp = some o →
      let ended := fun (d : Dev) => (({ d with sec := { d.sec with otp := none } }).put F.SEC_STATUS_otp_busy 0).put F.SEC_OTP_PROG_go 0
      Runs (.otpOpDone true) s (fun d => ((ended d).otpEffect o).event R.SEC_EVENT 2) ∧
      Runs (.otpOpDone false) s (fun d =>
        (((ended d).otpPartial o).put F.SEC_OTP_STATUS_reason 7).fault R.SEC_EVENT 3 E.SEC_OTP_FAIL o.op))) ∧
  (∀ (d : Dev) (o : OtpRun), o.slot < 4 → o.value < 256 →
    (o.op = 1 → o.digest.length = 12 → hasBit ((d.otpEffect o).get F.SEC_STATUS_slots_prog) o.slot = true ∧
      (∀ i : Fin 12, (d.otpEffect o).word (R.SEC_OWNER_DIG o.slot i) =
        BitVec.ofNat 32 (d.fuseNum (digestFuse o.slot + 4 * i) 4) ||| o.digest.getD i 0) ∧
      (d.otpEffect o).get F.SEC_STATUS_slots_rev = d.get F.SEC_STATUS_slots_rev) ∧
    (o.op = 2 → hasBit ((d.otpEffect o).get F.SEC_STATUS_slots_rev) o.slot = true ∧
      (d.otpEffect o).get F.SEC_STATUS_slots_prog = d.get F.SEC_STATUS_slots_prog) ∧
    (o.op = 3 → o.value ≤ 128 → (d.otpEffect o).get F.SEC_STATUS_floor = (d.otpEffect o).fusedFloor ∧
      o.value ≤ (d.otpEffect o).fusedFloor ∧ (d.fuseNum floorFuse 16 < 2 ^ o.value → (d.otpEffect o).fusedFloor = o.value)) ∧
    (∀ a, d.fuseByte a &&& ~~~((d.otpEffect o).fuseByte a) = 0) ∧
    (o.op = 4 → (d.otpEffect o).get F.SEC_STATUS_debug_mode = d.get F.SEC_STATUS_debug_mode ||| o.value % 4))

/-- Attestation and tamper (R441, R446): a request is taken where the unit is ready and the policy allows it, its report built as
the device stands; the report then appears in the report memory with a signature under the device's private key; a tamper source the
policy enables counts, shows and raises SEC_EVENT.tamper, and any abandons the check of an image. The test access port and debug access (R443–R445), which a device in reset serves too but for
debug: BYPASS and IDCODE shift out their bits, SAMPLE the levels at the balls; EXTEST and the lane tests take every Ethernet link
and lane down; a challenge carries the device's own identity and counts; without its policy it is zeros; a response is taken
once, and opens debug only if it verifies. -/
def Obligations.AttestationAndTamper : Prop :=
  (∀ s : State,
    (s.Reaches R.SEC_CTRL → s.dev.flag F.TOP_READY_sec = true → s.dev.policyBit Policy.attestEn = true →
      s.dev.flag F.SEC_STATUS_zeroized = false → s.dev.flag F.SEC_STATUS_att_busy = false → Runs .attestationRequest s (fun d =>
        let e := d.touched R.SEC_CTRL
        (({ e with sec := { e.sec with report := d.reportBody } }).put F.SEC_CTRL_att_req 1).put F.SEC_STATUS_att_busy 1)) ∧
    (s.Reaches R.SEC_CTRL → s.dev.flag F.SEC_STATUS_att_busy = true → Runs .attestationRequest s (fun d =>
      ((d.touched R.SEC_CTRL).put F.SEC_CTRL_att_req 0).event R.SEC_EVENT 1)) ∧
    (s.Up → s.dev.flag F.SEC_STATUS_att_busy = true → ∃ (k : Nat) (sig : List Byte), 1 ≤ k ∧ k < p384Order ∧
      sig = ecdsaSign s.dev.privateKey (sha384 s.dev.sec.report) k ∧ sig.length = 96 ∧ Runs .attestationDone s (fun d =>
      let e := (d.draw.clearMem reportBase (reportBase + 448)).store reportBase (d.sec.report ++ sig)
      ((({ e with sec := { e.sec with report := [] } }).put F.SEC_CTRL_att_req 0).put F.SEC_STATUS_att_busy 0).event R.SEC_EVENT 0)) ∧
    (∀ source : Fin 7, s.Up → hasBit s.dev.sec.tamperEn source = false → Runs (.tamperTrip source) s (fun d =>
      if d.prRunning && !d.abandonVerify.prRunning then d.abandonVerify.runHeld else d.abandonVerify)) ∧
    (∀ d : Dev, d.get F.IMG_STATUS_state ≠ Img.prVerifying → d.get F.IMG_STATUS_state ≠ Img.loading →
      d.get F.IMG_STATUS_state ≠ Img.verifying → d.abandonVerify = d) ∧
    (∀ source : Fin 7, s.Up → hasBit s.dev.sec.tamperEn source = true → ∃ e : Dev,
      Runs (.tamperTrip source) s (fun d => if d.prRunning && !e.abandonVerify.prRunning then e.abandonVerify.runHeld
        else e.abandonVerify) ∧
      e.get F.SEC_TAMPER_LAST_source = source.val ∧ e.flag ⟨R.SEC_EVENT, 4, 1⟩ = true ∧
      e.get F.SEC_TAMPER_CNT = satAdd F.SEC_TAMPER_CNT.width (s.dev.get F.SEC_TAMPER_CNT) 1 ∧
      e.raised = s.dev.raised ++ [⟨E.SEC_TAMPER, source⟩] ∧ e.flag F.SEC_STATUS_zeroized =
        (s.dev.flag F.SEC_STATUS_zeroized || s.dev.policyBit Policy.zeroize))) ∧
  (∀ s : State,
    (∀ data, Runs (.bypass data) s (fun d => d.leaveExtest.emit (.jtag (leBytes data.length (2 * leNat data))))) ∧
    Runs .idcode s (fun d => d.leaveExtest.emit (.jtag [0x93, 0x0E, 0x48, 0x16])) ∧
    (∀ pins data, Runs (.samplePreload pins data) s (fun d =>
      ({ d.leaveExtest with sec := { d.leaveExtest.sec with boundary := data } }).emit (.jtag pins))) ∧
    (∀ data, ∀ c ∈ [Instr.extest data, .extestPulse data, .extestTrain data], ∃ e : Dev, Runs c s (fun _ => e) ∧
      e.sec.boundary = data ∧ e.sec.extest = true ∧ (∀ p : Fin 64, e.flag (F.MAC_STATUS_link p) = false) ∧
      (∀ l : Fin 64, e.flag (F.HSL_STATUS_cdr_lock l) = false)) ∧
    (s.Up → s.dev.servesDebug = true → s.dev.sec.failed < 3 → ∃ rnd : List Byte, rnd.length = 32 ∧ Runs .dbgChal s (fun d =>
      let c := rnd ++ d.wordBe R.SEC_SERIAL_HI ++ d.wordBe R.SEC_SERIAL_LO ++ d.wordBe R.TOP_ID ++
        beBytes 4 ((d.sec.attempts + 1) % 2 ^ 32)
      ({ d.draw with sec := { d.sec with challenge := some c, attempts := (d.sec.attempts + 1) % 2 ^ 32 } }).emit (.jtag c))) ∧
    (s.Up → s.dev.servesDebug = false → Runs .dbgChal s (fun d => d.emit (.jtag (List.replicate 48 0)))) ∧
    (∀ (slot : Fin 256) (key signature : List Byte), s.Up → s.dev.servesDebug = true → s.dev.sec.failed < 3 → ∃ ok : Bool,
      (ok = true → slot.val < 4 ∧ s.dev.sec.challenge.isSome = true ∧ hasBit (s.dev.get F.SEC_STATUS_slots_prog) slot = true ∧
        hasBit (s.dev.get F.SEC_STATUS_slots_rev) slot = false ∧
        ∀ c, s.dev.sec.challenge = some c → ecdsaVerify key (sha384 c) signature = true) ∧
      Runs (.dbgResp slot key signature) s (fun d =>
        let e := { d with sec := { d.sec with challenge := none } }
        if ok then (e.put F.SEC_STATUS_debug_open 1).fault R.SEC_EVENT 5 E.SEC_DEBUG_OPEN slot
        else ({ e with sec := { e.sec with failed := e.sec.failed + 1 } }).event R.SEC_EVENT 6)))

/-- Power domains (R458, R464–R467): a domain that is to go off goes off, or is held on for its tables; a wake event starts one
that is off; power good makes it usable and lets held resets run, its failure leaves it off with the fault; a request by the host
switches off a domain that may go, is refused with reason 1 where its tables hold it on, then or later, waits while a partial
re-structure needs the domain, and one withdrawn wakes it. -/
def Obligations.DomainSwitching : Prop :=
  ∀ (s : State) (k : Fin 9),
    (s.Up → s.dev.maySwitch k = true → s.dev.wantsOff k = true →
      (s.dev.tableHeld k = false →
        (s.dev.imageNeeds k = false → Runs (.domainOff k) s (Dev.switchOff k)) ∧
        (s.dev.imageNeeds k = true → Runs (.domainOff k) s id)) ∧
      (s.dev.tableHeld k = true →
        (s.dev.bitAt R.PWR_DOM_HOLD k = true → Runs (.domainOff k) s id) ∧
        (s.dev.bitAt R.PWR_DOM_HOLD k = false → Runs (.domainOff k) s (fun d =>
          if hasBit (d.get F.PWR_DOM_OFF_REQ) k then
            (((d.setHold k true).put F.PWR_REFUSE_reason 1).put F.PWR_REFUSE_domain k).event R.PWR_EVENT 2
          else d.setHold k true)))) ∧
    (s.Up → s.dev.maySwitch k = true → s.dev.wantsOff k = false → Runs (.domainOff k) s (Dev.setHold k false)) ∧
    (∀ req : BitVec 9, s.Reaches R.PWR_DOM_OFF_REQ → Runs (.domainOffReq req) s (fun d =>
      let asked := fun (j : Nat) => hasBit (d.get F.PWR_DOM_OFF_REQ) j
      Dev.each (List.range 9) (fun j e =>
        if req.getLsbD j = true then
          if asked j = true ∨ e.maySwitch j = false then e
          else if e.tableHeld j = true then
            (((e.setHold j true).put F.PWR_REFUSE_reason 1).put F.PWR_REFUSE_domain j).event R.PWR_EVENT 2
          else if e.imageNeeds j = true then e
          else e.switchOff j
        else if asked j = true then (e.setHold j false).wake j
        else e) ((d.touched R.PWR_DOM_OFF_REQ).put F.PWR_DOM_OFF_REQ req.toNat))) ∧
    (s.Up → s.dev.domainOn k = false → s.dev.domainEnabled k = true → s.dev.domainChanging k = false →
      hasBit (s.dev.get F.PWR_DOM_OFF_REQ) k = false → s.dev.timeOnlyHolds k = false → Runs (.domainWake k) s (fun d =>
        d.put F.PWR_DOM_STATUS_changing (orBit (d.get F.PWR_DOM_STATUS_changing) k))) ∧
    (s.Up → s.dev.domainChanging k = true →
      Runs (.domainPowerGood k) s (fun d =>
        let e := d.put F.PWR_DOM_STATUS_changing (clrBit (d.get F.PWR_DOM_STATUS_changing) k)
        ((((e.put F.PWR_DOM_STATUS_on (orBit (e.get F.PWR_DOM_STATUS_on) k)).event R.PWR_EVENT 1).when (k == 2)
          Dev.buildPools).domainUsable k).runHeld) ∧
      Runs (.domainPowerFail k) s (fun d => (d.markOff k).fault R.PWR_EVENT 6 E.PWR_DOMAIN_FAIL k)) ∧
    (s.Reaches R.PWR_DOM_OFF_REQ → s.dev.get F.PWR_DOM_OFF_REQ = 0 → s.dev.maySwitch k = true → s.dev.tableHeld k = false →
      s.dev.imageNeeds k = false → Runs (.domainOffReq (BitVec.ofNat 9 (2 ^ k.val))) s (fun d =>
        ((d.touched R.PWR_DOM_OFF_REQ).put F.PWR_DOM_OFF_REQ (2 ^ k.val)).switchOff k)) ∧
    (s.Reaches R.PWR_DOM_OFF_REQ → s.dev.get F.PWR_DOM_OFF_REQ = 2 ^ k.val → Runs (.domainOffReq 0) s (fun d =>
      (((d.touched R.PWR_DOM_OFF_REQ).put F.PWR_DOM_OFF_REQ 0).setHold k false).wake k)) ∧
    (∀ d : Dev, (d.switchOff k).domainOn k = false ∧ (d.switchOff k).flag ⟨R.PWR_EVENT, 0, 1⟩ = true)

/-- Latency tolerance and gating (R461–R463): a tolerance is stored whole, and every unit whose exit it no longer admits starts
to leave its state; an idle engine, an idle cluster and a rope quad with every lane disabled are gated within their tolerance.
The time-only state (R468–R470): its entry is refused with a reason, or clears the ready bits of the datapath and flushes the
queues; 12 µs later the datapath domains are off and the mode is 2; its end wakes the domains, and 120 µs later the mode is
normal. -/
def Obligations.GatingAndTimeOnly : Prop :=
  (∀ s : State,
    (∀ (i : Fin 99) (w : Word), s.Reaches (toleranceReg i) → ∃ old e : Dev, old.csr = s.dev.csr ∧
      Runs (.latencyToleranceWrite i w) s (fun _ => Dev.tolSync old e) ∧
      e.word (toleranceReg i) = w ∧ (∀ a, a ≠ toleranceReg i → e.word a = s.dev.word a) ∧ e.mem = s.dev.mem ∧
      e.lanes = s.dev.lanes ∧ e.raised = s.dev.raised) ∧
    (∀ (k : Fin 8) (e : Fin 12), s.Up → s.dev.regionPresent k = true → s.dev.blockPresent 16 = true → s.dev.domainOn 0 = true →
      e.val ≠ s.dev.expressEngine k → s.dev.engQueue k e = [] → 16 ≤ s.dev.clusterTol k →
      Runs (.engineGate k (some e)) s (Dev.setBit (R.PWR_ENG_GATED k) e true)) ∧
    (∀ k : Fin 8, s.Up → s.dev.regionPresent k = true → s.dev.blockPresent 16 = true → s.dev.domainOn 0 = true →
      (∀ e < 12, s.dev.engQueue k e = []) → (∀ p ∈ clusterPorts k, s.dev.headerFifo p = []) → 40 ≤ s.dev.clusterTol k →
      Runs (.engineGate k none) s (Dev.setBit R.PWR_CL_GATED k true)) ∧
    (∀ r : Fin 2, s.Up → s.dev.blockPresent 13 = true → (∀ i < 8, s.dev.flag (F.RLK_CFG_enable (8 * r + i)) = false) →
      20000 ≤ (s.dev.word (R.PWR_LAT_TOL_ROPE r)).toNat → Runs (.ropeQuadGate r) s (fun d =>
        { d with lanes := { d.lanes with gatedQuads := addOnce r.val d.lanes.gatedQuads } }))) ∧
  (∀ s : State,
    (s.Reaches R.PWR_CTRL → s.dev.get F.PWR_STATE_mode = 0 →
      (s.dev.timeOnlyRefusal = none → Runs .timeOnlyEntry s (fun d =>
        let e := (((((((d.touched R.PWR_CTRL).put F.PWR_CTRL_time_only 1).put F.PWR_STATE_mode 1).put F.TOP_READY_fwd 0).put
          F.TOP_READY_bpm 0).put F.TOP_READY_qsc 0).put F.TOP_READY_sec 0).put F.TOP_READY_msc 0
        Dev.each (List.range 16) Dev.syncTunnel (Dev.each (List.range 81) (fun p x => x.flushPort p 0x26) e))) ∧
      (∀ r k, s.dev.timeOnlyRefusal = some (r, k) → Runs .timeOnlyEntry s (fun d =>
        ((((d.touched R.PWR_CTRL).put F.PWR_CTRL_time_only 0).put F.PWR_REFUSE_reason r).put F.PWR_REFUSE_domain k).event
          R.PWR_EVENT 2))) ∧
    (s.Up → s.dev.get F.PWR_STATE_mode = 1 → ∃ e : Dev, Runs .timeOnlyEntryDone s (fun _ => e) ∧
      e.get F.PWR_STATE_mode = 2 ∧ e.flag ⟨R.PWR_EVENT, 4, 1⟩ = true ∧ ∀ k < 4, e.domainOn k = false) ∧
    (s.Reaches R.PWR_CTRL → s.dev.get F.PWR_STATE_mode = 2 → ∃ e : Dev, Runs .timeOnlyExit s (fun _ => e) ∧
      e.get F.PWR_STATE_mode = 3 ∧ e.get F.PWR_CTRL_time_only = 0 ∧
      ∀ k < 4, s.dev.domainEnabled k = true → hasBit (s.dev.get F.PWR_DOM_OFF_REQ) k = false → s.dev.domainOn k = false →
        e.domainChanging k = true) ∧
    (s.Up → s.dev.get F.PWR_STATE_mode = 3 → Runs .timeOnlyExitDone s (fun d =>
      Dev.each (List.range 16) Dev.syncTunnel ((d.put F.PWR_STATE_mode 0).event R.PWR_EVENT 5))))

/-- Counters and the harvester (R474–R484): a value written is the counter's, marked cleared with its generation raised; a
configuration write sets its mode, its enable and its place in the harvest set; freeze is stored; a snapshot taken makes a
record, one not taken is skipped with its reason; a record written moves the head, one that fails is reported. A snapshot (R482,
R484): skipped, it counts and gives its reason; taken, its record stands to be written at the head's slot with the sequence
number in its bytes 4 to 7. -/
def Obligations.CountersAndHarvest : Prop :=
  (∀ s : State,
    (∀ (i : Fin 8736) (v : BitVec 64), s.Up → s.dev.raised = [] → s.dev.busy = false → s.dev.blockPresent 19 = true →
      s.dev.ctrPresent i = true → s.dev.domainOn 10 = true → s.dev.domainOn (ctrDomain i) = true →
      ∃ u : State, exec (.counterValueWrite i v) s = .next u.commit ∧ (u.dev.ctr i).value = v.toNat % ctrSpan i ∧
        (u.dev.ctr i).cleared = true ∧ (u.dev.ctr i).gen = ((s.dev.ctr i).gen + 1) % 256 ∧ u.dev.csr = s.dev.csr ∧
        u.dev.mem = s.dev.mem ∧ u.flt = s.flt ∧ ∀ j, j ≠ i.val → u.dev.ctr j = s.dev.ctr j) ∧
    (∀ (i : Fin 8736) (w : Word), s.Up → s.dev.raised = [] → s.dev.busy = false → s.dev.blockPresent 19 = true →
      s.dev.ctrPresent i = true → s.dev.domainOn 10 = true → w &&& ~~~0x80FF010F = 0 →
      ∃ u : State, exec (.counterConfigWrite i w) s = .next u.commit ∧ (u.dev.ctr i).enable = w.getLsbD 0 ∧
        (u.dev.ctr i).level = w.getLsbD 1 ∧ (u.dev.ctr i).harvest = w.getLsbD 2 ∧
        (u.dev.ctr i).value = (if (s.dev.ctr i).level = w.getLsbD 1 then (s.dev.ctr i).value else 0) ∧ u.dev.mem = s.dev.mem ∧
        u.flt = s.flt ∧ ∀ j, j ≠ i.val → u.dev.ctr j = s.dev.ctr j) ∧
    (∀ b : Bool, s.Reaches R.CNT_CTRL → ∃ u : State, exec (.counterFreeze b) s = .next u.commit ∧
      u.dev.flag F.CNT_CTRL_freeze = b ∧ u.dev.flag F.CNT_CTRL_harv_en = s.dev.flag F.CNT_CTRL_harv_en ∧
      u.dev.obs = s.dev.obs ∧ u.dev.mem = s.dev.mem) ∧
    (s.Up → s.dev.flag F.TOP_READY_cnt = true → s.dev.snapDue = true ∨ s.dev.flag F.CNT_CTRL_now = true →
      Runs .harvestSnapshot s (fun d => ((if d.flag F.CNT_CTRL_now then d else d.markSnap).put F.CNT_CTRL_now 0).takeSnapshot
        (d.flag F.CNT_CTRL_now))) ∧
    (s.Up → s.dev.snapDue = false → s.dev.flag F.CNT_CTRL_now = false → Runs .harvestSnapshot s id) ∧
    (s.Reaches R.CNT_CTRL → s.dev.flag F.TOP_READY_cnt = true → ∃ e : Dev, e.get F.CNT_CTRL_now = 0 ∧ e.obs = s.dev.obs ∧
      e.mem = s.dev.mem ∧ (∀ a, a ≠ R.CNT_CTRL → a ≠ R.CNT_HARV_STATUS → e.word a = s.dev.word a) ∧
      Runs .harvestNow s (fun _ => e.takeSnapshot true)) ∧
    (∀ x : Record, s.Up → s.dev.obs.record = some x → Runs (.harvestRecordDone true) s (fun d =>
        let e := { d.put F.CNT_HARV_STATUS_writing 0 with obs := { d.obs with record := none } }
        (((e.emit (.record (e.pair R.CNT_HARV_RING_LO R.CNT_HARV_RING_HI + x.slot * e.harvestStride) x.bytes)).put F.CNT_HARV_HEAD
          ((x.slot + 1) % e.harvestSlots)).put F.CNT_HARV_SEQ (leNat (slice x.bytes 4 4))).event R.CNT_EVENT 0) ∧
      Runs (.harvestRecordDone false) s (fun d =>
        ({ d.put F.CNT_HARV_STATUS_writing 0 with obs := { d.obs with record := none } }).fault R.CNT_EVENT 3 E.CNT_DMA_ERR 0))) ∧
  (∀ (d : Dev) (manual : Bool),
    let e := { d with obs := { d.obs with seqNo := (d.obs.seqNo + 1) % 2 ^ 32 } }
    (∀ r, r < 16 → e.skipReason = some r → (d.takeSnapshot manual).get F.CNT_HARV_STATUS_reason = r ∧
      (d.takeSnapshot manual).obs.record = d.obs.record ∧ (d.takeSnapshot manual).obs.skipsSince = d.obs.skipsSince + 1 ∧
      (d.takeSnapshot manual).raised = d.raised ++ [⟨E.CNT_SKIP, r⟩]) ∧
    (e.skipReason = none → ∃ x : Record, (d.takeSnapshot manual).obs.record = some x ∧ x.slot = d.get F.CNT_HARV_HEAD ∧
      slice x.bytes 0 4 = [0x43, 0x4E, 0x54, 0x53] ∧ leNat (slice x.bytes 4 4) = (d.obs.seqNo + 1) % 2 ^ 32 ∧
      (d.takeSnapshot manual).obs.skipsSince = 0 ∧ (d.takeSnapshot manual).flag F.CNT_HARV_STATUS_writing = true))

/-- The cairn ring (R487–R490): the FIFO's oldest entry is written to the ring and the head moves; arming an idle capture empties
the ring and starts under the mode; mode 0 stops capture, and another mode during capture is refused; a host or a time trigger
that is armed triggers. In-service test (R491, R492): each of the six operations starts where its target is there and ready, and
is refused with a reason where another runs, its target is absent or it is not ready; an abort and the end of an operation end
it. -/
def Obligations.CaptureAndTest : Prop :=
  (∀ s : State,
    (∀ c rest, s.Up → s.dev.obs.fifo = c :: rest → Runs .cairnEntryWrite s (fun d =>
      let e := { d with obs := { d.obs with fifo := rest } }
      let x := if d.flag F.CRG_CTRL_dest then
          e.emit (.cairn (d.pair R.CRG_HRING_LO R.CRG_HRING_HI + 160 * d.get F.CRG_HEAD) c.bytes)
        else e.store (ringBase + 256 * d.get F.CRG_HEAD) (c.bytes ++ List.replicate 96 0)
      ((x.put F.CRG_HEAD ((d.get F.CRG_HEAD + 1) % d.ringSize)).sat F.CRG_STATUS_count 1).cairnStop)) ∧
    (s.Reaches R.CRG_CTRL → s.dev.capturing = false → s.dev.get F.CRG_CTRL_mode ≠ 0 → ∃ u : State,
      exec .crgArm s = .next u.commit ∧ u.dev.get F.CRG_STATUS_state = 1 ∧ u.dev.get F.CRG_HEAD = 0 ∧
        u.dev.get F.CRG_STATUS_count = 0 ∧ u.dev.obs.fifo = [] ∧
        u.dev.mem = Memory.clear s.dev.mem ringBase (ringBase + 256 * 16384) ∧
        u.dev.get F.CRG_CTRL_mode = s.dev.get F.CRG_CTRL_mode) ∧
    (∀ (mode : Fin 4) (dest : Bool), s.Reaches R.CRG_CTRL →
      (mode.val = 0 → Runs (.crgModeWrite mode dest) s (fun d =>
        (((d.touched R.CRG_CTRL).put F.CRG_CTRL_mode 0).put F.CRG_CTRL_dest (bit dest)).put F.CRG_STATUS_state 0)) ∧
      (mode.val ≠ 0 → s.dev.capturing = false → Runs (.crgModeWrite mode dest) s (fun d =>
        ((d.touched R.CRG_CTRL).put F.CRG_CTRL_mode mode).put F.CRG_CTRL_dest (bit dest))) ∧
      (mode.val ≠ 0 → s.dev.capturing = true → mode.val ≠ s.dev.get F.CRG_CTRL_mode → Runs (.crgModeWrite mode dest) s (fun d =>
        (d.touched R.CRG_CTRL).event R.CRG_EVENT 2))) ∧
    (s.Up → s.dev.mayTrigger 3 = true →
      s.dev.get F.CRG_TRIG_TIME_SEC * 1000000000 + s.dev.get F.CRG_TRIG_TIME_NS ≤ s.dev.nowNs →
      Runs .crgTimeTrigger s (fun d => d.trigger.cairnStop)) ∧
    (s.Reaches R.CRG_CTRL → s.dev.mayTrigger 2 = true → Runs .crgHostTrigger s (fun d =>
      (d.touched R.CRG_CTRL).trigger.cairnStop)) ∧
    (∀ d : Dev, d.trigger.get F.CRG_STATUS_state = 2 ∧ d.trigger.flag ⟨R.CRG_EVENT, 0, 1⟩ = true ∧
      d.trigger.obs.postLeft = min (d.get F.CRG_TRIG_post) (d.ringSize - 1))) ∧
  (∀ s : State,
    (s.Reaches R.TST_CTRL → ∀ x ∈ [(Instr.bufferSweep, 1), (.engineBist, 2), (.tdcSelfTest, 3), (.eyeScan, 4), (.ringBist, 5),
        (.tableBist, 6)],
      (s.dev.obs.testing = none → s.dev.testAbsent x.2 = false → s.dev.testReady x.2 = true → ∃ e : Dev,
        Runs x.1 s (fun _ => { e.testBegin x.2 with obs := { (e.testBegin x.2).obs with
          testing := some x.2, testUnit := ((e.testBegin x.2).word R.TST_TARGET).toNat } }) ∧
        e.get F.TST_STATUS_state = 1 ∧ e.get F.TST_STATUS_reason = 0 ∧ e.flag F.TST_CTRL_go = true ∧ e.obs = s.dev.obs ∧
        e.mem = s.dev.mem) ∧
      (s.dev.obs.testing.isSome = true → Runs x.1 s (fun d =>
        (((d.touched R.TST_CTRL).put F.TST_CTRL_op x.2).put F.TST_STATUS_reason 1).event R.TST_EVENT 2)) ∧
      (s.dev.obs.testing = none → s.dev.testAbsent x.2 = true → Runs x.1 s (fun d =>
        ((((((d.touched R.TST_CTRL).put F.TST_CTRL_op x.2).put F.TST_STATUS_reason 3).event R.TST_EVENT 2).put
          F.TST_STATUS_state 4).put F.TST_CTRL_go 0)))) ∧
    (s.Reaches R.TST_CTRL → s.dev.obs.testing.isSome = true → ∃ u : State, exec .tstAbort s = .next u.commit ∧
      u.dev.obs.testing = none ∧ u.dev.obs.sweep = [] ∧ u.dev.get F.TST_STATUS_state = 5 ∧ u.dev.flag F.TST_CTRL_go = false ∧
      (∀ i : Fin 4, u.dev.get (F.TST_RES i) = 0) ∧ u.dev.mem = s.dev.mem) ∧
    (∀ failed r0 r1, s.Up → s.dev.obs.testing = some 4 → Runs (.tstDone failed r0 r1) s (fun d =>
      let e := (((((d.put (F.TST_RES 0) r0.toNat).put (F.TST_RES 1) r1.toNat).put F.TST_STATUS_state 2).put F.TST_CTRL_go 0).event
        R.TST_EVENT 0).testWipe 4
      { e with obs := { e.obs with testing := none, testMem := none, sweep := [] } })) ∧
    (∀ failed r0 r1, s.Up → s.dev.obs.testing = some 5 → r0 ≠ 0 → Runs (.tstDone failed r0 r1) s (fun d =>
      let e := ((((((d.put (F.TST_RES 0) r0.toNat).raise E.TST_MEM_FAIL r0.toNat).put F.TST_STATUS_state 3).put F.TST_CTRL_go 0).event
        R.TST_EVENT 0).event R.TST_EVENT 1).clearMem ringBase (ringBase + 256 * 16384)
      { e with obs := { e.obs with testing := none, testMem := none, sweep := [] } })) ∧
    (∀ (failed : List (BitVec 21)) (r0 r1 : Word) (op : Nat), s.Up → s.dev.obs.testing = some op →
      ∃ u : State, exec (.tstDone failed r0 r1) s = .next u.commit ∧ u.dev.obs.testing = none ∧ u.dev.obs.sweep = [] ∧
        u.dev.flag F.TST_CTRL_go = false ∧ u.dev.flag ⟨R.TST_EVENT, 0, 1⟩ = true ∧ u.dev.obs.testMem = none ∧
        u.dev.mem = (if op = 5 then Memory.clear s.dev.mem ringBase (ringBase + 256 * 16384)
          else match s.dev.obs.testMem with | some (lo, hi) => Memory.clear s.dev.mem lo hi | none => s.dev.mem) ∧
        u.dev.get F.TST_STATUS_state = (if (match op with
          | 1 => failed.any (fun h => s.dev.obs.sweep.contains h.toNat)
          | 3 => decide (r0.toInt < -3) || decide (3 < r0.toInt)
          | 4 => false
          | _ => r0 != 0) = true then 3 else 2)))

/-- The host's side of the fault unit (R503–R505, R510): a pop removes the oldest log entry; a window that waits for nothing
closes; a release while halted asks for a warm reset; end_coast ends coast and completes what waited for it; a reaction is
stored, and a block reset for a block that takes none is refused with its event. -/
def Obligations.FaultCommands : Prop :=
  ∀ s : State,
    (s.Reaches R.FLT_LOG_POP → exec .logPop s = .next (s.begin.onDev (Dev.endHold R.FLT_LOG_POP)).logPop.commit ∧
      s.logPop.flt.log = s.flt.log.drop 1 ∧ s.logPop.flt.windows = s.flt.windows) ∧
    (∀ (sub : Fin 8) (w : Window), s.Up → Sparse.get? s.flt.windows sub.val = some w → w.await = .nothing →
      ∃ u : State, exec (.windowClose sub) s = .next u.commit ∧ Sparse.get? u.flt.windows sub.val = none ∧ u.flt.log = s.flt.log ∧
        (∀ k, k ≠ sub.val → Sparse.get? u.flt.windows k = Sparse.get? s.flt.windows k) ∧ u.dev.mem = s.dev.mem) ∧
    (s.Reaches R.FLT_CTRL → s.dev.halted = true →
      exec .fltRelease s = .next ((s.begin.onDev (Dev.endHold R.FLT_CTRL)).warmRequest 2 false).1.commit) ∧
    (s.Reaches R.FLT_CTRL → s.dev.halted = false → Runs .fltRelease s (Dev.endHold R.FLT_CTRL)) ∧
    (∀ sub : Fin 8, s.Up → (∀ w, Sparse.get? s.flt.windows sub.val = some w → w.await ≠ .nothing) → Runs (.windowClose sub) s id) ∧
    (s.Reaches R.FLT_CTRL → ∃ u : State, exec .endCoast s = .next u.commit ∧ u.dev.flag F.FLT_STATUS_coast = false ∧
      u.flt.log = s.flt.log ∧ u.dev.mem = s.dev.mem ∧
      ∀ k w, Sparse.get? u.flt.windows k = some w → w.await ≠ .coast) ∧
    (∀ (e : Fin 512) (r : Fin 8), s.Reaches (R.FLT_REACT e) → (registerAt (R.FLT_REACT e)).isSome = true →
      (r.val ≠ 1 ∨ blockResettable (eventPage e) = true → Runs (.fltReactWrite e r) s (fun d =>
        (d.touched (R.FLT_REACT e)).put (F.FLT_REACT_reaction e) r)) ∧
      (r.val = 1 → blockResettable (eventPage e) = false → Runs (.fltReactWrite e r) s (fun d =>
        (d.touched (R.FLT_REACT e)).event R.FLT_EVENT 1)))

/-- One new event of a class with reaction 0 (R496, R505–R507): where the log has room and holds no entry of it, it is appended
as its newest entry with its code, class, instance, time and subsystem, and its class is counted and pending; a log that is full
drops it and sets FLT_EVENT.log_ovf. A repeat (R506): an event that the log holds raises its entry's count, at most to 255, and
the count of its class; it opens no window, takes no reaction and does not escalate. -/
def Obligations.EventsEnter : Prop :=
  (∀ (s : State) (e : Ev), eventClass e.code < 4 →
    s.flt.log.any (LogEntry.names e) = false →
    let x : State × List (Ev × Bool) := State.enter (s, []) e
    x.1.dev.get (F.FLT_CNT (eventClass e.code)) = satAdd 32 (s.dev.get (F.FLT_CNT (eventClass e.code))) 1 ∧
    x.1.dev.bitAt R.FLT_PEND (eventClass e.code) = true ∧
    (s.flt.log.length < 64 → ∃ l : LogEntry, x.1.flt.log = s.flt.log ++ [l] ∧ l.code = e.code ∧ l.inst = e.inst ∧
      l.cls = eventClass e.code ∧ l.repeats = 0 ∧ l.subsys = eventSubsystem e ∧ l.ns = nsOf s.dev.now ∧
      l.sec = secOf s.dev.now % 2 ^ 32 ∧ l.timeValid = s.dev.timeReady ∧ x.2 = [(e, true)]) ∧
    (s.flt.log.length = 64 → x.1.flt = s.flt ∧ x.1.dev.bitAt R.FLT_EVENT 0 = true ∧ x.2 = [(e, false)])) ∧
  (∀ (s : State) (e : Ev), eventClass e.code < 4 → s.flt.log.any (LogEntry.names e) = true →
    let t : State := s.occurrence [e]
    t.flt.windows = s.flt.windows ∧ t.irq = s.irq ∧ t.pending = s.pending ∧
    t.flt.log = s.flt.log.map (fun l => if LogEntry.names e l then { l with repeats := min 255 (l.repeats + 1) } else l) ∧
    t.dev.get (F.FLT_CNT (eventClass e.code)) = satAdd 32 (s.dev.get (F.FLT_CNT (eventClass e.code))) 1 ∧
    t.dev.bitAt R.FLT_PEND (eventClass e.code) = true ∧ { t.dev with csr := [] } = { s.dev with csr := [] } ∧
    (∀ a, a ∉ [(F.FLT_CNT (eventClass e.code)).addr, R.FLT_PEND, R.FLT_LOG_0, R.FLT_LOG_1, R.FLT_LOG_2, R.FLT_LOG_3, R.FLT_LOG_COUNT,
      R.FLT_STATUS] → t.dev.word a = s.dev.word a) ∧
    t.dev.flag F.FLT_STATUS_halted = s.dev.flag F.FLT_STATUS_halted ∧ t.dev.flag F.FLT_STATUS_coast = s.dev.flag F.FLT_STATUS_coast)

/-- The fault log keeps its bounds (R505) whatever command runs: at most 64 entries, one for each event code and instance, none
above 255 repeats. -/
def Obligations.LogKept : Prop :=
  ∀ s t : State, s.flt.Kept → step s = .next t → t.flt.Kept

/-- What commands of registers alone leave (the frame of R129, R132–R136, R248, R397, R413, R462, R464, R501): each named command
changes the registers named with it and raises events, and leaves every other register, every memory and every unit as it was. -/
def Obligations.RegisterFrames : Prop :=
  ∀ (s : State) (p : Fin 64) (q : Fin 81) (l : Fin 64) (i : Fin 12) (k : Fin 4) (g : Fin 8) (n : Fin 9) (errors : Nat)
    (engine : Option (Fin 12)) (b : Bool),
    ∀ x ∈ ([(.thermWarn, [R.TOP_EVENT]), (.thermCrit, [R.TOP_EVENT]), (.linkTrainingDone p, [R.MAC_STATUS p]),
        (.ilkNChange b, [R.RDN_STATUS]), (.domainWake n, [R.PWR_DOM_STATUS]), (.domainPowerFail n, [R.PWR_DOM_STATUS, R.PWR_EVENT]),
        (.controlRampEnd, [R.TBS_STATUS, R.TBS_FF, R.TBS_EVENT]),
        (.ppsAlignLost k, [R.OUT_PPS_STATUS k, R.OUT_EVENT, R.OUT_LAST]), (.prbsLock ⟨l, errors⟩, [R.HSL_STATUS l, R.HSL_PRBS_ERR_LO l, R.HSL_PRBS_ERR_HI l]),
        (.prbsLockLoss l errors, [R.HSL_STATUS l, R.HSL_EVENT l, R.HSL_PRBS_ERR_LO l, R.HSL_PRBS_ERR_HI l]),
        (.preemptVerify q b, [R.QSC_PREEMPT q, R.QSC_EVENT q]),
        (.dllRelock (i.castLE (by decide)), [R.OUT_CLK_STATUS i]),
        (.dllUnlock (i.castLE (by decide)), [R.OUT_CLK_STATUS i, R.OUT_EVENT, R.OUT_LAST, R.OUT_STATUS]),
        (.engineGate g engine, [R.PWR_ENG_GATED g, R.PWR_CL_GATED])] : List (Instr × List Nat)),
      ∃ e : Dev, Runs x.1 s (fun _ => e) ∧ { e with csr := [], raised := [] } = { s.begin.dev with csr := [], raised := [] } ∧
        ∀ a, a ∉ x.2 → e.word a = s.dev.word a

/-- What commands of one unit leave: beside the registers, each named command changes its own unit and what it sends or raises,
and nothing of the others; of the memories none but the report memory at the end of an attestation and one entry of the cairn
ring. -/
def Obligations.UnitFrames : Prop :=
  ∀ (s : State) (x : Fin 2) (k : Fin 4) (g : Fin 8) (i : Fin 12) (c : Fin 80) (c' : Fin 92) (ring : Fin 16) (n : Fin 32) (q : Fin 2)
    (a b : Nat) (groups : BitVec 8) (r : Trim) (ok : Bool) (t : Option Int) (bs pins : List Byte) (failed : List (BitVec 21)) (r0 r1 : Word),
    Leaves (fun d => { d with refs := {} }) .ptpPostTimeout s ∧
    Leaves (fun d => { d with csr := [], refs := {} }) .autoService s ∧
    Leaves (fun d => { d with fwd := {} }) .activityHalving s ∧
    Leaves (fun d => { d with csr := [], fwd := {} }) (.retireDone g i) s ∧
    (∀ y ∈ [Instr.cacheRefill k groups, .cacheDrain k groups], Leaves (fun d => { d with csr := [], bpm := {}, fresh := 0 }) y s) ∧
    Leaves (fun d => { d with csr := [], obs := {} }) .crgTimeTrigger s ∧
    Leaves (fun d => { d with csr := [], obs := {}, raised := [], sent := [] }) (.harvestRecordDone ok) s ∧
    Leaves (fun d => { d with csr := [], mem := [], bpm := {}, obs := {}, raised := [] }) (.tstDone failed r0 r1) s ∧
    (∀ y ∈ [Instr.tempStale, .learnMinute, .modelRefit], Leaves (fun d => { d with csr := [], learn := {}, raised := [] }) y s) ∧
    (∀ y ∈ [Instr.ageingUpdate x, .dpllLocked x, .secondEntry t], Leaves (fun d => { d with csr := [], dplls := [], learn := {} }) y s) ∧
    Leaves (fun d => { d with csr := [], tbs := {} }) .slewDone s ∧
    Leaves (fun d => { d with csr := [], tdc := [] }) (.tdcPeriodicMeasure c a) s ∧
    (∀ y ∈ [Instr.tdcCalPair c' a b, .tdcTrimRun c' r], Leaves (fun d => { d with csr := [], tdc := [], tbs := {}, phx := [], raised := [] }) y s) ∧
    Leaves (fun d => { d with csr := [], sec := {}, fresh := 0, raised := [] }) (.otpOpDone ok) s ∧
    (∀ y ∈ [Instr.aerError ok n, .completionTimeout ring], Leaves (fun d => { d with csr := [], host := {}, raised := [] }) y s) ∧
    Leaves (fun d => { d with host := {} }) .perstNRelease s ∧
    Leaves (fun d => { d with lanes := {} }) (.ropeQuadGate q) s ∧
    Leaves (fun d => { d with csr := [], img := {}, raised := [] }) .flashTimeout s ∧
    Leaves (fun d => { d with csr := [], attempt := none }) .rootRelockTimer s ∧
    Leaves (fun d => { d with csr := [], pps := [], sent := [] }) (.ppsEdge k) s ∧
    (∀ j : Fin 16, Leaves (fun d => { d with csr := [], pps := [], raised := [] }) (.dllUnlock j) s ∧
      Leaves (fun d => { d with csr := [], pps := [] }) (.dllRelock j) s) ∧
    (∀ y ∈ [Instr.bypass bs, .idcode, .samplePreload pins bs], Leaves (fun d => { d with sec := {}, sent := [] }) y s) ∧
    (∃ e : Dev, Runs .attestationDone s (fun _ => e) ∧
      { e with csr := [], mem := [], sec := {}, fresh := 0 } = { s.begin.dev with csr := [], mem := [], sec := {}, fresh := 0 } ∧
      ∀ y, y < reportBase ∨ reportBase + 448 ≤ y ∧ reportBase + s.dev.sec.report.length + 96 ≤ y → e.byte y = s.dev.byte y) ∧
    (∃ e : Dev, Runs .cairnEntryWrite s (fun _ => e) ∧
      { e with csr := [], mem := [], obs := {}, sent := [] } = { s.begin.dev with csr := [], mem := [], obs := {}, sent := [] } ∧
      ∀ y, (s.dev.flag F.CRG_CTRL_dest = true ∨ ∀ c ∈ s.dev.obs.fifo.head?, y < ringBase + 256 * s.dev.get F.CRG_HEAD ∨
        ringBase + 256 * s.dev.get F.CRG_HEAD + (c.bytes.length + 96) ≤ y) → e.byte y = s.dev.byte y)
end

