-- ==== Sys2Proof/Laws/Bits.lean ====
section
/-! SUPPORT. Laws of bit fields: what a field reads after it or another one was written. -/

namespace Sys2Proof.Machine

theorem getLsbD_fieldMask (lsb width i : Nat) :
    (fieldMask lsb width).getLsbD i = (decide (i < 32) && decide (lsb ≤ i) && decide (i < lsb + width)) := by
  rw [Bool.eq_iff_iff]
  simp only [fieldMask, BitVec.getLsbD_shiftLeft, BitVec.getLsbD_ofNat, Nat.testBit_two_pow_sub_one, Bool.and_eq_true,
    decide_eq_true_eq, Bool.not_eq_true', decide_eq_false_iff_not]
  omega

theorem getLsbD_setBits (w : Word) (lsb width v i : Nat) :
    (setBits w lsb width v).getLsbD i =
      if i < 32 ∧ lsb ≤ i ∧ i < lsb + width then v.testBit (i - lsb) else w.getLsbD i := by
  have hlt : ¬ i < 32 → w.getLsbD i = false := fun h => BitVec.getLsbD_of_ge w i (by omega)
  simp only [setBits, BitVec.getLsbD_or, BitVec.getLsbD_and, BitVec.getLsbD_not, getLsbD_fieldMask, BitVec.getLsbD_shiftLeft,
    BitVec.getLsbD_ofNat, Nat.testBit_mod_two_pow]
  by_cases h : i < 32 ∧ lsb ≤ i ∧ i < lsb + width
  · have h1 : ¬ i < lsb ∧ i - lsb < 32 ∧ i - lsb < width := by omega
    simp [h, h1]
  · rw [if_neg h]
    by_cases h1 : i < 32
    · by_cases h2 : lsb ≤ i
      · have h3 : ¬ i - lsb < width ∧ ¬ i < lsb + width := by omega
        simp [h1, h2, h3]
      · simp [h1, h2, Nat.lt_of_not_le h2]
    · simp [h1, hlt h1]

/-- A field reads what was written to it. -/
theorem bits_setBits_same (w : Word) {lsb width : Nat} (v : Nat) (h : lsb + width ≤ 32) :
    bits (setBits w lsb width v) lsb width = v % 2 ^ width := by
  refine Nat.eq_of_testBit_eq fun i => ?_
  simp only [bits, BitVec.testBit_toNat, BitVec.getLsbD_extractLsb', getLsbD_setBits, Nat.testBit_mod_two_pow]
  by_cases hi : i < width
  · have : lsb + i < 32 ∧ lsb ≤ lsb + i ∧ lsb + i < lsb + width := by omega
    simp [hi, this]
  · simp [hi]

/-- A field reads as before after another field was written. -/
theorem bits_setBits_ne (w : Word) {lsb width l n : Nat} (v : Nat) (h : l + n ≤ lsb ∨ lsb + width ≤ l) :
    bits (setBits w lsb width v) l n = bits w l n := by
  refine Nat.eq_of_testBit_eq fun i => ?_
  simp only [bits, BitVec.testBit_toNat, BitVec.getLsbD_extractLsb', getLsbD_setBits]
  by_cases hi : i < n
  · have : ¬ (l + i < 32 ∧ lsb ≤ l + i ∧ l + i < lsb + width) := by omega
    simp only [this, if_false]
  · simp [hi]

end Sys2Proof.Machine
end

