-- ==== Sys2Proof/Laws/Sparse.lean ====
section
/-! SUPPORT. Laws of the sparse tables and of the memories kept in them: a read after a write, the canonical form. -/

namespace Sys2Proof.Machine

variable {α : Type}

/-! ### Tables -/

theorem Sparse.get?_del_same (m : Sparse α) (k : Nat) : Sparse.get? (Sparse.del m k) k = none := by
  induction m with
  | nil => rfl
  | cons p m ih => by_cases h : p.1 = k <;> simp [Sparse.del, Sparse.get?, h, ih]

theorem Sparse.get?_del_ne (m : Sparse α) {k j : Nat} (h : k ≠ j) : Sparse.get? (Sparse.del m k) j = Sparse.get? m j := by
  induction m with
  | nil => rfl
  | cons p m ih =>
    by_cases hp : p.1 = k
    · have : p.1 ≠ j := by omega
      simp [Sparse.del, Sparse.get?, hp, ih, h]
    · simp [Sparse.del, Sparse.get?, hp, ih]

theorem Sparse.get?_ins_same (m : Sparse α) (k : Nat) (v : α) (h : Sparse.get? m k = none) :
    Sparse.get? (Sparse.ins m k v) k = some v := by
  induction m with
  | nil => simp [Sparse.ins, Sparse.get?]
  | cons p m ih =>
    by_cases hp : p.1 = k
    · simp [Sparse.get?, hp] at h
    · simp only [Sparse.get?, hp, if_false] at h
      by_cases hk : k < p.1 <;> simp [Sparse.ins, Sparse.get?, hk, hp, ih h]

theorem Sparse.get?_ins_ne (m : Sparse α) {k j : Nat} (v : α) (h : k ≠ j) :
    Sparse.get? (Sparse.ins m k v) j = Sparse.get? m j := by
  induction m with
  | nil => simp [Sparse.ins, Sparse.get?, h]
  | cons p m ih => by_cases hk : k < p.1 <;> simp [Sparse.ins, Sparse.get?, hk, h, ih]

@[simp] theorem Sparse.get?_put_same (m : Sparse α) (k : Nat) (v : α) : Sparse.get? (Sparse.put m k v) k = some v :=
  Sparse.get?_ins_same _ _ _ (Sparse.get?_del_same m k)

theorem Sparse.get?_put_ne (m : Sparse α) {k j : Nat} (v : α) (h : k ≠ j) :
    Sparse.get? (Sparse.put m k v) j = Sparse.get? m j := by
  rw [Sparse.put, Sparse.get?_ins_ne _ _ h, Sparse.get?_del_ne _ h]

/-! ### Strictly rising keys -/

/-- Every key of a table lies above `k`. -/
theorem Sparse.sorted_cons (p : Nat × α) (m : Sparse α) :
    Sparse.sorted (p :: m) = true ↔ (∀ q ∈ m, p.1 < q.1) ∧ Sparse.sorted m = true := by
  induction m generalizing p with
  | nil => simp [Sparse.sorted]
  | cons q m ih =>
    have hq := ih q
    simp only [Sparse.sorted, Bool.and_eq_true, decide_eq_true_eq, List.mem_cons, forall_eq_or_imp]
    constructor
    · rintro ⟨h1, h2⟩
      exact ⟨⟨h1, fun r hr => lt_trans h1 ((hq.1 h2).1 r hr)⟩, h2⟩
    · rintro ⟨⟨h1, -⟩, h2⟩
      exact ⟨h1, h2⟩

theorem Sparse.mem_del {m : Sparse α} {k : Nat} {q : Nat × α} (h : q ∈ Sparse.del m k) : q ∈ m ∧ q.1 ≠ k := by
  induction m with
  | nil => simp [Sparse.del] at h
  | cons p m ih =>
    by_cases hp : p.1 = k
    · simp only [Sparse.del, hp, if_true] at h
      exact ⟨List.mem_cons_of_mem _ (ih h).1, (ih h).2⟩
    · simp only [Sparse.del, hp, if_false, List.mem_cons] at h
      rcases h with rfl | h
      · exact ⟨List.mem_cons_self, hp⟩
      · exact ⟨List.mem_cons_of_mem _ (ih h).1, (ih h).2⟩

theorem Sparse.sorted_del {m : Sparse α} (k : Nat) (h : Sparse.sorted m = true) : Sparse.sorted (Sparse.del m k) = true := by
  induction m with
  | nil => rfl
  | cons p m ih =>
    obtain ⟨h1, h2⟩ := (Sparse.sorted_cons p m).1 h
    by_cases hp : p.1 = k
    · simpa [Sparse.del, hp] using ih h2
    · simp only [Sparse.del, hp, if_false]
      exact (Sparse.sorted_cons _ _).2 ⟨fun q hq => h1 q (Sparse.mem_del hq).1, ih h2⟩

theorem Sparse.mem_ins {m : Sparse α} {k : Nat} {v : α} {q : Nat × α} : q ∈ Sparse.ins m k v ↔ q = (k, v) ∨ q ∈ m := by
  induction m with
  | nil => simp [Sparse.ins]
  | cons p m ih =>
    by_cases hk : k < p.1
    · simp [Sparse.ins, hk]
    · simp only [Sparse.ins, hk, if_false, List.mem_cons, ih]
      tauto

theorem Sparse.sorted_ins {m : Sparse α} {k : Nat} (v : α) (h : Sparse.sorted m = true) (hk : ∀ q ∈ m, q.1 ≠ k) :
    Sparse.sorted (Sparse.ins m k v) = true := by
  induction m with
  | nil => rfl
  | cons p m ih =>
    obtain ⟨h1, h2⟩ := (Sparse.sorted_cons p m).1 h
    by_cases hp : k < p.1
    · simp only [Sparse.ins, hp, if_true]
      refine (Sparse.sorted_cons _ _).2 ⟨fun q hq => ?_, h⟩
      rcases List.mem_cons.1 hq with rfl | hq
      · exact hp
      · exact lt_trans hp (h1 q hq)
    · simp only [Sparse.ins, hp, if_false]
      have hne : p.1 ≠ k := hk p List.mem_cons_self
      refine (Sparse.sorted_cons _ _).2 ⟨fun q hq => ?_, ih h2 fun q hq => hk q (List.mem_cons_of_mem _ hq)⟩
      rcases Sparse.mem_ins.1 hq with rfl | hq
      · show p.1 < k
        omega
      · exact h1 q hq

theorem Sparse.sorted_put {m : Sparse α} (k : Nat) (v : α) (h : Sparse.sorted m = true) :
    Sparse.sorted (Sparse.put m k v) = true :=
  Sparse.sorted_ins v (Sparse.sorted_del k h) fun _ hq => (Sparse.mem_del hq).2

theorem Sparse.mem_put {m : Sparse α} {k : Nat} {v : α} {q : Nat × α} (h : q ∈ Sparse.put m k v) : q = (k, v) ∨ q ∈ m := by
  rcases Sparse.mem_ins.1 h with h | h
  · exact .inl h
  · exact .inr (Sparse.mem_del h).1

/-! ### Memories -/

theorem Memory.wf_iff (m : List Host.Cell) : Memory.wf m = true ↔ Sparse.sorted m = true ∧ ∀ c ∈ m, c.2 ≠ 0 := by
  simp [Memory.wf, List.all_eq_true]

@[simp] theorem Memory.get_put_same (m : List Host.Cell) (a : Nat) (b : Byte) : Memory.get (Memory.put m a b) a = b := by
  by_cases h : b = 0
  · rw [Memory.put, if_pos h, Memory.get, Sparse.get?_del_same, h]
    rfl
  · rw [Memory.put, if_neg h, Memory.get, Sparse.get?_put_same]
    rfl

theorem Memory.get_put_ne (m : List Host.Cell) {a x : Nat} (b : Byte) (h : a ≠ x) :
    Memory.get (Memory.put m a b) x = Memory.get m x := by
  by_cases hb : b = 0
  · rw [Memory.put, if_pos hb, Memory.get, Sparse.get?_del_ne _ h, Memory.get]
  · rw [Memory.put, if_neg hb, Memory.get, Sparse.get?_put_ne _ _ h, Memory.get]

/-- A write of one byte keeps the canonical form. -/
theorem Memory.wf_put {m : List Host.Cell} (a : Nat) (b : Byte) (h : Memory.wf m = true) : Memory.wf (Memory.put m a b) = true := by
  obtain ⟨h1, h2⟩ := (Memory.wf_iff m).1 h
  by_cases hb : b = 0
  · simp only [Memory.put, hb, if_true]
    exact (Memory.wf_iff _).2 ⟨Sparse.sorted_del a h1, fun c hc => h2 c (Sparse.mem_del hc).1⟩
  · simp only [Memory.put, hb, if_false]
    refine (Memory.wf_iff _).2 ⟨Sparse.sorted_put a b h1, fun c hc => ?_⟩
    rcases Sparse.mem_put hc with rfl | hc
    · exact hb
    · exact h2 c hc

theorem Sparse.sorted_filter {m : Sparse α} (p : Nat × α → Bool) (h : Sparse.sorted m = true) :
    Sparse.sorted (m.filter p) = true := by
  induction m with
  | nil => rfl
  | cons q m ih =>
    obtain ⟨h1, h2⟩ := (Sparse.sorted_cons q m).1 h
    by_cases hq : p q = true
    · rw [List.filter_cons_of_pos hq]
      exact (Sparse.sorted_cons _ _).2 ⟨fun r hr => h1 r (List.mem_of_mem_filter hr), ih h2⟩
    · rw [List.filter_cons_of_neg (by simpa using hq)]
      exact ih h2

/-- Clearing a range keeps the canonical form. -/
theorem Memory.wf_clear {m : List Host.Cell} (lo hi : Nat) (h : Memory.wf m = true) : Memory.wf (Memory.clear m lo hi) = true := by
  obtain ⟨h1, h2⟩ := (Memory.wf_iff m).1 h
  exact (Memory.wf_iff _).2 ⟨Sparse.sorted_filter _ h1, fun c hc => h2 c (List.mem_of_mem_filter hc)⟩

/-- A write of bytes keeps the canonical form. -/
theorem Memory.wf_write {m : List Host.Cell} (a : Nat) (bs : List Byte) (h : Memory.wf m = true) :
    Memory.wf (Memory.write m a bs) = true := by
  induction bs generalizing m a with
  | nil => exact h
  | cons b bs ih => exact ih (a + 1) (Memory.wf_put a b h)

/-- A write of bytes leaves every address outside them alone. -/
theorem Memory.get_write_out (m : List Host.Cell) (a x : Nat) (bs : List Byte) (h : x < a ∨ a + bs.length ≤ x) :
    Memory.get (Memory.write m a bs) x = Memory.get m x := by
  induction bs generalizing m a with
  | nil => rfl
  | cons b bs ih =>
    have hl : (b :: bs).length = bs.length + 1 := rfl
    rw [Memory.write, ih _ _ (by omega), Memory.get_put_ne _ _ (by omega)]

/-- A read after a write of bytes gives the byte written. -/
theorem Memory.get_write_in (m : List Host.Cell) (a i : Nat) (bs : List Byte) (h : i < bs.length) :
    Memory.get (Memory.write m a bs) (a + i) = bs[i] := by
  induction bs generalizing m a i with
  | nil => simp at h
  | cons b bs ih =>
    cases i with
    | zero =>
      rw [Memory.write, Memory.get_write_out _ _ _ _ (by omega)]
      simp
    | succ i =>
      have := ih (Memory.put m a b) (a + 1) i (by simpa using h)
      rw [Memory.write, show a + (i + 1) = a + 1 + i by omega, this]
      rfl

theorem Sparse.get?_none_of_lt {m : Sparse α} {k : Nat} (h : ∀ q ∈ m, k < q.1) : Sparse.get? m k = none := by
  induction m with
  | nil => rfl
  | cons p m ih =>
    have : p.1 ≠ k := by
      have := h p List.mem_cons_self
      omega
    simp [Sparse.get?, this, ih fun q hq => h q (List.mem_cons_of_mem _ hq)]

end Sys2Proof.Machine
end

