-- ==== Sys2Proof/Laws/State.lean ====
section
/-! SUPPORT. What each update of the state leaves: one lemma for each field and each update, true by definition. -/

namespace Sys2Proof.Machine

variable (d : Dev) (s : State)

/-! ### Updates that are field writes -/

@[simp] theorem Dev.setBit_eq (a i : Nat) (b : Bool) : d.setBit a i b = d.put ⟨a, i, 1⟩ (bit b) := (rfl)
@[simp] theorem Dev.event_eq (a i : Nat) : d.event a i = d.put ⟨a, i, 1⟩ 1 := (rfl)
@[simp] theorem Dev.fault_eq (a i c n : Nat) : d.fault a i c n = (d.put ⟨a, i, 1⟩ 1).raise c n := (rfl)
@[simp] theorem Dev.fltEvent_eq (i : Nat) : d.fltEvent i = d.put ⟨R.FLT_EVENT, i, 1⟩ 1 := (rfl)
@[simp] theorem Dev.sat_eq (f : Fld) (n : Nat) : d.sat f n = d.put f (satAdd f.width (d.get f) n) := (rfl)
@[simp] theorem Dev.wrap_eq (f : Fld) (n : Nat) : d.wrap f n = d.put f ((d.get f + n) % 2 ^ f.width) := (rfl)
@[simp] theorem Dev.sput_eq (f : Fld) (v : Int) : d.sput f v = d.put f (saturate f.width v) := (rfl)
@[simp] theorem Dev.when_true (f : Dev → Dev) : d.when true f = f d := (rfl)
@[simp] theorem Dev.when_false (f : Dev → Dev) : d.when false f = d := (rfl)
@[simp] theorem Dev.each_nil {α : Type} (f : α → Dev → Dev) : Dev.each [] f d = d := (rfl)
@[simp] theorem Dev.each_cons {α : Type} (x : α) (l : List α) (f : α → Dev → Dev) : Dev.each (x :: l) f d = Dev.each l f (f x d) := (rfl)

/-! ### `Dev.setWord` -/

@[simp] theorem Dev.setWord_shadow (a : Nat) (w : Word) : (d.setWord a w).shadow = d.shadow := (rfl)
@[simp] theorem Dev.setWord_parity (a : Nat) (w : Word) : (d.setWord a w).parity = d.parity := (rfl)
@[simp] theorem Dev.setWord_mem (a : Nat) (w : Word) : (d.setWord a w).mem = d.mem := (rfl)
@[simp] theorem Dev.setWord_img (a : Nat) (w : Word) : (d.setWord a w).img = d.img := (rfl)
@[simp] theorem Dev.setWord_rst (a : Nat) (w : Word) : (d.setWord a w).rst = d.rst := (rfl)
@[simp] theorem Dev.setWord_host (a : Nat) (w : Word) : (d.setWord a w).host = d.host := (rfl)
@[simp] theorem Dev.setWord_lanes (a : Nat) (w : Word) : (d.setWord a w).lanes = d.lanes := (rfl)
@[simp] theorem Dev.setWord_ropes (a : Nat) (w : Word) : (d.setWord a w).ropes = d.ropes := (rfl)
@[simp] theorem Dev.setWord_fwd (a : Nat) (w : Word) : (d.setWord a w).fwd = d.fwd := (rfl)
@[simp] theorem Dev.setWord_bpm (a : Nat) (w : Word) : (d.setWord a w).bpm = d.bpm := (rfl)
@[simp] theorem Dev.setWord_qsc (a : Nat) (w : Word) : (d.setWord a w).qsc = d.qsc := (rfl)
@[simp] theorem Dev.setWord_tbs (a : Nat) (w : Word) : (d.setWord a w).tbs = d.tbs := (rfl)
@[simp] theorem Dev.setWord_tdc (a : Nat) (w : Word) : (d.setWord a w).tdc = d.tdc := (rfl)
@[simp] theorem Dev.setWord_obs (a : Nat) (w : Word) : (d.setWord a w).obs = d.obs := (rfl)
@[simp] theorem Dev.setWord_phx (a : Nat) (w : Word) : (d.setWord a w).phx = d.phx := (rfl)
@[simp] theorem Dev.setWord_phxCal (a : Nat) (w : Word) : (d.setWord a w).phxCal = d.phxCal := (rfl)
@[simp] theorem Dev.setWord_refs (a : Nat) (w : Word) : (d.setWord a w).refs = d.refs := (rfl)
@[simp] theorem Dev.setWord_dplls (a : Nat) (w : Word) : (d.setWord a w).dplls = d.dplls := (rfl)
@[simp] theorem Dev.setWord_learn (a : Nat) (w : Word) : (d.setWord a w).learn = d.learn := (rfl)
@[simp] theorem Dev.setWord_attempt (a : Nat) (w : Word) : (d.setWord a w).attempt = d.attempt := (rfl)
@[simp] theorem Dev.setWord_moves (a : Nat) (w : Word) : (d.setWord a w).moves = d.moves := (rfl)
@[simp] theorem Dev.setWord_pps (a : Nat) (w : Word) : (d.setWord a w).pps = d.pps := (rfl)
@[simp] theorem Dev.setWord_outs (a : Nat) (w : Word) : (d.setWord a w).outs = d.outs := (rfl)
@[simp] theorem Dev.setWord_ssc (a : Nat) (w : Word) : (d.setWord a w).ssc = d.ssc := (rfl)
@[simp] theorem Dev.setWord_belay (a : Nat) (w : Word) : (d.setWord a w).belay = d.belay := (rfl)
@[simp] theorem Dev.setWord_sec (a : Nat) (w : Word) : (d.setWord a w).sec = d.sec := (rfl)
@[simp] theorem Dev.setWord_fresh (a : Nat) (w : Word) : (d.setWord a w).fresh = d.fresh := (rfl)
@[simp] theorem Dev.setWord_freshTime (a : Nat) (w : Word) : (d.setWord a w).freshTime = d.freshTime := (rfl)
@[simp] theorem Dev.setWord_raised (a : Nat) (w : Word) : (d.setWord a w).raised = d.raised := (rfl)
@[simp] theorem Dev.setWord_sent (a : Nat) (w : Word) : (d.setWord a w).sent = d.sent := (rfl)

/-! ### `Dev.put` -/

@[simp] theorem Dev.put_shadow (f : Fld) (v : Nat) : (d.put f v).shadow = d.shadow := (rfl)
@[simp] theorem Dev.put_parity (f : Fld) (v : Nat) : (d.put f v).parity = d.parity := (rfl)
@[simp] theorem Dev.put_mem (f : Fld) (v : Nat) : (d.put f v).mem = d.mem := (rfl)
@[simp] theorem Dev.put_img (f : Fld) (v : Nat) : (d.put f v).img = d.img := (rfl)
@[simp] theorem Dev.put_rst (f : Fld) (v : Nat) : (d.put f v).rst = d.rst := (rfl)
@[simp] theorem Dev.put_host (f : Fld) (v : Nat) : (d.put f v).host = d.host := (rfl)
@[simp] theorem Dev.put_lanes (f : Fld) (v : Nat) : (d.put f v).lanes = d.lanes := (rfl)
@[simp] theorem Dev.put_ropes (f : Fld) (v : Nat) : (d.put f v).ropes = d.ropes := (rfl)
@[simp] theorem Dev.put_fwd (f : Fld) (v : Nat) : (d.put f v).fwd = d.fwd := (rfl)
@[simp] theorem Dev.put_bpm (f : Fld) (v : Nat) : (d.put f v).bpm = d.bpm := (rfl)
@[simp] theorem Dev.put_qsc (f : Fld) (v : Nat) : (d.put f v).qsc = d.qsc := (rfl)
@[simp] theorem Dev.put_tbs (f : Fld) (v : Nat) : (d.put f v).tbs = d.tbs := (rfl)
@[simp] theorem Dev.put_tdc (f : Fld) (v : Nat) : (d.put f v).tdc = d.tdc := (rfl)
@[simp] theorem Dev.put_obs (f : Fld) (v : Nat) : (d.put f v).obs = d.obs := (rfl)
@[simp] theorem Dev.put_phx (f : Fld) (v : Nat) : (d.put f v).phx = d.phx := (rfl)
@[simp] theorem Dev.put_phxCal (f : Fld) (v : Nat) : (d.put f v).phxCal = d.phxCal := (rfl)
@[simp] theorem Dev.put_refs (f : Fld) (v : Nat) : (d.put f v).refs = d.refs := (rfl)
@[simp] theorem Dev.put_dplls (f : Fld) (v : Nat) : (d.put f v).dplls = d.dplls := (rfl)
@[simp] theorem Dev.put_learn (f : Fld) (v : Nat) : (d.put f v).learn = d.learn := (rfl)
@[simp] theorem Dev.put_attempt (f : Fld) (v : Nat) : (d.put f v).attempt = d.attempt := (rfl)
@[simp] theorem Dev.put_moves (f : Fld) (v : Nat) : (d.put f v).moves = d.moves := (rfl)
@[simp] theorem Dev.put_pps (f : Fld) (v : Nat) : (d.put f v).pps = d.pps := (rfl)
@[simp] theorem Dev.put_outs (f : Fld) (v : Nat) : (d.put f v).outs = d.outs := (rfl)
@[simp] theorem Dev.put_ssc (f : Fld) (v : Nat) : (d.put f v).ssc = d.ssc := (rfl)
@[simp] theorem Dev.put_belay (f : Fld) (v : Nat) : (d.put f v).belay = d.belay := (rfl)
@[simp] theorem Dev.put_sec (f : Fld) (v : Nat) : (d.put f v).sec = d.sec := (rfl)
@[simp] theorem Dev.put_fresh (f : Fld) (v : Nat) : (d.put f v).fresh = d.fresh := (rfl)
@[simp] theorem Dev.put_freshTime (f : Fld) (v : Nat) : (d.put f v).freshTime = d.freshTime := (rfl)
@[simp] theorem Dev.put_raised (f : Fld) (v : Nat) : (d.put f v).raised = d.raised := (rfl)
@[simp] theorem Dev.put_sent (f : Fld) (v : Nat) : (d.put f v).sent = d.sent := (rfl)

/-! ### `Dev.raise` -/

@[simp] theorem Dev.raise_csr (c n : Nat) : (d.raise c n).csr = d.csr := (rfl)
@[simp] theorem Dev.raise_shadow (c n : Nat) : (d.raise c n).shadow = d.shadow := (rfl)
@[simp] theorem Dev.raise_parity (c n : Nat) : (d.raise c n).parity = d.parity := (rfl)
@[simp] theorem Dev.raise_mem (c n : Nat) : (d.raise c n).mem = d.mem := (rfl)
@[simp] theorem Dev.raise_img (c n : Nat) : (d.raise c n).img = d.img := (rfl)
@[simp] theorem Dev.raise_rst (c n : Nat) : (d.raise c n).rst = d.rst := (rfl)
@[simp] theorem Dev.raise_host (c n : Nat) : (d.raise c n).host = d.host := (rfl)
@[simp] theorem Dev.raise_lanes (c n : Nat) : (d.raise c n).lanes = d.lanes := (rfl)
@[simp] theorem Dev.raise_ropes (c n : Nat) : (d.raise c n).ropes = d.ropes := (rfl)
@[simp] theorem Dev.raise_fwd (c n : Nat) : (d.raise c n).fwd = d.fwd := (rfl)
@[simp] theorem Dev.raise_bpm (c n : Nat) : (d.raise c n).bpm = d.bpm := (rfl)
@[simp] theorem Dev.raise_qsc (c n : Nat) : (d.raise c n).qsc = d.qsc := (rfl)
@[simp] theorem Dev.raise_tbs (c n : Nat) : (d.raise c n).tbs = d.tbs := (rfl)
@[simp] theorem Dev.raise_tdc (c n : Nat) : (d.raise c n).tdc = d.tdc := (rfl)
@[simp] theorem Dev.raise_obs (c n : Nat) : (d.raise c n).obs = d.obs := (rfl)
@[simp] theorem Dev.raise_phx (c n : Nat) : (d.raise c n).phx = d.phx := (rfl)
@[simp] theorem Dev.raise_phxCal (c n : Nat) : (d.raise c n).phxCal = d.phxCal := (rfl)
@[simp] theorem Dev.raise_refs (c n : Nat) : (d.raise c n).refs = d.refs := (rfl)
@[simp] theorem Dev.raise_dplls (c n : Nat) : (d.raise c n).dplls = d.dplls := (rfl)
@[simp] theorem Dev.raise_learn (c n : Nat) : (d.raise c n).learn = d.learn := (rfl)
@[simp] theorem Dev.raise_attempt (c n : Nat) : (d.raise c n).attempt = d.attempt := (rfl)
@[simp] theorem Dev.raise_moves (c n : Nat) : (d.raise c n).moves = d.moves := (rfl)
@[simp] theorem Dev.raise_pps (c n : Nat) : (d.raise c n).pps = d.pps := (rfl)
@[simp] theorem Dev.raise_outs (c n : Nat) : (d.raise c n).outs = d.outs := (rfl)
@[simp] theorem Dev.raise_ssc (c n : Nat) : (d.raise c n).ssc = d.ssc := (rfl)
@[simp] theorem Dev.raise_belay (c n : Nat) : (d.raise c n).belay = d.belay := (rfl)
@[simp] theorem Dev.raise_sec (c n : Nat) : (d.raise c n).sec = d.sec := (rfl)
@[simp] theorem Dev.raise_fresh (c n : Nat) : (d.raise c n).fresh = d.fresh := (rfl)
@[simp] theorem Dev.raise_freshTime (c n : Nat) : (d.raise c n).freshTime = d.freshTime := (rfl)
@[simp] theorem Dev.raise_sent (c n : Nat) : (d.raise c n).sent = d.sent := (rfl)
@[simp] theorem Dev.raise_raised (c n : Nat) : (d.raise c n).raised = d.raised ++ [⟨c, n⟩] := (rfl)

/-! ### `Dev.emit` -/

@[simp] theorem Dev.emit_csr (x : Sent) : (d.emit x).csr = d.csr := (rfl)
@[simp] theorem Dev.emit_shadow (x : Sent) : (d.emit x).shadow = d.shadow := (rfl)
@[simp] theorem Dev.emit_parity (x : Sent) : (d.emit x).parity = d.parity := (rfl)
@[simp] theorem Dev.emit_mem (x : Sent) : (d.emit x).mem = d.mem := (rfl)
@[simp] theorem Dev.emit_img (x : Sent) : (d.emit x).img = d.img := (rfl)
@[simp] theorem Dev.emit_rst (x : Sent) : (d.emit x).rst = d.rst := (rfl)
@[simp] theorem Dev.emit_host (x : Sent) : (d.emit x).host = d.host := (rfl)
@[simp] theorem Dev.emit_lanes (x : Sent) : (d.emit x).lanes = d.lanes := (rfl)
@[simp] theorem Dev.emit_ropes (x : Sent) : (d.emit x).ropes = d.ropes := (rfl)
@[simp] theorem Dev.emit_fwd (x : Sent) : (d.emit x).fwd = d.fwd := (rfl)
@[simp] theorem Dev.emit_bpm (x : Sent) : (d.emit x).bpm = d.bpm := (rfl)
@[simp] theorem Dev.emit_qsc (x : Sent) : (d.emit x).qsc = d.qsc := (rfl)
@[simp] theorem Dev.emit_tbs (x : Sent) : (d.emit x).tbs = d.tbs := (rfl)
@[simp] theorem Dev.emit_tdc (x : Sent) : (d.emit x).tdc = d.tdc := (rfl)
@[simp] theorem Dev.emit_obs (x : Sent) : (d.emit x).obs = d.obs := (rfl)
@[simp] theorem Dev.emit_phx (x : Sent) : (d.emit x).phx = d.phx := (rfl)
@[simp] theorem Dev.emit_phxCal (x : Sent) : (d.emit x).phxCal = d.phxCal := (rfl)
@[simp] theorem Dev.emit_refs (x : Sent) : (d.emit x).refs = d.refs := (rfl)
@[simp] theorem Dev.emit_dplls (x : Sent) : (d.emit x).dplls = d.dplls := (rfl)
@[simp] theorem Dev.emit_learn (x : Sent) : (d.emit x).learn = d.learn := (rfl)
@[simp] theorem Dev.emit_attempt (x : Sent) : (d.emit x).attempt = d.attempt := (rfl)
@[simp] theorem Dev.emit_moves (x : Sent) : (d.emit x).moves = d.moves := (rfl)
@[simp] theorem Dev.emit_pps (x : Sent) : (d.emit x).pps = d.pps := (rfl)
@[simp] theorem Dev.emit_outs (x : Sent) : (d.emit x).outs = d.outs := (rfl)
@[simp] theorem Dev.emit_ssc (x : Sent) : (d.emit x).ssc = d.ssc := (rfl)
@[simp] theorem Dev.emit_belay (x : Sent) : (d.emit x).belay = d.belay := (rfl)
@[simp] theorem Dev.emit_sec (x : Sent) : (d.emit x).sec = d.sec := (rfl)
@[simp] theorem Dev.emit_fresh (x : Sent) : (d.emit x).fresh = d.fresh := (rfl)
@[simp] theorem Dev.emit_freshTime (x : Sent) : (d.emit x).freshTime = d.freshTime := (rfl)
@[simp] theorem Dev.emit_raised (x : Sent) : (d.emit x).raised = d.raised := (rfl)
@[simp] theorem Dev.emit_sent (x : Sent) : (d.emit x).sent = d.sent ++ [x] := (rfl)

/-! ### `Dev.draw` -/

@[simp] theorem Dev.draw_csr : (d.draw).csr = d.csr := (rfl)
@[simp] theorem Dev.draw_shadow : (d.draw).shadow = d.shadow := (rfl)
@[simp] theorem Dev.draw_parity : (d.draw).parity = d.parity := (rfl)
@[simp] theorem Dev.draw_mem : (d.draw).mem = d.mem := (rfl)
@[simp] theorem Dev.draw_img : (d.draw).img = d.img := (rfl)
@[simp] theorem Dev.draw_rst : (d.draw).rst = d.rst := (rfl)
@[simp] theorem Dev.draw_host : (d.draw).host = d.host := (rfl)
@[simp] theorem Dev.draw_lanes : (d.draw).lanes = d.lanes := (rfl)
@[simp] theorem Dev.draw_ropes : (d.draw).ropes = d.ropes := (rfl)
@[simp] theorem Dev.draw_fwd : (d.draw).fwd = d.fwd := (rfl)
@[simp] theorem Dev.draw_bpm : (d.draw).bpm = d.bpm := (rfl)
@[simp] theorem Dev.draw_qsc : (d.draw).qsc = d.qsc := (rfl)
@[simp] theorem Dev.draw_tbs : (d.draw).tbs = d.tbs := (rfl)
@[simp] theorem Dev.draw_tdc : (d.draw).tdc = d.tdc := (rfl)
@[simp] theorem Dev.draw_obs : (d.draw).obs = d.obs := (rfl)
@[simp] theorem Dev.draw_phx : (d.draw).phx = d.phx := (rfl)
@[simp] theorem Dev.draw_phxCal : (d.draw).phxCal = d.phxCal := (rfl)
@[simp] theorem Dev.draw_refs : (d.draw).refs = d.refs := (rfl)
@[simp] theorem Dev.draw_dplls : (d.draw).dplls = d.dplls := (rfl)
@[simp] theorem Dev.draw_learn : (d.draw).learn = d.learn := (rfl)
@[simp] theorem Dev.draw_attempt : (d.draw).attempt = d.attempt := (rfl)
@[simp] theorem Dev.draw_moves : (d.draw).moves = d.moves := (rfl)
@[simp] theorem Dev.draw_pps : (d.draw).pps = d.pps := (rfl)
@[simp] theorem Dev.draw_outs : (d.draw).outs = d.outs := (rfl)
@[simp] theorem Dev.draw_ssc : (d.draw).ssc = d.ssc := (rfl)
@[simp] theorem Dev.draw_belay : (d.draw).belay = d.belay := (rfl)
@[simp] theorem Dev.draw_sec : (d.draw).sec = d.sec := (rfl)
@[simp] theorem Dev.draw_raised : (d.draw).raised = d.raised := (rfl)
@[simp] theorem Dev.draw_sent : (d.draw).sent = d.sent := (rfl)
@[simp] theorem Dev.draw_fresh : d.draw.fresh = d.fresh + 1 := (rfl)
@[simp] theorem Dev.draw_freshTime : d.draw.freshTime = d.freshTime := (rfl)

/-! ### `Dev.drawTime` -/

@[simp] theorem Dev.drawTime_csr : (d.drawTime).csr = d.csr := (rfl)
@[simp] theorem Dev.drawTime_shadow : (d.drawTime).shadow = d.shadow := (rfl)
@[simp] theorem Dev.drawTime_parity : (d.drawTime).parity = d.parity := (rfl)
@[simp] theorem Dev.drawTime_mem : (d.drawTime).mem = d.mem := (rfl)
@[simp] theorem Dev.drawTime_img : (d.drawTime).img = d.img := (rfl)
@[simp] theorem Dev.drawTime_rst : (d.drawTime).rst = d.rst := (rfl)
@[simp] theorem Dev.drawTime_host : (d.drawTime).host = d.host := (rfl)
@[simp] theorem Dev.drawTime_lanes : (d.drawTime).lanes = d.lanes := (rfl)
@[simp] theorem Dev.drawTime_ropes : (d.drawTime).ropes = d.ropes := (rfl)
@[simp] theorem Dev.drawTime_fwd : (d.drawTime).fwd = d.fwd := (rfl)
@[simp] theorem Dev.drawTime_bpm : (d.drawTime).bpm = d.bpm := (rfl)
@[simp] theorem Dev.drawTime_qsc : (d.drawTime).qsc = d.qsc := (rfl)
@[simp] theorem Dev.drawTime_tbs : (d.drawTime).tbs = d.tbs := (rfl)
@[simp] theorem Dev.drawTime_tdc : (d.drawTime).tdc = d.tdc := (rfl)
@[simp] theorem Dev.drawTime_obs : (d.drawTime).obs = d.obs := (rfl)
@[simp] theorem Dev.drawTime_phx : (d.drawTime).phx = d.phx := (rfl)
@[simp] theorem Dev.drawTime_phxCal : (d.drawTime).phxCal = d.phxCal := (rfl)
@[simp] theorem Dev.drawTime_refs : (d.drawTime).refs = d.refs := (rfl)
@[simp] theorem Dev.drawTime_dplls : (d.drawTime).dplls = d.dplls := (rfl)
@[simp] theorem Dev.drawTime_learn : (d.drawTime).learn = d.learn := (rfl)
@[simp] theorem Dev.drawTime_attempt : (d.drawTime).attempt = d.attempt := (rfl)
@[simp] theorem Dev.drawTime_moves : (d.drawTime).moves = d.moves := (rfl)
@[simp] theorem Dev.drawTime_pps : (d.drawTime).pps = d.pps := (rfl)
@[simp] theorem Dev.drawTime_outs : (d.drawTime).outs = d.outs := (rfl)
@[simp] theorem Dev.drawTime_ssc : (d.drawTime).ssc = d.ssc := (rfl)
@[simp] theorem Dev.drawTime_belay : (d.drawTime).belay = d.belay := (rfl)
@[simp] theorem Dev.drawTime_sec : (d.drawTime).sec = d.sec := (rfl)
@[simp] theorem Dev.drawTime_raised : (d.drawTime).raised = d.raised := (rfl)
@[simp] theorem Dev.drawTime_sent : (d.drawTime).sent = d.sent := (rfl)
@[simp] theorem Dev.drawTime_fresh : d.drawTime.fresh = d.fresh := (rfl)
@[simp] theorem Dev.drawTime_freshTime : d.drawTime.freshTime = d.freshTime + 1 := (rfl)

/-! ### `Dev.store` -/

@[simp] theorem Dev.store_csr (a : Nat) (bs : List Byte) : (d.store a bs).csr = d.csr := (rfl)
@[simp] theorem Dev.store_shadow (a : Nat) (bs : List Byte) : (d.store a bs).shadow = d.shadow := (rfl)
@[simp] theorem Dev.store_parity (a : Nat) (bs : List Byte) : (d.store a bs).parity = d.parity := (rfl)
@[simp] theorem Dev.store_img (a : Nat) (bs : List Byte) : (d.store a bs).img = d.img := (rfl)
@[simp] theorem Dev.store_rst (a : Nat) (bs : List Byte) : (d.store a bs).rst = d.rst := (rfl)
@[simp] theorem Dev.store_host (a : Nat) (bs : List Byte) : (d.store a bs).host = d.host := (rfl)
@[simp] theorem Dev.store_lanes (a : Nat) (bs : List Byte) : (d.store a bs).lanes = d.lanes := (rfl)
@[simp] theorem Dev.store_ropes (a : Nat) (bs : List Byte) : (d.store a bs).ropes = d.ropes := (rfl)
@[simp] theorem Dev.store_fwd (a : Nat) (bs : List Byte) : (d.store a bs).fwd = d.fwd := (rfl)
@[simp] theorem Dev.store_bpm (a : Nat) (bs : List Byte) : (d.store a bs).bpm = d.bpm := (rfl)
@[simp] theorem Dev.store_qsc (a : Nat) (bs : List Byte) : (d.store a bs).qsc = d.qsc := (rfl)
@[simp] theorem Dev.store_tbs (a : Nat) (bs : List Byte) : (d.store a bs).tbs = d.tbs := (rfl)
@[simp] theorem Dev.store_tdc (a : Nat) (bs : List Byte) : (d.store a bs).tdc = d.tdc := (rfl)
@[simp] theorem Dev.store_obs (a : Nat) (bs : List Byte) : (d.store a bs).obs = d.obs := (rfl)
@[simp] theorem Dev.store_phx (a : Nat) (bs : List Byte) : (d.store a bs).phx = d.phx := (rfl)
@[simp] theorem Dev.store_phxCal (a : Nat) (bs : List Byte) : (d.store a bs).phxCal = d.phxCal := (rfl)
@[simp] theorem Dev.store_refs (a : Nat) (bs : List Byte) : (d.store a bs).refs = d.refs := (rfl)
@[simp] theorem Dev.store_dplls (a : Nat) (bs : List Byte) : (d.store a bs).dplls = d.dplls := (rfl)
@[simp] theorem Dev.store_learn (a : Nat) (bs : List Byte) : (d.store a bs).learn = d.learn := (rfl)
@[simp] theorem Dev.store_attempt (a : Nat) (bs : List Byte) : (d.store a bs).attempt = d.attempt := (rfl)
@[simp] theorem Dev.store_moves (a : Nat) (bs : List Byte) : (d.store a bs).moves = d.moves := (rfl)
@[simp] theorem Dev.store_pps (a : Nat) (bs : List Byte) : (d.store a bs).pps = d.pps := (rfl)
@[simp] theorem Dev.store_outs (a : Nat) (bs : List Byte) : (d.store a bs).outs = d.outs := (rfl)
@[simp] theorem Dev.store_ssc (a : Nat) (bs : List Byte) : (d.store a bs).ssc = d.ssc := (rfl)
@[simp] theorem Dev.store_belay (a : Nat) (bs : List Byte) : (d.store a bs).belay = d.belay := (rfl)
@[simp] theorem Dev.store_sec (a : Nat) (bs : List Byte) : (d.store a bs).sec = d.sec := (rfl)
@[simp] theorem Dev.store_fresh (a : Nat) (bs : List Byte) : (d.store a bs).fresh = d.fresh := (rfl)
@[simp] theorem Dev.store_freshTime (a : Nat) (bs : List Byte) : (d.store a bs).freshTime = d.freshTime := (rfl)
@[simp] theorem Dev.store_raised (a : Nat) (bs : List Byte) : (d.store a bs).raised = d.raised := (rfl)
@[simp] theorem Dev.store_sent (a : Nat) (bs : List Byte) : (d.store a bs).sent = d.sent := (rfl)
@[simp] theorem Dev.store_mem (a : Nat) (bs : List Byte) : (d.store a bs).mem = Memory.write d.mem a bs := (rfl)

/-! ### `Dev.clearMem` -/

@[simp] theorem Dev.clearMem_csr (lo hi : Nat) : (d.clearMem lo hi).csr = d.csr := (rfl)
@[simp] theorem Dev.clearMem_shadow (lo hi : Nat) : (d.clearMem lo hi).shadow = d.shadow := (rfl)
@[simp] theorem Dev.clearMem_parity (lo hi : Nat) : (d.clearMem lo hi).parity = d.parity := (rfl)
@[simp] theorem Dev.clearMem_img (lo hi : Nat) : (d.clearMem lo hi).img = d.img := (rfl)
@[simp] theorem Dev.clearMem_rst (lo hi : Nat) : (d.clearMem lo hi).rst = d.rst := (rfl)
@[simp] theorem Dev.clearMem_host (lo hi : Nat) : (d.clearMem lo hi).host = d.host := (rfl)
@[simp] theorem Dev.clearMem_lanes (lo hi : Nat) : (d.clearMem lo hi).lanes = d.lanes := (rfl)
@[simp] theorem Dev.clearMem_ropes (lo hi : Nat) : (d.clearMem lo hi).ropes = d.ropes := (rfl)
@[simp] theorem Dev.clearMem_fwd (lo hi : Nat) : (d.clearMem lo hi).fwd = d.fwd := (rfl)
@[simp] theorem Dev.clearMem_bpm (lo hi : Nat) : (d.clearMem lo hi).bpm = d.bpm := (rfl)
@[simp] theorem Dev.clearMem_qsc (lo hi : Nat) : (d.clearMem lo hi).qsc = d.qsc := (rfl)
@[simp] theorem Dev.clearMem_tbs (lo hi : Nat) : (d.clearMem lo hi).tbs = d.tbs := (rfl)
@[simp] theorem Dev.clearMem_tdc (lo hi : Nat) : (d.clearMem lo hi).tdc = d.tdc := (rfl)
@[simp] theorem Dev.clearMem_obs (lo hi : Nat) : (d.clearMem lo hi).obs = d.obs := (rfl)
@[simp] theorem Dev.clearMem_phx (lo hi : Nat) : (d.clearMem lo hi).phx = d.phx := (rfl)
@[simp] theorem Dev.clearMem_phxCal (lo hi : Nat) : (d.clearMem lo hi).phxCal = d.phxCal := (rfl)
@[simp] theorem Dev.clearMem_refs (lo hi : Nat) : (d.clearMem lo hi).refs = d.refs := (rfl)
@[simp] theorem Dev.clearMem_dplls (lo hi : Nat) : (d.clearMem lo hi).dplls = d.dplls := (rfl)
@[simp] theorem Dev.clearMem_learn (lo hi : Nat) : (d.clearMem lo hi).learn = d.learn := (rfl)
@[simp] theorem Dev.clearMem_attempt (lo hi : Nat) : (d.clearMem lo hi).attempt = d.attempt := (rfl)
@[simp] theorem Dev.clearMem_moves (lo hi : Nat) : (d.clearMem lo hi).moves = d.moves := (rfl)
@[simp] theorem Dev.clearMem_pps (lo hi : Nat) : (d.clearMem lo hi).pps = d.pps := (rfl)
@[simp] theorem Dev.clearMem_outs (lo hi : Nat) : (d.clearMem lo hi).outs = d.outs := (rfl)
@[simp] theorem Dev.clearMem_ssc (lo hi : Nat) : (d.clearMem lo hi).ssc = d.ssc := (rfl)
@[simp] theorem Dev.clearMem_belay (lo hi : Nat) : (d.clearMem lo hi).belay = d.belay := (rfl)
@[simp] theorem Dev.clearMem_sec (lo hi : Nat) : (d.clearMem lo hi).sec = d.sec := (rfl)
@[simp] theorem Dev.clearMem_fresh (lo hi : Nat) : (d.clearMem lo hi).fresh = d.fresh := (rfl)
@[simp] theorem Dev.clearMem_freshTime (lo hi : Nat) : (d.clearMem lo hi).freshTime = d.freshTime := (rfl)
@[simp] theorem Dev.clearMem_raised (lo hi : Nat) : (d.clearMem lo hi).raised = d.raised := (rfl)
@[simp] theorem Dev.clearMem_sent (lo hi : Nat) : (d.clearMem lo hi).sent = d.sent := (rfl)
@[simp] theorem Dev.clearMem_mem (lo hi : Nat) : (d.clearMem lo hi).mem = Memory.clear d.mem lo hi := (rfl)

/-! ### `Dev.setCtr` -/

@[simp] theorem Dev.setCtr_csr (i : Nat) (c : Ctr) : (d.setCtr i c).csr = d.csr := (rfl)
@[simp] theorem Dev.setCtr_shadow (i : Nat) (c : Ctr) : (d.setCtr i c).shadow = d.shadow := (rfl)
@[simp] theorem Dev.setCtr_parity (i : Nat) (c : Ctr) : (d.setCtr i c).parity = d.parity := (rfl)
@[simp] theorem Dev.setCtr_mem (i : Nat) (c : Ctr) : (d.setCtr i c).mem = d.mem := (rfl)
@[simp] theorem Dev.setCtr_img (i : Nat) (c : Ctr) : (d.setCtr i c).img = d.img := (rfl)
@[simp] theorem Dev.setCtr_rst (i : Nat) (c : Ctr) : (d.setCtr i c).rst = d.rst := (rfl)
@[simp] theorem Dev.setCtr_host (i : Nat) (c : Ctr) : (d.setCtr i c).host = d.host := (rfl)
@[simp] theorem Dev.setCtr_lanes (i : Nat) (c : Ctr) : (d.setCtr i c).lanes = d.lanes := (rfl)
@[simp] theorem Dev.setCtr_ropes (i : Nat) (c : Ctr) : (d.setCtr i c).ropes = d.ropes := (rfl)
@[simp] theorem Dev.setCtr_fwd (i : Nat) (c : Ctr) : (d.setCtr i c).fwd = d.fwd := (rfl)
@[simp] theorem Dev.setCtr_bpm (i : Nat) (c : Ctr) : (d.setCtr i c).bpm = d.bpm := (rfl)
@[simp] theorem Dev.setCtr_qsc (i : Nat) (c : Ctr) : (d.setCtr i c).qsc = d.qsc := (rfl)
@[simp] theorem Dev.setCtr_tbs (i : Nat) (c : Ctr) : (d.setCtr i c).tbs = d.tbs := (rfl)
@[simp] theorem Dev.setCtr_tdc (i : Nat) (c : Ctr) : (d.setCtr i c).tdc = d.tdc := (rfl)
@[simp] theorem Dev.setCtr_phx (i : Nat) (c : Ctr) : (d.setCtr i c).phx = d.phx := (rfl)
@[simp] theorem Dev.setCtr_phxCal (i : Nat) (c : Ctr) : (d.setCtr i c).phxCal = d.phxCal := (rfl)
@[simp] theorem Dev.setCtr_refs (i : Nat) (c : Ctr) : (d.setCtr i c).refs = d.refs := (rfl)
@[simp] theorem Dev.setCtr_dplls (i : Nat) (c : Ctr) : (d.setCtr i c).dplls = d.dplls := (rfl)
@[simp] theorem Dev.setCtr_learn (i : Nat) (c : Ctr) : (d.setCtr i c).learn = d.learn := (rfl)
@[simp] theorem Dev.setCtr_attempt (i : Nat) (c : Ctr) : (d.setCtr i c).attempt = d.attempt := (rfl)
@[simp] theorem Dev.setCtr_moves (i : Nat) (c : Ctr) : (d.setCtr i c).moves = d.moves := (rfl)
@[simp] theorem Dev.setCtr_pps (i : Nat) (c : Ctr) : (d.setCtr i c).pps = d.pps := (rfl)
@[simp] theorem Dev.setCtr_outs (i : Nat) (c : Ctr) : (d.setCtr i c).outs = d.outs := (rfl)
@[simp] theorem Dev.setCtr_ssc (i : Nat) (c : Ctr) : (d.setCtr i c).ssc = d.ssc := (rfl)
@[simp] theorem Dev.setCtr_belay (i : Nat) (c : Ctr) : (d.setCtr i c).belay = d.belay := (rfl)
@[simp] theorem Dev.setCtr_sec (i : Nat) (c : Ctr) : (d.setCtr i c).sec = d.sec := (rfl)
@[simp] theorem Dev.setCtr_fresh (i : Nat) (c : Ctr) : (d.setCtr i c).fresh = d.fresh := (rfl)
@[simp] theorem Dev.setCtr_freshTime (i : Nat) (c : Ctr) : (d.setCtr i c).freshTime = d.freshTime := (rfl)
@[simp] theorem Dev.setCtr_raised (i : Nat) (c : Ctr) : (d.setCtr i c).raised = d.raised := (rfl)
@[simp] theorem Dev.setCtr_sent (i : Nat) (c : Ctr) : (d.setCtr i c).sent = d.sent := (rfl)

/-! ### The whole state -/

@[simp] theorem State.onDev_flt (f : Dev → Dev) : (s.onDev f).flt = s.flt := (rfl)
@[simp] theorem State.onDev_irq (f : Dev → Dev) : (s.onDev f).irq = s.irq := (rfl)
@[simp] theorem State.onDev_pending (f : Dev → Dev) : (s.onDev f).pending = s.pending := (rfl)
@[simp] theorem State.onDev_dev (f : Dev → Dev) : (s.onDev f).dev = f s.dev := (rfl)

@[simp] theorem State.begin_flt : (s.begin).flt = s.flt := (rfl)
@[simp] theorem State.begin_irq : (s.begin).irq = s.irq := (rfl)
@[simp] theorem State.begin_pending : (s.begin).pending = s.pending := (rfl)
@[simp] theorem State.begin_sent : s.begin.dev.sent = [] := (rfl)
@[simp] theorem State.begin_csr : s.begin.dev.csr = s.dev.csr := (rfl)
@[simp] theorem State.begin_shadow : s.begin.dev.shadow = s.dev.shadow := (rfl)
@[simp] theorem State.begin_parity : s.begin.dev.parity = s.dev.parity := (rfl)
@[simp] theorem State.begin_mem : s.begin.dev.mem = s.dev.mem := (rfl)
@[simp] theorem State.begin_img : s.begin.dev.img = s.dev.img := (rfl)
@[simp] theorem State.begin_rst : s.begin.dev.rst = s.dev.rst := (rfl)
@[simp] theorem State.begin_host : s.begin.dev.host = s.dev.host := (rfl)
@[simp] theorem State.begin_lanes : s.begin.dev.lanes = s.dev.lanes := (rfl)
@[simp] theorem State.begin_ropes : s.begin.dev.ropes = s.dev.ropes := (rfl)
@[simp] theorem State.begin_fwd : s.begin.dev.fwd = s.dev.fwd := (rfl)
@[simp] theorem State.begin_bpm : s.begin.dev.bpm = s.dev.bpm := (rfl)
@[simp] theorem State.begin_qsc : s.begin.dev.qsc = s.dev.qsc := (rfl)
@[simp] theorem State.begin_tbs : s.begin.dev.tbs = s.dev.tbs := (rfl)
@[simp] theorem State.begin_tdc : s.begin.dev.tdc = s.dev.tdc := (rfl)
@[simp] theorem State.begin_obs : s.begin.dev.obs = s.dev.obs := (rfl)
@[simp] theorem State.begin_phx : s.begin.dev.phx = s.dev.phx := (rfl)
@[simp] theorem State.begin_phxCal : s.begin.dev.phxCal = s.dev.phxCal := (rfl)
@[simp] theorem State.begin_refs : s.begin.dev.refs = s.dev.refs := (rfl)
@[simp] theorem State.begin_dplls : s.begin.dev.dplls = s.dev.dplls := (rfl)
@[simp] theorem State.begin_learn : s.begin.dev.learn = s.dev.learn := (rfl)
@[simp] theorem State.begin_attempt : s.begin.dev.attempt = s.dev.attempt := (rfl)
@[simp] theorem State.begin_moves : s.begin.dev.moves = s.dev.moves := (rfl)
@[simp] theorem State.begin_pps : s.begin.dev.pps = s.dev.pps := (rfl)
@[simp] theorem State.begin_outs : s.begin.dev.outs = s.dev.outs := (rfl)
@[simp] theorem State.begin_ssc : s.begin.dev.ssc = s.dev.ssc := (rfl)
@[simp] theorem State.begin_belay : s.begin.dev.belay = s.dev.belay := (rfl)
@[simp] theorem State.begin_sec : s.begin.dev.sec = s.dev.sec := (rfl)
@[simp] theorem State.begin_fresh : s.begin.dev.fresh = s.dev.fresh := (rfl)
@[simp] theorem State.begin_freshTime : s.begin.dev.freshTime = s.dev.freshTime := (rfl)
@[simp] theorem State.begin_raised : s.begin.dev.raised = s.dev.raised := (rfl)

@[simp] theorem State.fltSync_flt : s.fltSync.flt = s.flt := (rfl)
@[simp] theorem State.fltSync_irq : s.fltSync.irq = s.irq := (rfl)
@[simp] theorem State.fltSync_pending : s.fltSync.pending = s.pending := (rfl)
@[simp] theorem State.openWindow_dev (sub r : Nat) (a : Await) : (s.openWindow sub r a).dev = s.dev := (rfl)
@[simp] theorem State.openWindow_log (sub r : Nat) (a : Await) : (s.openWindow sub r a).flt.log = s.flt.log := (rfl)
@[simp] theorem State.openWindow_pending (sub r : Nat) (a : Await) : (s.openWindow sub r a).pending = s.pending := (rfl)
@[simp] theorem State.rewait_dev (f : Await → Await) : (s.rewait f).dev = s.dev := (rfl)
@[simp] theorem State.rewait_log (f : Await → Await) : (s.rewait f).flt.log = s.flt.log := (rfl)
@[simp] theorem State.rewait_pending (f : Await → Await) : (s.rewait f).pending = s.pending := (rfl)
@[simp] theorem State.coldUnits_dev : s.coldUnits.dev = s.dev := (rfl)
@[simp] theorem State.coldUnits_log : s.coldUnits.flt.log = [] := (rfl)
@[simp] theorem State.coldUnits_pending : s.coldUnits.pending = s.pending := (rfl)

end Sys2Proof.Machine
end

