-- ==== Sys2Proof/Laws/Registers.lean ====
section
/-! SUPPORT. Laws of register words and fields: what one reads after one was written. -/

namespace Sys2Proof.Machine

variable (d : Dev)

/-- Two fields share no bit. -/
abbrev Fld.apart (f g : Fld) : Prop := f.addr ≠ g.addr ∨ g.lsb + g.width ≤ f.lsb ∨ f.lsb + f.width ≤ g.lsb

/-- A word depends on the active words alone. -/
theorem Dev.word_congr {d e : Dev} (h : d.csr = e.csr) (a : Nat) : d.word a = e.word a := by
  simp only [Dev.word, h]

/-- A field depends on the active words alone. -/
theorem Dev.get_congr {d e : Dev} (h : d.csr = e.csr) (f : Fld) : d.get f = e.get f := by
  simp only [Dev.get, Dev.word, h]

theorem Dev.flag_congr {d e : Dev} (h : d.csr = e.csr) (f : Fld) : d.flag f = e.flag f := by
  simp only [Dev.flag, Dev.get_congr h]

/-- A register reads the word written to it. -/
@[simp] theorem Dev.word_setWord_same (a : Nat) (w : Word) : (d.setWord a w).word a = w := by
  by_cases h : w = resetWord a
  · simp [Dev.word, Dev.setWord, h, Sparse.get?_del_same]
  · simp [Dev.word, Dev.setWord, h]

/-- A register reads as before after another was written. -/
theorem Dev.word_setWord_ne {a b : Nat} (w : Word) (h : a ≠ b) : (d.setWord a w).word b = d.word b := by
  by_cases hw : w = resetWord a
  · simp [Dev.word, Dev.setWord, hw, Sparse.get?_del_ne _ h]
  · simp [Dev.word, Dev.setWord, hw, Sparse.get?_put_ne _ _ h]

/-- A field reads what was written to it. -/
theorem Dev.get_put_same (f : Fld) (v : Nat) (h : f.lsb + f.width ≤ 32) : (d.put f v).get f = v % 2 ^ f.width := by
  rw [Dev.get, Dev.put, Dev.word_setWord_same, bits_setBits_same _ _ h]

/-- A field reads as before after a field apart from it was written. -/
theorem Dev.get_put_apart {f g : Fld} (v : Nat) (h : f.apart g) : (d.put f v).get g = d.get g := by
  by_cases ha : f.addr = g.addr
  · have hd := h.resolve_left (by simpa using ha)
    rw [Dev.get, Dev.put, ← ha, Dev.word_setWord_same, bits_setBits_ne _ _ hd, Dev.get, ha]
  · rw [Dev.get, Dev.put, Dev.word_setWord_ne _ _ ha, Dev.get]

/-- A register reads as before after a field of another was written. -/
theorem Dev.word_put_ne {f : Fld} {a : Nat} (v : Nat) (h : f.addr ≠ a) : (d.put f v).word a = d.word a :=
  Dev.word_setWord_ne _ _ h

theorem Dev.flag_put_same (f : Fld) (v : Nat) (h : f.lsb + f.width ≤ 32) : (d.put f v).flag f = (v % 2 ^ f.width == 1) := by
  rw [Dev.flag, Dev.get_put_same _ _ _ h]

theorem Dev.flag_put_apart {f g : Fld} (v : Nat) (h : f.apart g) : (d.put f v).flag g = d.flag g := by
  rw [Dev.flag, Dev.get_put_apart _ _ h, Dev.flag]

@[simp] theorem Dev.get_raise (c n : Nat) (f : Fld) : (d.raise c n).get f = d.get f := (rfl)
@[simp] theorem Dev.word_raise (c n a : Nat) : (d.raise c n).word a = d.word a := (rfl)
@[simp] theorem Dev.flag_raise (c n : Nat) (f : Fld) : (d.raise c n).flag f = d.flag f := (rfl)
@[simp] theorem Dev.get_emit (x : Sent) (f : Fld) : (d.emit x).get f = d.get f := (rfl)
@[simp] theorem Dev.word_emit (x : Sent) (a : Nat) : (d.emit x).word a = d.word a := (rfl)
@[simp] theorem Dev.flag_emit (x : Sent) (f : Fld) : (d.emit x).flag f = d.flag f := (rfl)
@[simp] theorem Dev.get_draw (f : Fld) : d.draw.get f = d.get f := (rfl)
@[simp] theorem Dev.word_draw (a : Nat) : d.draw.word a = d.word a := (rfl)
@[simp] theorem Dev.flag_draw (f : Fld) : d.draw.flag f = d.flag f := (rfl)
@[simp] theorem Dev.get_drawTime (f : Fld) : d.drawTime.get f = d.get f := (rfl)
@[simp] theorem Dev.word_drawTime (a : Nat) : d.drawTime.word a = d.word a := (rfl)
@[simp] theorem Dev.flag_drawTime (f : Fld) : d.drawTime.flag f = d.flag f := (rfl)

end Sys2Proof.Machine
end

