-- ==== Sys2Proof/Laws/Writes.lean ====
section
/-! SUPPORT. What a host write to a register comes to. -/

namespace Sys2Proof.Machine

variable (d : Dev) (s : State)

theorem Dev.endHold_csr (a : Nat) : (d.endHold a).csr = d.csr := rfl
@[simp] theorem Dev.endHold_word (a b : Nat) : (d.endHold a).word b = d.word b := (rfl)
@[simp] theorem Dev.endHold_get (a : Nat) (f : Fld) : (d.endHold a).get f = d.get f := (rfl)
@[simp] theorem Dev.endHold_flag (a : Nat) (f : Fld) : (d.endHold a).flag f = d.flag f := (rfl)
@[simp] theorem Dev.endHold_shut (a b : Nat) : (d.endHold a).shut b = d.shut b := (rfl)
@[simp] theorem Dev.endHold_there (a b : Nat) : (d.endHold a).there b = d.there b := (rfl)
@[simp] theorem Dev.touched_csr (a : Nat) : (d.touched a).csr = d.csr := (rfl)
@[simp] theorem Dev.touched_word (a b : Nat) : (d.touched a).word b = d.word b := (rfl)
@[simp] theorem Dev.touched_get (a : Nat) (f : Fld) : (d.touched a).get f = d.get f := (rfl)
@[simp] theorem Dev.touched_flag (a : Nat) (f : Fld) : (d.touched a).flag f = d.flag f := (rfl)
@[simp] theorem State.begin_held : s.begin.dev.held = s.dev.held := (rfl)
@[simp] theorem State.begin_shut (a : Nat) : s.begin.dev.shut a = s.dev.shut a := (rfl)
@[simp] theorem State.begin_there (a : Nat) : s.begin.dev.there a = s.dev.there a := (rfl)
@[simp] theorem State.begin_word (a : Nat) : s.begin.dev.word a = s.dev.word a := (rfl)
@[simp] theorem State.begin_get (f : Fld) : s.begin.dev.get f = s.dev.get f := (rfl)
@[simp] theorem State.begin_flag (f : Fld) : s.begin.dev.flag f = s.dev.flag f := (rfl)

/-- A write of a whole word that gets through reaches its register. -/
theorem State.writeDword_at {a i : Nat} {r : RegRow} (w : Word) (ha : a < controlEnd) (hr : registerAt a = some (r, i))
    (hs : s.dev.shut a = false) (ht : s.dev.there a = true) :
    s.writeDword a 0xF w = (s.onDev (Dev.endHold a)).regWrite r i a Via.whole w a := by
  simp [State.writeDword, ha, State.writeRegister, hs, ht, hr]

/-- A write that starts an operation, as the device alone sees it, with nothing to flag. -/
theorem Dev.regWrite_op {a i addr : Nat} {r : RegRow} {w : Word} {f : Dev → Dev}
    (hb : R.SEC_ATT_NONCE 0 ≠ a / 0x10000 * 0x10000 + r.off)
    (hf : d.special (a / 0x10000 * 0x10000 + r.off) i (w &&& namedBits r a) = some f)
    (hfl : d.writeFlags r a Via.whole w = []) :
    d.regWrite r i a Via.whole w addr = f { d with parity := d.parity.filter (· != a) } := by
  simp [Dev.regWrite, hb, Dev.wordSeen, Via.whole, hf, hfl, Dev.flagAll] at *

/-- A register no write of which is flagged for the kind of a field: it has neither write-once nor lockable fields. -/
def RegRow.plainKinds (r : RegRow) : Bool := r.fields.all (fun f => f.ty != .wo && f.ty != .wl)

theorem Dev.writeFlags_plain {a : Nat} {r : RegRow} {w : Word} (hk : r.plainKinds = true) (hw : w &&& ~~~(namedBits r a) = 0) :
    d.writeFlags r a Via.whole w = [] := by
  have h1 : r.fields.any (fun f => f.ty == .wo && Via.whole.has f) = false := by
    rw [List.any_eq_false]
    intro f hf
    have := List.all_eq_true.1 hk f hf
    simp_all
  have h2 : r.fields.any (fun f => f.ty == .wl && Via.whole.has f) = false := by
    rw [List.any_eq_false]
    intro f hf
    have := List.all_eq_true.1 hk f hf
    simp_all
  have h3 : w &&& 0xFFFFFFFF#32 = w := BitVec.and_allOnes
  have h4 : w &&& Via.whole.touched &&& ~~~(namedBits r a) = 0 := by
    rw [show Via.whole.touched = 0xFFFFFFFF#32 from rfl, h3, hw]
  simp [Dev.writeFlags, h1, h2, h4]

/-- A command that writes a register whose write starts an operation runs that operation. -/
theorem runHost_op {s : State} {a i v : Nat} {r : RegRow} {f : Dev → Dev} (h : s.Reaches a) (ha : a < controlEnd)
    (hr : registerAt a = some (r, i)) (hs : reachesState a = false) (hb : R.SEC_ATT_NONCE 0 ≠ a / 0x10000 * 0x10000 + r.off)
    (hk : r.plainKinds = true) (hw : BitVec.ofNat 32 v &&& ~~~(namedBits r a) = 0)
    (hf : ∀ d : Dev, d.special (a / 0x10000 * 0x10000 + r.off) i (BitVec.ofNat 32 v &&& namedBits r a) = some f) :
    runHost (State.writeReg a v) s = .next (s.begin.onDev (fun d => f (d.touched a))).commit := by
  obtain ⟨hu, hsh, hth⟩ := h
  simp only [reachesState, Bool.or_eq_false_iff, beq_eq_false_iff_ne, ne_eq] at hs
  obtain ⟨⟨⟨⟨h1, h2⟩, h3⟩, h4⟩, h5⟩ := hs
  have hn : s.dev.held = false := hu
  simp only [runHost, runState, hn, Bool.false_eq_true, if_false, State.writeReg]
  rw [State.writeDword_at _ _ ha hr (by simpa using hsh) (by simpa using hth)]
  simp only [State.regWrite, h1, h2, h3, h4, h5, or_self, if_false]
  have key : ∀ d : Dev, Dev.regWrite r i a Via.whole (BitVec.ofNat 32 v) a (d.endHold a) = f (d.touched a) := fun d =>
    Dev.regWrite_op _ hb (hf _) (Dev.writeFlags_plain _ hk hw)
  simp only [State.onDev, key]

/-- The register at `a` is instance `i` of the one that begins at `b`, and a write to it can start an operation: it holds neither
write-once nor lockable fields and its write reaches the device alone. -/
def startsOp (a b i : Nat) : Bool :=
  decide (a < controlEnd) && !reachesState a && b != R.SEC_ATT_NONCE 0 &&
    (match registerAt a with
     | some (r, j) => j == i && a / 0x10000 * 0x10000 + r.off == b && r.plainKinds
     | none => false)

/-- A command that writes a register whose write starts an operation runs that operation, in the terms of the register map. -/
theorem runHost_starts {s : State} {a b i v : Nat} {f : Dev → Dev} (h : s.Reaches a) (hc : startsOp a b i = true)
    (hw : BitVec.ofNat 32 v &&& ~~~(namedAt a) = 0)
    (hf : ∀ d : Dev, d.special b i (BitVec.ofNat 32 v &&& namedAt a) = some f) :
    runHost (State.writeReg a v) s = .next (s.begin.onDev (fun d => f (d.touched a))).commit := by
  cases hr : registerAt a with
  | none => simp [startsOp, hr] at hc
  | some x =>
    obtain ⟨r, j⟩ := x
    simp only [startsOp, hr, Bool.and_eq_true, decide_eq_true_eq, Bool.not_eq_true', bne_iff_ne, ne_eq, beq_iff_eq] at hc
    obtain ⟨⟨⟨h1, h2⟩, h3⟩, ⟨rfl, rfl⟩, h5⟩ := hc
    simp only [namedAt, hr] at hw hf
    exact runHost_op h h1 hr h2 (fun e => h3 e.symm) h5 hw hf

end Sys2Proof.Machine
end

