-- ==== Sys2Proof/Laws/End.lean ====
section
/-! SUPPORT. The beginning and the end of a command: what the interrupt unit changes, a command that raises nothing, the outcome
of every kind of meaning. -/

namespace Sys2Proof.Machine

variable (s : State)

/-! ### Devices up to what they send -/

@[simp] theorem Dev.unsent_emit (d : Dev) (x : Sent) : (d.emit x).unsent = d.unsent := (rfl)

theorem Dev.word_of_unsent {d e : Dev} (h : d.unsent = e.unsent) (a : Nat) : d.word a = e.word a :=
  Dev.word_congr (congrArg Dev.csr h :) a

/-! ### The interrupt unit (R110, R111) -/

/-- A message signalled changes the interrupt unit, and of the device what it sends. -/
theorem State.signal_unsent (v : Nat) : (s.signal v).dev.unsent = s.dev.unsent := by
  unfold State.signal
  split
  · rfl
  · split <;> rfl

theorem State.signal_flt (v : Nat) : (s.signal v).flt = s.flt := by
  unfold State.signal
  split
  · rfl
  · split <;> rfl

theorem State.signal_pending (v : Nat) : (s.signal v).pending = s.pending := by
  unfold State.signal
  split
  · rfl
  · split <;> rfl

theorem State.signals_frame (l : List Nat) : (l.foldl (fun t x => t.signal x) s).dev.unsent = s.dev.unsent ∧
    (l.foldl (fun t x => t.signal x) s).flt = s.flt ∧ (l.foldl (fun t x => t.signal x) s).pending = s.pending := by
  induction l generalizing s with
  | nil => exact ⟨rfl, rfl, rfl⟩
  | cons v l ih =>
    obtain ⟨h1, h2, h3⟩ := ih (s.signal v)
    exact ⟨h1.trans (s.signal_unsent v), h2.trans (s.signal_flt v), h3.trans (s.signal_pending v)⟩

/-- The levels taken at the end of a command change HIF_SRC_LEVEL_0 and _1, what is sent, and the interrupt unit alone. -/
theorem State.interrupts_frame : ∃ w0 w1 : Word, s.interrupts.dev.unsent =
    ((s.dev.setWord R.HIF_SRC_LEVEL_0 w0).setWord R.HIF_SRC_LEVEL_1 w1).unsent ∧ s.interrupts.flt = s.flt ∧
      s.interrupts.pending = s.pending := by
  let d1 := (s.dev.setWord R.HIF_SRC_LEVEL_0 (BitVec.ofNat 32 (s.dev.sources.foldl orBit 0))).setWord R.HIF_SRC_LEVEL_1
    (BitVec.ofNat 32 (s.dev.sources.foldl orBit 0 / 2 ^ 32))
  have h := State.signals_frame { s with dev := d1 }
  exact ⟨_, _, (h _).1, (h _).2.1, (h _).2.2⟩

theorem State.interrupts_flt : s.interrupts.flt = s.flt := by
  obtain ⟨_, _, _, h, _⟩ := s.interrupts_frame
  exact h

@[simp] theorem State.interrupts_pending : s.interrupts.pending = s.pending := by
  obtain ⟨_, _, _, _, h⟩ := s.interrupts_frame
  exact h

/-- Two words apart, and what is sent apart, a device is alike another (Dev.Alike), its register words elsewhere included. -/
theorem Dev.alike_of_unsent {d e : Dev} {w0 w1 : Word}
    (h : d.unsent = ((e.setWord R.HIF_SRC_LEVEL_0 w0).setWord R.HIF_SRC_LEVEL_1 w1).unsent) : d.Alike e := by
  refine ⟨?_, fun a h0 h1 => ?_⟩
  · have := congrArg (fun d : Dev => { d with csr := [] }) h
    exact this
  · rw [Dev.word_of_unsent h, Dev.word_setWord_ne _ _ (Ne.symm h1), Dev.word_setWord_ne _ _ (Ne.symm h0)]

theorem State.interrupts_alike : s.interrupts.dev.Alike s.dev := by
  obtain ⟨_, _, h, -, -⟩ := s.interrupts_frame
  exact Dev.alike_of_unsent h

/-! ### The fault unit -/

/-- Nothing raised, nothing for the fault unit to take. -/
theorem State.settle_quiet (h : s.dev.raised = []) : s.settle = s := by
  simp [State.settle, State.settleN, h]

/-- A command that raises nothing ends with the interrupt levels alone. -/
theorem State.commit_quiet (h : s.dev.raised = []) : s.commit = s.interrupts := by
  rw [State.commit, s.settle_quiet h]

/-! ### Outcomes -/

theorem runUp_of_up {s : State} (f : Dev → Dev) (h : s.Up) : runUp f s = .next (s.begin.onDev f).commit := by
  have h' : s.dev.held = false := h
  simp only [runUp, run, runState, h']
  rfl

theorem runHost_of_up {s : State} (f : State → State) (h : s.Up) : runHost f s = .next (f s.begin).commit := by
  have h' : s.dev.held = false := h
  simp [runHost, runState, h']

/-- What every command ends with, as a next state. -/
theorem runHost_next (f : State → State) : ∃ u, runHost f s = .next (State.commit u) := ⟨_, rfl⟩

end Sys2Proof.Machine
end

