-- ==== Sys2Proof/Laws/Plain.lean ====
section
/-! SUPPORT. A plain register write, bit by bit, and the commands that are one. -/

namespace Sys2Proof.Machine

variable (d : Dev)

/-- A bit lies in a field. -/
abbrev FieldRow.holds (f : FieldRow) (k : Nat) : Prop := k < 32 ∧ f.lsb ≤ k ∧ k < f.lsb + f.width

/-- No bit lies in two fields of a row. -/
def RegRow.apart (r : RegRow) : Prop := r.fields.Pairwise (fun f g => f.lsb + f.width ≤ g.lsb ∨ g.lsb + g.width ≤ f.lsb)

/-- What a plain write of bit `w` makes of bit `x` of a field of some type (Table TOP-4). -/
def plainBit (ty : FType) (set : Bool) (x w : Bool) : Bool :=
  match ty with
  | .w1c => x && !w
  | .w1s => x || w
  | _ => if set then w else x

/-- One field's part of a plain write. -/
def Dev.plainField (a : Nat) (v : Via) (w : Word) (x : Word) (f : FieldRow) : Word :=
  let m := v.touched &&& fieldMask f.lsb f.width
  match f.ty with
  | .w1c => x &&& ~~~(w &&& m)
  | .w1s => x ||| (w &&& m)
  | _ => if d.writable a v f && f.upd == .i then v.take f x w else x

theorem Dev.plainActive_eq (r : RegRow) (a : Nat) (v : Via) (w : Word) :
    d.plainActive r a v w = r.fields.foldl (d.plainField a v w) (d.word a) := rfl

/-- A write concerns bit `k` of a field. -/
abbrev Via.at_ (v : Via) (f : FieldRow) (k : Nat) : Prop := f.holds k ∧ v.touched.getLsbD k = true

theorem Via.mask_bit (v : Via) (f : FieldRow) (k : Nat) :
    (v.touched &&& fieldMask f.lsb f.width).getLsbD k = decide (v.at_ f k) := by
  rw [BitVec.getLsbD_and, getLsbD_fieldMask, Bool.eq_iff_iff]
  simp only [Bool.and_eq_true, decide_eq_true_eq, and_assoc, FieldRow.holds, Via.at_]
  tauto

theorem Via.take_bit (v : Via) (f : FieldRow) (x w : Word) (k : Nat) (hk : k < 32) :
    (v.take f x w).getLsbD k = if v.at_ f k then w.getLsbD k else x.getLsbD k := by
  have hm := v.mask_bit f k
  simp only [Via.take, BitVec.getLsbD_or, BitVec.getLsbD_and, BitVec.getLsbD_not] at hm ⊢
  simp only [hm, hk, decide_true, Bool.true_and]
  by_cases h : v.at_ f k
  · rw [decide_eq_true h, if_pos h, Bool.not_true, Bool.and_false, Bool.and_true, Bool.false_or]
  · rw [decide_eq_false h, if_neg h, Bool.not_false, Bool.and_true, Bool.and_false, Bool.or_false]

theorem Dev.plainField_bit (a : Nat) (v : Via) (w x : Word) (f : FieldRow) (k : Nat) (hk : k < 32) :
    (d.plainField a v w x f).getLsbD k =
      if v.at_ f k then plainBit f.ty (d.writable a v f && f.upd == .i) (x.getLsbD k) (w.getLsbD k) else x.getLsbD k := by
  have hm := v.mask_bit f k
  have ht := v.take_bit f x w k hk
  have h1 : (x &&& ~~~(w &&& (v.touched &&& fieldMask f.lsb f.width))).getLsbD k = (x.getLsbD k && !(w.getLsbD k && decide (v.at_ f k))) := by
    rw [BitVec.getLsbD_and, BitVec.getLsbD_not, BitVec.getLsbD_and (x := w), hm, decide_eq_true hk, Bool.true_and]
  have h2 : (x ||| (w &&& (v.touched &&& fieldMask f.lsb f.width))).getLsbD k = (x.getLsbD k || (w.getLsbD k && decide (v.at_ f k))) := by
    rw [BitVec.getLsbD_or, BitVec.getLsbD_and (x := w), hm]
  unfold Dev.plainField
  by_cases h : v.at_ f k
  · rw [decide_eq_true h] at h1 h2
    rw [if_pos h] at ht ⊢
    cases f.ty <;> simp only [plainBit, h1, h2, Bool.and_true] <;> split <;> first | exact ht | rfl
  · rw [decide_eq_false h] at h1 h2
    rw [if_neg h] at ht ⊢
    cases f.ty <;> simp only [h1, h2, Bool.and_false, Bool.not_false, Bool.and_true, Bool.or_false] <;> split <;> first | exact ht | rfl

theorem plainFold_out (a : Nat) (v : Via) (w : Word) (l : List FieldRow) (x : Word) (k : Nat) (hk : k < 32)
    (h : ∀ f ∈ l, ¬ v.at_ f k) : (l.foldl (d.plainField a v w) x).getLsbD k = x.getLsbD k := by
  induction l generalizing x with
  | nil => rfl
  | cons f l ih =>
    rw [List.foldl_cons, ih _ fun g hg => h g (List.mem_cons_of_mem _ hg), d.plainField_bit a v w x f k hk,
      if_neg (h f List.mem_cons_self)]

theorem plainFold_in (a : Nat) (v : Via) (w : Word) (l : List FieldRow) (x : Word) (k : Nat) {f : FieldRow} (hf : f ∈ l)
    (hk : v.at_ f k) (hp : l.Pairwise (fun f g => f.lsb + f.width ≤ g.lsb ∨ g.lsb + g.width ≤ f.lsb)) :
    (l.foldl (d.plainField a v w) x).getLsbD k =
      plainBit f.ty (d.writable a v f && f.upd == .i) (x.getLsbD k) (w.getLsbD k) := by
  induction l generalizing x with
  | nil => simp at hf
  | cons g l ih =>
    obtain ⟨h1, h2⟩ := List.pairwise_cons.1 hp
    have hk32 : k < 32 := hk.1.1
    rw [List.foldl_cons]
    rcases List.mem_cons.1 hf with rfl | hf
    · rw [plainFold_out d a v w l _ k hk32 fun g hg hgk => by
        have := h1 g hg
        have a1 := hgk.1
        have a2 := hk.1
        unfold FieldRow.holds at a1 a2
        omega, d.plainField_bit a v w x f k hk32, if_pos hk]
    · rw [ih _ hf h2, d.plainField_bit a v w x g k hk32, if_neg fun hgk => by
        have := h1 f hf
        have a1 := hgk.1
        have a2 := hk.1
        unfold FieldRow.holds at a1 a2
        omega]

/-- Each bit of a field that a plain write concerns is afterwards what the field's type says (Table TOP-4). -/
theorem Dev.plainActive_bit {r : RegRow} (a : Nat) (v : Via) (w : Word) {f : FieldRow} (hf : f ∈ r.fields) (hr : r.apart) {k : Nat}
    (hk : v.at_ f k) : (d.plainActive r a v w).getLsbD k =
      plainBit f.ty (d.writable a v f && f.upd == .i) ((d.word a).getLsbD k) (w.getLsbD k) := by
  rw [d.plainActive_eq]
  exact plainFold_in d a v w r.fields _ k hf hk hr

/-- A bit that a plain write does not concern stays as it was. -/
theorem Dev.plainActive_unnamed {r : RegRow} (a : Nat) (v : Via) (w : Word) {k : Nat} (hk : k < 32)
    (h : ∀ f ∈ r.fields, ¬ v.at_ f k) : (d.plainActive r a v w).getLsbD k = (d.word a).getLsbD k := by
  rw [d.plainActive_eq]
  exact plainFold_out d a v w r.fields _ k hk h

/-! ### What a plain write leaves -/

/-- The active word after a plain write whose later fields, if any, go to the shadow. -/
theorem Dev.plainWrite_word (r : RegRow) (a : Nat) (v : Via) (w : Word) (ha : a ≠ R.HIF_UG_PEND) :
    (d.plainWrite r a v w).word a = d.plainActive r a v (w &&& namedBits r a) := by
  unfold Dev.plainWrite
  simp only
  split
  · exact Dev.word_setWord_same _ _ _
  · rw [Dev.setShadow, Dev.syncPend, Dev.word_put_ne _ _ (Ne.symm ha)]
    exact Dev.word_setWord_same _ _ _

/-- A write of a whole register that gets through and is no operation. -/
theorem runHost_plain {s : State} {a i v : Nat} {r : RegRow} (h : s.Reaches a) (ha : a < controlEnd)
    (hr : registerAt a = some (r, i)) (hs : reachesState a = false) (hb : R.SEC_ATT_NONCE 0 ≠ a / 0x10000 * 0x10000 + r.off)
    (hf : ∀ d : Dev, d.special (a / 0x10000 * 0x10000 + r.off) i (BitVec.ofNat 32 v &&& namedBits r a) = none)
    (hw : R.TOP_WDOG_CTRL ≠ a / 0x10000 * 0x10000 + r.off)
    (hfl : s.dev.writeFlags r a Via.whole (BitVec.ofNat 32 v) = []) :
    runHost (State.writeReg a v) s = .next (s.begin.onDev (fun d =>
      Dev.after (d.endHold a) (a / 0x10000 * 0x10000 + r.off) i (BitVec.ofNat 32 v &&& namedBits r a)
        ((d.endHold a).plainWrite r a Via.whole (BitVec.ofNat 32 v)))).commit := by
  obtain ⟨hu, hsh, hth⟩ := h
  simp only [reachesState, Bool.or_eq_false_iff, beq_eq_false_iff_ne, ne_eq] at hs
  obtain ⟨⟨⟨⟨h1, h2⟩, h3⟩, h4⟩, h5⟩ := hs
  rw [runHost_of_up _ hu, State.writeReg, State.writeDword_at _ _ ha hr (by simpa using hsh) (by simpa using hth)]
  simp only [State.regWrite, h1, h2, h3, h4, h5, or_self, if_false]
  have hfl' : ((s.begin.onDev (Dev.endHold a)).dev).writeFlags r a Via.whole (BitVec.ofNat 32 v) = [] := hfl
  simp only [State.onDev]
  rw [Dev.regWrite, if_neg (fun e => hb e.1)]
  simp only [Dev.wordSeen, show Via.whole.viaAlias = false from rfl, Bool.false_eq_true, if_false, hf, hw.symm, false_and]
  simp only [State.onDev] at hfl'
  rw [hfl']
  rfl

/-- A command that writes one field writes the register's settable bits with that field changed. -/
theorem runHost_field {s : State} (f : Fld) (v : Nat) (h : s.Up) : runHost (State.writeField f v) s =
    runHost (State.writeReg f.addr (setBits (s.begin.dev.settableBits f.addr) f.lsb f.width v).toNat) s := by
  rw [runHost_of_up _ h, runHost_of_up _ h]
  simp only [State.writeField, State.writeReg, BitVec.ofNat_toNat, BitVec.setWidth_eq]

/-- The settable bits of a register whose row is known. -/
theorem Dev.settableBits_of {d : Dev} {a : Nat} {r : RegRow} {i : Nat × Nat} {m : Word} (h : rowAt a = some (r, i))
    (hm : parityBits r = m) : d.settableBits a = d.word a &&& m := by
  simp [Dev.settableBits, h, hm]

end Sys2Proof.Machine
end

