-- ==== Sys2Proof/Tests/Witnesses.lean ====
section
/-! SUPPORT. For each statement with hypotheses, concrete states and operands that meet them, clause by clause. -/

open Sys2Proof Sys2Proof.Machine

set_option Elab.async false
set_option linter.unusedVariables false

/-- A state with fields of registers at given values. -/
def Sys2Proof.Machine.State.having (l : List (Fld × Nat)) (s : State) : State := s.onDev (fun d => l.foldl (fun e x => e.put x.1 x.2) d)

namespace Sys2Proof.Tests

/-- A device with a full image applied, everything present, powered and ready, and port 0 on lane 0 up. -/
def full : State :=
  (State.reset.onDev (fun d => { d with img := { d.img with full := some 512, domains := 0x1FF } })).having
    [(F.IMG_PRESENT, 0xFFFFFF), (F.IMG_REGIONS, 0x3FF), (F.IMG_STATUS_state, Img.appliedSt), (⟨R.TOP_READY, 0, 32⟩, 0xFFFFFFFF),
      (F.TOP_READY_PORT_0, 1), (F.TOP_READY_VPORT, 1), (F.PWR_DOM_STATUS_on, 0xFFF), (F.HSL_CFG_used 0, 1), (F.HSL_CFG_port 0, 0),
      (F.TBS_STATUS_counting, 1), (F.HSL_STATUS_pwr_state 0, 0), (⟨R.PWR_LAT_TOL_PORT 0, 0, 32⟩, 400),
      (⟨R.PWR_LAT_TOL_CL 0, 0, 32⟩, 400), (⟨R.PWR_LAT_TOL_GRP 0, 0, 32⟩, 400), (⟨R.PWR_LAT_TOL_ROPE 0, 0, 32⟩, 40000)]

/-- A device held in a cold reset. -/
def heldState : State := full.onDev (fun d => { d with rst := { d.rst with phase := .cold } })

/-- A device in a warm reset. -/
def busyState : State := full.having [(F.TOP_RST_CTRL_busy, 1)]

/-- A device whose interrupt source 0 has just risen, on vector 3. -/
def risen : State := full.having [(⟨R.TOP_EVENT, 0, 1⟩, 1), (⟨R.TOP_EVENT + 4, 0, 1⟩, 1), (F.HIF_VEC_MAP_enable 0, 1), (F.HIF_VEC_MAP_vector 0, 3)]

/-- A device that is a member of a belay pair, with its belay lanes in RUN. -/
def member : State :=
  full.having [(F.RDN_CTRL_enable, 1), (F.RDN_CFG_link_en, 1), (F.RLK_STATUS_state 14, Rlk.run), (F.RLK_STATUS_state 15, Rlk.run),
    (F.RLK_CFG_tunnel_en 14, 1), (⟨R.RLK_PARTNER_CAP 14, 0, 32⟩, 0x10000)]

/-- That member as the ACTIVE one. -/
def activeMember : State := member.having [(F.RDN_STATUS_role, Role.active), (F.RDN_STATUS_ilk_drive, 1)]

/-- A member that stands by, with port 0 under the pair. -/
def standing : State := member.having [(F.RDN_STATUS_role, Role.standby)]

/-- Port 0 with one whole frame in strict queue 3. -/
def queued : State :=
  (full.onDev (fun d => { d with fwd := { d.fwd with frames := [(1, { complete := true })] } }.setQueue 0 3 [{ frame := 1 }])).having
    [(F.QSC_SCHED_strict 0, 0xFF)]

/-- Port 0 with a frame on its way. -/
def sending (c : Copy) : State :=
  full.onDev (fun d => { d with fwd := { d.fwd with frames := [(1, { complete := true })] } }.setSending 0 (some { copy := c, queue := 3 }))

/-- No head of a queue is late or too long, as a test over the queues. -/
theorem heads_fine (d : Dev) (p : Nat)
    (h : ((List.range 8).all (fun r => match d.queue p r with
      | c :: _ => !d.isLate p c && !d.fitsNever p r c
      | [] => true)) = true) :
    ∀ r < 8, ∀ c l, d.queue p r = c :: l → d.isLate p c = false ∧ d.fitsNever p r c = false := by
  intro r hr c l e
  have := List.all_eq_true.mp h r (List.mem_range.mpr hr)
  rw [e] at this
  simpa using this

/-- A flow of the stream keeper on port 0, in filling. -/
def keeping (w2 : Nat) : State :=
  (full.onDev (fun d => (((d.storeDword (flowAddr 0) (2 ^ 31 + 2 * 2 ^ 28)).storeDword (flowAddr 0 + 8) w2).storeDword
    (tmplBase + 12) (2 ^ 31)).storeDword tmplBase (0xFFF * 2 ^ 16 + 64))).having [(F.QSC_SK_CTRL_enable, 1), (F.TOP_READY_time, 1)]

/-- A TDC channel with a pair of counts. -/
def timed (c : Nat) (t : Tdc) : State := full.onDev (fun d => d.setTdc c t)

/-- A PHX report of version `v` with valid time and grid. -/
def reportOf (v : Byte) : List Byte :=
  withFcs (beBytes 6 phxDa ++ List.replicate 6 0 ++ [0x88, 0xB5, v, 3, 0, 0] ++ beBytes 8 7 ++ List.replicate 56 0)

/-- Slot 0 on the host's PTP correction, in a state. -/
def slotIn (st : Nat) : State := full.having [(F.REF_SLOT_CFG_rank 0, 1), (F.REF_SLOT_CFG_cand 0, 88), (F.REF_SLOT_STAT_state 0, st)]

/-- That slot with its correction live. -/
def slotLive (st : Nat) : State := (slotIn st).onDev (fun d => { d with refs := { d.refs with ptpLive := true } })

/-- A belay message as it arrives. -/
def messageOf (ty : Nat) (body : List Byte) : List Byte :=
  withFcs ([BitVec.ofNat 8 ty, 1] ++ beBytes 2 body.length ++ beBytes 4 9 ++ body ++ [0, 0, 0, 0])

/-- The member after a message is taken. -/
def taken (s : State) (ty : Nat) (body : List Byte) : Dev := (s.begin.dev.takeBelay ty (messageOf ty body) true).2

/-- The row of PWR_ALLOW_TABLE_LOSS, a plain register. -/
def lossRow : RegRow := ((registerAt R.PWR_ALLOW_TABLE_LOSS).get (by decide +kernel)).1

/-- A write of it, at 0x00030014, starts nothing. -/
theorem loss_special (d : Dev) (i : Nat) (w : Word) :
    d.special 0x00030014 i w = none := by
  unfold Dev.special; simp +decide only [if_false, if_true]

/-- A write of it sets nothing going. -/
theorem loss_after (old d : Dev) (i : Nat) (w : Word) :
    Dev.after old 0x00030014 i w d = d := by
  unfold Dev.after; simp +decide only [if_false, if_true]; rfl

/-- A flow of the stream keeper on port 0, running. -/
def keepingRun (w2 : Nat) : State :=
  (keeping w2).onDev (fun d => d.storeDword (flowAddr 0) (2 ^ 31 + 2 ^ 28))

/-- Control words of a hyperframe with their right CRC. -/
def goodWords : List Byte := 1 :: List.replicate 75 0 ++ beBytes 2 (ropeCrc (1 :: List.replicate 75 0)) ++ [0, 0]

/-- Engine 1 of cluster 0 with a header and a bucket that has none, and engine 2 idle for long. -/
def loaded : State :=
  ((full.onDev (fun d => { d with fwd := { d.fwd with engQ := [(engineKey 0 1, [1])], idle := [(engineKey 0 2, 10 ^ 6)] } })).onDev
    (fun d => d.setBucket 0 1 { d.bucket 0 1 with owner := 1, ownerCl := 0, activity := 5 })).having
      [(F.FWD_STEAL_CFG_enable 0, 1), (F.FWD_STEAL_CFG_min_depth 0, 1)]

/-- PHX link 0 in ACQUIRE with its grid resolved. -/
def ambiguous : State := (full.onDev (fun d => d.setPhx 0 { resolved := true })).having [(F.PHX_STATUS_state 0, 3)]

/-- What meets the hypotheses of `StepTakesFront`, clause by clause. -/
theorem witness_StepTakesFront :
  (∃ (s : State), ∃ (c : Instr), ∃ rest, s.pending = c :: rest) ∧
  (∃ (s : State), ∃ (c : Instr), s.pending = []) ∧
  (∃ (s : State), ∃ (c : Instr), s.pending = [] ∧ s.Up) :=
  ⟨⟨{ full with pending := [.thermWarn] }, .thermWarn, [], by decide +kernel⟩,
   ⟨full, .thermWarn, by decide +kernel⟩,
   ⟨full, .thermWarn, by decide +kernel⟩⟩

/-- What meets the hypotheses of `ResetState`, clause by clause. -/
theorem witness_ResetState :
  (∃ a, a ≠ 0) :=
  ⟨4, by decide +kernel⟩

/-- What meets the hypotheses of `HeldDevice`, clause by clause. -/
theorem witness_HeldDevice :
  (∃ (c : Instr), ∃ (s : State), s.dev.held = true ∧ actsHeld c = false) :=
  ⟨.thermWarn, heldState, by decide +kernel⟩

/-- What meets the hypotheses of `WatchdogActs`, clause by clause. -/
theorem witness_WatchdogActs :
  (∃ (s : State), s.Reaches R.TOP_WDOG_KICK ∧ s.dev.flag F.TOP_WDOG_CTRL_enable = true ∧ s.dev.busy = false) ∧
  (∃ (s : State), ∃ (period : BitVec 16), s.Reaches R.TOP_WDOG_CTRL ∧ s.dev.onceWritten R.TOP_WDOG_CTRL = false ∧ s.dev.busy =
    false) ∧
  (∃ (s : State), s.Up ∧ s.dev.flag F.TOP_WDOG_CTRL_enable = true ∧ s.dev.get F.TOP_WDOG_COUNT = 1 ∧ s.dev.busy = false) :=
  ⟨⟨full.having [(F.TOP_WDOG_CTRL_enable, 1)], by decide +kernel⟩,
   ⟨full, 5, by decide +kernel⟩,
   ⟨full.having [(F.TOP_WDOG_CTRL_enable, 1), (F.TOP_WDOG_COUNT, 1)], by decide +kernel⟩⟩

/-- What meets the hypotheses of `DeviceResets`, clause by clause. -/
theorem witness_DeviceResets :
  (∃ (s : State), ∃ (flash mramOk : Bool), s.dev.held = true) ∧
  (∃ (s : State), ∃ (flash mramOk : Bool), s.Up) :=
  ⟨⟨heldState, true, true, by decide +kernel⟩,
   ⟨full, true, true, by decide +kernel⟩⟩

/-- What meets the hypotheses of `WarmResetRuns`, clause by clause. -/
theorem witness_WarmResetRuns :
  (∃ (s : State), s.Reaches R.TOP_RST_CTRL ∧ s.dev.busy = false ∧ s.dev.applied = true ∧ s.dev.img.spoiled = false) ∧
  (∃ (s : State), s.Reaches R.TOP_RST_CTRL ∧ s.dev.busy = false ∧ (s.dev.applied = false ∨ s.dev.img.spoiled = true)) ∧
  (∃ (s : State), s.Reaches R.TOP_RST_CTRL ∧ s.dev.busy = true) ∧
  (∃ (s : State), s.Up ∧ s.dev.busy = true) :=
  ⟨⟨full, by decide +kernel⟩,
   ⟨full.onDev (fun d => { d with img := { d.img with spoiled := true } }), by decide +kernel⟩,
   ⟨busyState, by decide +kernel⟩,
   ⟨busyState, by decide +kernel⟩⟩

/-- What meets the hypotheses of `PartResets`, clause by clause. -/
theorem witness_PartResets :
  (∃ (s : State), ∃ (blocks : Word), s.Reaches R.TOP_BLK_RST ∧ blocks.toNat < 2 ^ 24) ∧
  (∃ (s : State), ∃ (high : Bool), ∃ (ports : Word), s.Reaches (if high then R.TOP_PORT_RST_1 else R.TOP_PORT_RST_0)) ∧
  (∃ (s : State), ∃ (pg : Fin 24), s.Reaches R.TOP_BLK_RST ∧ blockResettable pg = true ∧ s.dev.blockPresent pg = true ∧
    s.dev.busy = false ∧ s.dev.bitAt R.TOP_BLK_RST pg = false ∧ s.dev.blockWaits pg = false) ∧
  (∃ (s : State), ∃ (pg : Fin 24), s.Reaches R.TOP_BLK_RST ∧ blockResettable pg = false) ∧
  (∃ (s : State), ∃ (p : Fin 64), s.Reaches (portRstReg p) ∧ s.dev.portPresent p = true ∧ s.dev.busy = false ∧ s.dev.bitAt
    (portRstReg p) (p % 32) = false ∧ s.dev.prRunning = false) ∧
  (∃ (s : State), ∃ (pg : Fin 24), s.Up ∧ s.dev.blockInReset pg = true) ∧
  (∃ (s : State), ∃ (p : Fin 64), s.Up ∧ s.dev.bitAt (portRstReg p) (p % 32) = true ∧ s.dev.rst.heldPorts.contains p.val = false) :=
  ⟨⟨full, 0x10001, by decide +kernel⟩,
   ⟨full, true, 5, by decide +kernel⟩,
   ⟨full, 16, by decide +kernel⟩,
   ⟨full, 0, by decide +kernel⟩,
   ⟨full, 0, by decide +kernel⟩,
   ⟨full.having [(⟨R.TOP_BLK_RST, 16, 1⟩, 1)], 16, by decide +kernel⟩,
   ⟨full.having [(⟨R.TOP_PORT_RST_0, 0, 1⟩, 1)], 0, by decide +kernel⟩⟩

/-- What meets the hypotheses of `HostLink`, clause by clause. -/
theorem witness_HostLink :
  (∃ (s : State), ∃ kind, kind ≠ HostReset.perst ∧ s.Up ∧ s.dev.host.hostReset = false) ∧
  (∃ (s : State), s.Up ∧ s.dev.host.perstN = true ∧ s.dev.sec.extest = false) ∧
  (∃ (s : State), s.Up ∧ (s.dev.host.perstN = false ∨ s.dev.sec.extest = true)) :=
  ⟨⟨full, .hot, by decide +kernel⟩,
   ⟨full.onDev (fun d => { d with host := { d.host with perstN := true } }), by decide +kernel⟩,
   ⟨full.onDev (fun d => { d with host := { d.host with perstN := false } }), by decide +kernel⟩⟩

/-- What meets the hypotheses of `ImageLoad`, clause by clause. -/
theorem witness_ImageLoad :
  (∃ (s : State), ∃ (slot : Nat), s.Up ∧ s.dev.img.reading = some slot) ∧
  (∃ (s : State), ∃ (slot : Nat), s.Up ∧ s.dev.img.reading = some slot ∧ slot = 0) ∧
  (∃ (s : State), ∃ (slot : Nat), s.Up ∧ s.dev.img.reading = some slot ∧ slot ≠ 0) ∧
  (∃ (s : State), s.Reaches R.IMG_CTRL ∧ (s.dev.get F.IMG_STATUS_state = Img.empty ∨ s.dev.get F.IMG_STATUS_state = Img.failed)) ∧
  (∃ (s : State), s.Reaches R.IMG_CTRL ∧ s.dev.get F.IMG_STATUS_state ≠ Img.empty ∧ s.dev.get F.IMG_STATUS_state ≠ Img.failed) ∧
  (∃ (s : State), s.Reaches R.IMG_CTRL) :=
  ⟨⟨State.reset.onDev (fun d => { d with img := { d.img with reading := some 1 } }), 1, by decide +kernel⟩,
   ⟨State.reset.onDev (fun d => { d with img := { d.img with reading := some 0 } }), 0, by decide +kernel⟩,
   ⟨State.reset.onDev (fun d => { d with img := { d.img with reading := some 1 } }), 1, by decide +kernel⟩,
   ⟨State.reset, by decide +kernel⟩,
   ⟨full, by decide +kernel⟩,
   ⟨State.reset, by decide +kernel⟩⟩

/-- What meets the hypotheses of `ImageWindows`, clause by clause. -/
theorem witness_ImageWindows :
  (∃ (s : State), ∃ (be : BitVec 4), ∃ (data : Word), ∃ (index : BitVec 20), s.Up ∧ s.dev.busy = false ∧ s.dev.stagingOpen =
    true) ∧
  (∃ (s : State), ∃ (be : BitVec 4), ∃ (data : Word), ∃ (index : BitVec 15), s.Up ∧ s.dev.busy = false ∧ s.dev.pendingOpen =
    true) ∧
  (∃ (s : State), ∃ (be : BitVec 4), ∃ (data : Word), s.Up ∧ s.dev.busy = false) :=
  ⟨⟨State.reset, 0xF, 5, 0, by decide +kernel⟩,
   ⟨State.reset, 0xF, 5, 0, by decide +kernel⟩,
   ⟨State.reset, 0xF, 5, by decide +kernel⟩⟩

/-- What meets the hypotheses of `PartialRestructure`, clause by clause. -/
theorem witness_PartialRestructure :
  (∃ (s : State), ∃ (group : Fin 8), ∃ (flush loss : Bool), s.Reaches R.IMG_CTRL ∧ s.dev.get F.IMG_STATUS_state = Img.appliedSt ∧
    s.dev.refusesImages = false ∧ (s.dev.locked = false ∨ s.dev.policyBit Policy.prAfterLock = true) ∧ (loss = true ∨ ∀ l ∈
    s.dev.prLanes group s.dev.pendingImage, ∀ p ∈ s.dev.refPorts, l ∉ s.dev.portLanes p)) ∧
  (∃ (s : State), ∃ (group : Fin 8), ∃ (flush loss : Bool), ∃ (r : Nat), let st := s.dev.get F.IMG_STATUS_state; let carries := ∃ l ∈ s.dev.prLanes group s.dev.pendingImage, ∃ p ∈ s.dev.refPorts, l ∈ s.dev.portLanes p; s.Reaches R.IMG_CTRL ∧ (r = 0x0E ∧ (1 ≤ st ∧ st ≤ 3 ∨ 5 ≤ st ∧ st ≤ 7) ∨ r = 0x0C ∧ (st = 0 ∨ 8 ≤ st) ∨ st = Img.appliedSt ∧ (r = 0x13 ∧ s.dev.refusesImages = true ∨ s.dev.refusesImages = false ∧ (r = 0x0F ∧ loss = false ∧ carries ∨ r = 0x10 ∧ (loss = true ∨ ¬ carries) ∧ s.dev.locked = true ∧ s.dev.policyBit Policy.prAfterLock = false)))) ∧
  (∃ (s : State), s.Up ∧ s.dev.get F.IMG_STATUS_state = Img.prVerifying ∧ s.dev.prPowerWaits = true) ∧
  (∃ (s : State), s.Up ∧ s.dev.get F.IMG_STATUS_state = Img.prVerifying ∧ s.dev.prPowerWaits = false) ∧
  (∃ (s : State), s.Up ∧ s.dev.get F.IMG_STATUS_state = Img.prQuiescing) ∧
  (∃ (s : State), s.Up ∧ s.dev.get F.IMG_STATUS_state = Img.prQuiescing ∧ s.dev.prQuiet = true) :=
  ⟨⟨full, 0, true, true, ⟨by decide +kernel, by decide +kernel, by decide +kernel, by decide +kernel, Or.inl rfl⟩⟩,
   ⟨full.having [(F.IMG_STATUS_state, 1)], 0, true, true, 0x0E, ⟨by decide +kernel, Or.inl ⟨rfl, by decide +kernel⟩⟩⟩,
   ⟨full.having [(F.IMG_STATUS_state, Img.prVerifying), (F.PWR_DOM_STATUS_on, 0)], by decide +kernel⟩,
   ⟨full.having [(F.IMG_STATUS_state, Img.prVerifying)], by decide +kernel⟩,
   ⟨full.having [(F.IMG_STATUS_state, 6)], by decide +kernel⟩,
   ⟨full.having [(F.IMG_STATUS_state, 6)], by decide +kernel⟩⟩

/-- What meets the hypotheses of `PlainWriteBits`, clause by clause. -/
theorem witness_PlainWriteBits :
  (∃ (d : Dev), ∃ (r : RegRow), ∃ (a : Nat), ∃ (w : Word), ∃ f, ∃ k, a ≠ R.HIF_UG_PEND ∧ (r.fields.Pairwise (fun f g => f.lsb +
    f.width ≤ g.lsb ∨ g.lsb + g.width ≤ f.lsb)) ∧ w &&& ~~~(namedBits r a) = 0 ∧ f ∈ r.fields ∧ k < 32 ∧ f.lsb ≤ k ∧ k < f.lsb +
    f.width) ∧
  (∃ (d : Dev), ∃ (r : RegRow), ∃ (a : Nat), ∃ (w : Word), ∃ k, a ≠ R.HIF_UG_PEND ∧ (r.fields.Pairwise (fun f g => f.lsb +
    f.width ≤ g.lsb ∨ g.lsb + g.width ≤ f.lsb)) ∧ w &&& ~~~(namedBits r a) = 0 ∧ k < 32 ∧ (∀ f ∈ r.fields, ¬ (f.lsb ≤ k ∧ k <
    f.lsb + f.width))) ∧
  (∃ (s : State), ∃ (offset : BitVec 26), ∃ (be : BitVec 4), ∃ (data : Word), ∃ (r : RegRow), ∃ (i : Nat), let o := offset.toNat / 128 * 4; let b := offset.toNat / 4 % 32; s.Reaches o ∧ o < controlEnd ∧ offset.toNat % 4 = 0 ∧ be.getLsbD 0 = true ∧ registerAt o = some (r, i) ∧ reachesState o = false ∧ o ≠ R.HIF_UG_PEND ∧ o / 0x10000 * 0x10000 + r.off ≠ R.SEC_ATT_NONCE 0 ∧ o / 0x10000 * 0x10000 + r.off ≠ R.TOP_WDOG_CTRL ∧ (∀ (d : Dev) (w : Word), d.special (o / 0x10000 * 0x10000 + r.off) i w = none) ∧ (∀ (old d : Dev) (w : Word), Dev.after old (o / 0x10000 * 0x10000 + r.off) i w d = d) ∧ (r.fields.Pairwise (fun f g => f.lsb + f.width ≤ g.lsb ∨ g.lsb + g.width ≤ f.lsb)) ∧ (∃ f ∈ r.fields, f.ty = .rw ∧ f.upd = .i ∧ f.lsb ≤ b ∧ b < f.lsb + f.width) ∧ (namedBits r o).getLsbD b = true) :=
  ⟨⟨full.dev, lossRow, R.PWR_ALLOW_TABLE_LOSS, 1, lossRow.fields.head (by decide +kernel), 0, by decide +kernel⟩,
   ⟨full.dev, lossRow, R.PWR_ALLOW_TABLE_LOSS, 1, 31, by decide +kernel⟩,
   ⟨full, R.PWR_ALLOW_TABLE_LOSS * 32, 1, 1, lossRow, 0, ⟨by decide +kernel, by decide +kernel, by decide +kernel, by
     decide +kernel, by decide +kernel, by decide +kernel, by decide +kernel, by decide +kernel, by decide +kernel, fun d w =>
     (congrArg (fun n => d.special n 0 w) (show _ = 0x00030014 by decide +kernel)).trans (loss_special d 0 w), fun old d w =>
     (congrArg (fun n => Dev.after old n 0 w d) (show _ = 0x00030014 by decide +kernel)).trans (loss_after old d 0 w), by
     decide +kernel, by decide +kernel, by decide +kernel⟩⟩⟩

/-- What meets the hypotheses of `RegisterWriteRuns`, clause by clause. -/
theorem witness_RegisterWriteRuns :
  (∃ (s : State), ∃ (addr : BitVec 28), ∃ (r : RegRow), ∃ (i : Nat), ∃ (w : Word), s.Reaches addr.toNat ∧ addr.toNat < controlEnd
    ∧ addr.toNat % 4 = 0 ∧ registerAt addr.toNat = some (r, i) ∧ reachesState addr.toNat = false ∧ addr.toNat / 0x10000 * 0x10000
    + r.off ≠ R.SEC_ATT_NONCE 0 ∧ addr.toNat / 0x10000 * 0x10000 + r.off ≠ R.TOP_WDOG_CTRL ∧ (∀ d : Dev, d.special (addr.toNat /
    0x10000 * 0x10000 + r.off) i (w &&& namedBits r addr.toNat) = none) ∧ s.dev.writeFlags r addr.toNat Via.whole w = []) ∧
  (∃ (s : State), ∃ (addr : BitVec 28), ∃ (be : BitVec 4), ∃ (ws : List Word), ∃ w0, ∃ w1, s.Up ∧ ws = [w0, w1] ∧ addr.toNat % 8
    < 4 ∧ addr.toNat / 4 * 4 < controlEnd) ∧
  (∃ (s : State), ∃ (addr : BitVec 28), ∃ (be : BitVec 4), ∃ (ws : List Word), s.Up ∧ (ws.length ≠ 2 ∨ 4 ≤ addr.toNat % 8 ∨
    controlEnd ≤ addr.toNat / 4 * 4) ∧ be = 0xF) ∧
  (∃ (s : State), ∃ (addr : BitVec 28), ∃ (be : BitVec 4), ∃ (ws : List Word), s.Up ∧ (ws.length ≠ 2 ∨ 4 ≤ addr.toNat % 8 ∨
    controlEnd ≤ addr.toNat / 4 * 4)) ∧
  (∃ (t : State), ∃ (a : Nat), ∃ (be : BitVec 4), ∃ (w : Word), ∃ (ws : List Word), a % 4 = 0) ∧
  (∃ (old d : Dev), ∃ (a : Nat), a < 2 ^ 28 ∧ d.raised.any (fun e => e.code == E.HIF_ACC_REFUSED && (e.inst == a || e.inst == a +
    4)) = true) ∧
  (∃ (old d : Dev), ∃ (a : Nat), a < 2 ^ 28 ∧ d.raised.any (fun e => e.code == E.IMG_ABSENT_WRITE && (e.inst == a || e.inst == a
    + 4)) = true) :=
  ⟨⟨full, R.PWR_ALLOW_TABLE_LOSS, lossRow, 0, 1, ⟨by decide +kernel, by decide +kernel, by decide +kernel, by decide +kernel, by
     decide +kernel, by decide +kernel, by decide +kernel, fun d => (congrArg (fun n => d.special n 0 _) (show _ = 0x00030014 by
     decide +kernel)).trans (loss_special d 0 _), by decide +kernel⟩⟩,
   ⟨full, 0x30010, 0xF, [1, 2], 1, 2, by decide +kernel⟩,
   ⟨full, 0x30010, 0xF, [1], by decide +kernel⟩,
   ⟨full, 0x30010, 3, [1], by decide +kernel⟩,
   ⟨full, 8, 0xF, 1, [2], by decide +kernel⟩,
   ⟨full.dev, { full.dev with raised := [⟨E.HIF_ACC_REFUSED, 8⟩] }, 8, by decide +kernel⟩,
   ⟨full.dev, { full.dev with raised := [⟨E.IMG_ABSENT_WRITE, 8⟩] }, 8, by decide +kernel⟩⟩

/-- What meets the hypotheses of `RefusedWrites`, clause by clause. -/
theorem witness_RefusedWrites :
  (∃ (s : State), ∃ (addr : BitVec 28), ∃ (be : BitVec 4), ∃ (w : Word), s.Up ∧ addr.toNat < controlEnd ∧ addr.toNat % 4 = 0 ∧
    s.dev.shut addr.toNat = true) ∧
  (∃ (s : State), ∃ (addr : BitVec 28), ∃ (be : BitVec 4), ∃ (w : Word), s.Up ∧ addr.toNat < controlEnd ∧ addr.toNat % 4 = 0 ∧
    s.dev.shut addr.toNat = false ∧ s.dev.there addr.toNat = false) ∧
  (∃ (s : State), ∃ (addr : BitVec 28), ∃ (be : BitVec 4), ∃ (w : Word), s.Up ∧ addr.toNat < controlEnd ∧ addr.toNat % 4 = 0 ∧
    s.Reaches addr.toNat ∧ registerAt addr.toNat = none) ∧
  (∃ (s : State), ∃ (addr : BitVec 28), ∃ (be : BitVec 4), ∃ (w : Word), s.Up ∧ addr.toNat < controlEnd ∧ addr.toNat % 4 = 0 ∧
    s.Reaches addr.toNat ∧ (registerAt addr.toNat).isSome = true ∧ be ≠ 0xF) ∧
  (∃ (d : Dev), ∃ (i addr : Nat), i < 8 ∧ addr < 2 ^ 28) :=
  ⟨⟨busyState, 0x20000, 0xF, 1, by decide +kernel⟩,
   ⟨State.reset, 0x100000, 0xF, 1, by decide +kernel⟩,
   ⟨full, 0x0000FFF0, 0xF, 1, by decide +kernel⟩,
   ⟨full, R.PWR_ALLOW_TABLE_LOSS, 1, 1, by decide +kernel⟩,
   ⟨full.dev, 2, 4, by decide +kernel⟩⟩

/-- What meets the hypotheses of `RegisterReads`, clause by clause. -/
theorem witness_RegisterReads :
  (∃ (s : State), ∃ (addr : BitVec 28), ∃ (r : RegRow), ∃ (i : Nat), s.Reaches addr.toNat ∧ addr.toNat < controlEnd ∧ addr.toNat
    % 4 = 0 ∧ registerAt addr.toNat = some (r, i) ∧ Sparse.get? s.dev.host.hold (holdOf addr.toNat) = none ∧ isPairLow addr.toNat
    = false) ∧
  (∃ (s : State), ∃ (addr : BitVec 28), ∃ (r : RegRow), ∃ (i : Nat), ∃ (r2 : RegRow), ∃ (i2 : Nat), s.Reaches addr.toNat ∧
    addr.toNat < controlEnd ∧ addr.toNat % 4 = 0 ∧ registerAt addr.toNat = some (r, i) ∧ Sparse.get? s.dev.host.hold (holdOf
    addr.toNat) = none ∧ isPairLow addr.toNat = true ∧ registerAt (addr.toNat + 4) = some (r2, i2)) ∧
  (∃ (s : State), ∃ (addr : BitVec 28), ∃ (r : RegRow), ∃ (i : Nat), ∃ (d : Dev), ∃ (x : Word), s.Reaches addr.toNat ∧ addr.toNat
    < controlEnd ∧ addr.toNat % 4 = 0 ∧ registerAt addr.toNat = some (r, i) ∧ Sparse.get? s.dev.host.hold (holdOf addr.toNat) =
    none ∧ d.shut addr.toNat = false ∧ d.there addr.toNat = true) ∧
  (∃ (s : State), ∃ (addr : BitVec 28), s.Up ∧ addr.toNat % 8 = 0) ∧
  (∃ (s : State), ∃ (addr : BitVec 28), ∃ n, s.Up ∧ n ≠ 1 ∧ n ≠ 2) ∧
  (∃ (s : State), ∃ (addr : BitVec 28), ∃ (v : Fin 64), ∃ (k : Fin 4), ∃ (a : BitVec 16), s.Up ∧ a.toNat = 16 * v + 4 * k) ∧
  (∃ (s : State), ∃ (addr : BitVec 28), s.Up) ∧
  (∃ (s : State), ∃ (addr : BitVec 28), ∃ (k : BitVec 10), ∃ (w : Word), ∃ (b : Bool), s.Up ∧ k = 4) ∧
  (∃ (s : State), ∃ (addr : BitVec 28), ∃ (k : BitVec 10), ∃ (w : Word), ∃ (b : Bool), s.Up ∧ k = 6) ∧
  (∃ (s : State), ∃ (addr : BitVec 28), ∃ (k : BitVec 10), ∃ (w : Word), ∃ (b : Bool), s.Up ∧ (k = 5 ∨ k = 7)) :=
  ⟨⟨full, R.TOP_ID, ((registerAt R.TOP_ID).get (by decide +kernel)).1, ((registerAt R.TOP_ID).get (by decide +kernel)).2, by
     decide +kernel⟩,
   ⟨full, R.TBS_SNAP_SEC_LO, ((registerAt R.TBS_SNAP_SEC_LO).get (by decide +kernel)).1, ((registerAt R.TBS_SNAP_SEC_LO).get (by
     decide +kernel)).2, ((registerAt (R.TBS_SNAP_SEC_LO + 4)).get (by decide +kernel)).1, ((registerAt (R.TBS_SNAP_SEC_LO +
     4)).get (by decide +kernel)).2, by decide +kernel⟩,
   ⟨full, R.TOP_ID, ((registerAt R.TOP_ID).get (by decide +kernel)).1, ((registerAt R.TOP_ID).get (by decide +kernel)).2,
     full.dev, 7, by decide +kernel⟩,
   ⟨full, 8, by decide +kernel⟩,
   ⟨full, 8, 3, by decide +kernel⟩,
   ⟨full, 8, 1, 2, 24, by decide +kernel⟩,
   ⟨full, 8, by decide +kernel⟩,
   ⟨full, 8, 4, 0, false, by decide +kernel⟩,
   ⟨full, 8, 6, 0, false, by decide +kernel⟩,
   ⟨full, 8, 5, 0, false, by decide +kernel⟩⟩

/-- What meets the hypotheses of `TableEntries`, clause by clause. -/
theorem witness_TableEntries :
  (∃ (s : State), ∃ (addr : BitVec 28), ∃ (w : Word), ∃ (c : Cellref), s.Up ∧ addr.toNat % 4 = 0 ∧ controlEnd ≤ addr.toNat ∧ ¬
    (aliasBase ≤ addr.toNat ∧ addr.toNat < aliasEnd) ∧ cellAt addr.toNat = some c ∧ s.dev.busy = false ∧ s.dev.cellPresent c =
    true ∧ s.dev.gateBankTaken c = false ∧ s.dev.domainOn c.area.domain = true ∧ s.dev.flag F.TOP_READY_fwd = true ∧
    c.area.readOnly = false ∧ c.area ≠ .staging ∧ c.area ≠ .pendingWin ∧ c.area ≠ .ctrVal ∧ c.area ≠ .ctrCfg ∧ c.area ≠ .mgtTx ∧
    w &&& ~~~(c.area.defined ((addr.toNat - c.base) / 4)) = 0 ∧ addr.toNat + 4 ≠ c.base + c.size) ∧
  (∃ (s : State), ∃ (addr : BitVec 28), ∃ (w : Word), ∃ (c : Cellref), s.Up ∧ addr.toNat % 4 = 0 ∧ controlEnd ≤ addr.toNat ∧ ¬
    (aliasBase ≤ addr.toNat ∧ addr.toNat < aliasEnd) ∧ cellAt addr.toNat = some c ∧ s.dev.busy = false ∧ s.dev.cellPresent c =
    true ∧ s.dev.gateBankTaken c = false ∧ s.dev.domainOn c.area.domain = true ∧ s.dev.flag F.TOP_READY_fwd = true ∧
    c.area.readOnly = false ∧ c.area ≠ .staging ∧ c.area ≠ .pendingWin ∧ c.area ≠ .ctrVal ∧ c.area ≠ .ctrCfg ∧ c.area ≠ .mgtTx ∧
    w &&& ~~~(c.area.defined ((addr.toNat - c.base) / 4)) = 0 ∧ addr.toNat + 4 = c.base + c.size) ∧
  (∃ (s : State), ∃ (addr : BitVec 28), ∃ (w : Word), ∃ (c : Cellref), ∃ (d : Dev), s.Up ∧ addr.toNat % 4 = 0 ∧ controlEnd ≤
    addr.toNat ∧ ¬ (aliasBase ≤ addr.toNat ∧ addr.toNat < aliasEnd) ∧ cellAt addr.toNat = some c ∧ s.dev.busy = false ∧
    s.dev.cellPresent c = true ∧ s.dev.gateBankTaken c = false ∧ s.dev.domainOn c.area.domain = true ∧ s.dev.flag F.TOP_READY_fwd
    = true ∧ c.area.readOnly = false ∧ c.area ≠ .staging ∧ c.area ≠ .pendingWin ∧ c.area ≠ .ctrVal ∧ c.area ≠ .ctrCfg ∧ c.area ≠
    .mgtTx ∧ w &&& ~~~(c.area.defined ((addr.toNat - c.base) / 4)) = 0 ∧ c.area ≠ .flows) :=
  ⟨⟨full, 0x1900000, 0, ((cellAt 0x1900000).get (by decide +kernel)), by decide +kernel⟩,
   ⟨full, 0x190000C, 0, ((cellAt 0x190000c).get (by decide +kernel)), by decide +kernel⟩,
   ⟨full, 0x1900000, 0, ((cellAt 0x1900000).get (by decide +kernel)), full.dev, by decide +kernel⟩⟩

/-- What meets the hypotheses of `UpdateGroups`, clause by clause. -/
theorem witness_UpdateGroups :
  (∃ (s : State), ∃ (groups : BitVec 8), s.Reaches R.HIF_UG_STROBE) ∧
  (∃ (s : State), ∃ (slot : Fin 4), ∃ (groups : BitVec 8), s.Reaches (R.HIF_ARM_CTRL slot) ∧ s.dev.timeReady = true ∧
    s.dev.namesStrobed groups.toNat = false ∧ s.dev.get (F.HIF_ARM_NS slot) < 1000000000) ∧
  (∃ (s : State), ∃ (slot : Fin 4), s.Up ∧ s.dev.flag (F.HIF_ARM_CTRL_enable slot) = true ∧ s.dev.armTime slot ≤ s.dev.nowNs ∧
    s.dev.host.lateArms.contains slot.val = false) ∧
  (∃ (s : State), ∃ (slots : BitVec 4), ∃ (strobe : BitVec 8), s.Up) ∧
  (∃ (d : Dev), ∃ (a : Nat), ∃ (w : Word), ∃ (m : Bool), ∃ (r : RegRow), ∃ (ij : Nat × Nat), Sparse.get? d.shadow a = some (w, m)
    ∧ d.parity.contains (a + 2 ^ 28) = false ∧ a / 0x10000 ≠ 9 ∧ a / 0x10000 ≠ 23 ∧ rowAt a = some (r, ij) ∧ (r.fields.Pairwise
    (fun f g => f.lsb + f.width ≤ g.lsb ∨ g.lsb + g.width ≤ f.lsb)) ∧ (∀ f ∈ r.fields, f.lsb + f.width ≤ 32)) :=
  ⟨⟨full, 1, by decide +kernel⟩,
   ⟨full.having [(F.HIF_ARM_NS 1, 0)], 1, 1, by decide +kernel⟩,
   ⟨full.having [(F.HIF_ARM_CTRL_enable 1, 1)], 1, by decide +kernel⟩,
   ⟨full, 1, 0, by decide +kernel⟩,
   ⟨{ full.dev with shadow := [(R.DPL_BW 0, 5, true)] }, R.DPL_BW 0, 5, true, ((rowAt (R.DPL_BW 0)).get (by decide +kernel)).1,
     ((rowAt (R.DPL_BW 0)).get (by decide +kernel)).2, by decide +kernel⟩⟩

/-- What meets the hypotheses of `HostErrors`, clause by clause. -/
theorem witness_HostErrors :
  (∃ (s : State), s.Up ∧ s.dev.parity = []) ∧
  (∃ (s : State), s.Up) ∧
  (∃ (s : State), ∃ (n : Fin 32), s.Up ∧ n.val ≠ 14) :=
  ⟨⟨full, by decide +kernel⟩,
   ⟨full, by decide +kernel⟩,
   ⟨full, 3, by decide +kernel⟩⟩

/-- What meets the hypotheses of `InterruptVectors`, clause by clause. -/
theorem witness_InterruptVectors :
  (∃ (s : State), ∃ (v : Fin 64), s.Reaches (if v.val < 32 then R.HIF_VEC_EOI_0 else R.HIF_VEC_EOI_1)) ∧
  (∃ (s : State), ∃ (v : Fin 64), ∃ (data : Word), s.Up) ∧
  (∃ (s : State), ∃ (v : Nat), s.irq.level.contains v = false ∧ s.irq.pending.contains v = false) ∧
  (∃ (s : State), ∃ (v : Nat), s.irq.level.contains v = true ∧ s.irq.masked.contains v = false) ∧
  (∃ (s : State), ∃ (v : Nat), s.irq.level.contains v = true ∧ s.irq.masked.contains v = true) ∧
  (∃ (s : State), ∃ (v : Nat), v ∈ s.interrupts.irq.level ∧ v ∉ s.irq.level ∧ v ∉ s.irq.masked ∧ v ∉ s.irq.inService) ∧
  (∃ (s : State), ∃ (v : Nat), v ∈ s.interrupts.irq.level ∧ v ∉ s.irq.level ∧ v ∈ s.irq.masked) ∧
  (∃ (s : State), ∃ (v : Nat), v ∈ s.interrupts.irq.level ∧ (v ∈ s.irq.inService ∨ v ∈ s.irq.level)) :=
  ⟨⟨full, 40, by decide +kernel⟩,
   ⟨full, 40, 1, by decide +kernel⟩,
   ⟨full, 5, by decide +kernel⟩,
   ⟨{ full with irq := { full.irq with level := [5], masked := [] } }, 5, by decide +kernel⟩,
   ⟨{ full with irq := { full.irq with level := [5] } }, 5, by decide +kernel⟩,
   ⟨{ risen with irq := { risen.irq with masked := [] } }, 3, by decide +kernel⟩,
   ⟨risen, 3, by decide +kernel⟩,
   ⟨{ risen with irq := { risen.irq with inService := [3] } }, 3, by decide +kernel⟩⟩

/-- What meets the hypotheses of `IntNFollowsSources`, clause by clause. -/
theorem witness_IntNFollowsSources :
  (∃ (c : Instr), ∃ (s t : State), exec c s = .next t) :=
  ⟨.thermWarn, full, _, rfl⟩

/-- What meets the hypotheses of `PendingVectorsWait`, clause by clause. -/
theorem witness_PendingVectorsWait :
  (∃ (s t : State), (∀ v ∈ s.irq.pending, v ∈ s.irq.masked ∨ v ∈ s.irq.inService) ∧ step s = .next t) :=
  ⟨State.reset, _, ⟨by decide +kernel, rfl⟩⟩

/-- What meets the hypotheses of `FrameArrival`, clause by clause. -/
theorem witness_FrameArrival :
  (∃ (s : State), ∃ (p : Fin 64), ∃ (seg : Seg), s.Up ∧ s.dev.flag (F.MAC_CFG_pcs_loop p) = false) ∧
  (∃ (s : State), ∃ (p : Fin 64), ∃ (seg : Seg), s.Up ∧ s.dev.flag (F.MAC_CFG_pcs_loop p) = true) ∧
  (∃ (s : State), ∃ (n : Fin 16), ∃ (bits : Nat), ∃ (beyond : Bool), ∃ seg, ∃ rest, s.Up ∧ tunnelSeg (s.dev.current (65 +
    n)).isSome beyond (s.dev.rope n).rx.stream = some (true, seg, rest)) ∧
  (∃ (s : State), ∃ (n : Fin 16), ∃ (bits : Nat), ∃ (beyond : Bool), ∃ seg, ∃ rest, s.Up ∧ tunnelSeg (s.dev.current (65 +
    n)).isSome beyond (s.dev.rope n).rx.stream = some (false, seg, rest)) ∧
  (∃ (s : State), ∃ (n : Fin 16), ∃ (bits : Nat), ∃ (beyond : Bool), s.Up ∧ tunnelSeg (s.dev.current (65 + n)).isSome beyond
    (s.dev.rope n).rx.stream = none) ∧
  (∃ (d : Dev), ∃ (p : Nat), ∃ (seg : Seg), ∃ (rx : Stamp), ∃ (fragments : Bool), d.takesFrames p = true ∧ p ≠ 64 ∧ seg.last =
    false ∧ d.current p = none ∧ seg.bytes.length < 128 ∧ seg.bytes.length ≤ d.maxFrame p) ∧
  (∃ (d : Dev), ∃ (p : Nat), ∃ (seg : Seg), ∃ (i : Nat), ∃ (f : Frame), d.takesFrames p = true ∧ p ≠ 64 ∧ seg.last = false ∧
    d.current p = some i ∧ d.frame? i = some f ∧ f.port = p ∧ f.raw = [] ∧ f.windowed = false ∧ f.buf = none ∧ f.bytes.length +
    seg.bytes.length < 128 ∧ f.bytes.length + seg.bytes.length ≤ d.maxFrame p) ∧
  (∃ (d : Dev), ∃ (i : Nat), ∃ (f : Frame), ∃ (codeErr beyond : Bool), d.frame i = f ∧ f.port ≠ 64 ∧ f.raw = [] ∧ f.sa = none ∧
    (codeErr = true ∨ fcsOk f.bytes = false)) ∧
  (∃ (d : Dev), ∃ (i : Nat), ∃ (f : Frame), ∃ (codeErr beyond : Bool), d.frame i = f ∧ f.port ≠ 64 ∧ f.raw = [] ∧ f.sa = none ∧
    codeErr = false ∧ fcsOk f.bytes = true ∧ (d.countReceived f.port f.bytes false false).ptpOf f = none) ∧
  (∃ (s : State), ∃ (ring : Fin 8), ∃ (tail : BitVec 16), ∃ (descs : List Desc), s.Up ∧ s.dev.busy = false) ∧
  (∃ (s : State), ∃ (ring : Fin 8), ∃ (seg : Seg), ∃ (i : Nat), ∃ (x : Desc), ∃ (l : List Desc), s.Up ∧ Sparse.getD
    s.dev.host.descs ring.val [] = x :: l ∧ s.dev.flag (F.HIF_TXR_SIZE_enable ring) = true ∧ s.dev.timeOnly = false ∧
    s.dev.current (ringKey ring) = some i ∧ (s.dev.frame i).windowed = true ∧ seg.last = false ∧ 9728 ≥ ((s.dev.frame i).bytes ++
    seg.bytes).length ∧ ((s.dev.setFrame i
    { s.dev.frame i with bytes := (s.dev.frame i).bytes ++ seg.bytes, short := false }).frame i).overruns = false) ∧
  (∃ (s : State), ∃ (ring : Fin 8), ∃ (seg : Seg), ∃ (x : Desc), ∃ (l : List Desc), s.Up ∧ Sparse.getD s.dev.host.descs ring.val
    [] = x :: l ∧ s.dev.flag (F.HIF_TXR_SIZE_enable ring) = true ∧ s.dev.timeOnly = false ∧ s.dev.current (ringKey ring) = none ∧
    seg.last = false ∧ seg.bytes.length < 128) ∧
  (∃ (s : State), ∃ (ring : Fin 8), ∃ (seg : Seg), s.Up ∧ (Sparse.getD s.dev.host.descs ring.val [] = [] ∨ s.dev.flag
    (F.HIF_TXR_SIZE_enable ring) = false ∨ s.dev.timeOnly = true)) :=
  ⟨⟨full, 0, ⟨List.replicate 64 0, false, false, false⟩, by decide +kernel⟩,
   ⟨full.having [(F.MAC_CFG_pcs_loop 0, 1)], 0, ⟨List.replicate 64 0, false, false, false⟩, by decide +kernel⟩,
   ⟨full.onDev (fun d => d.ropeRx 0 (fun x => { x with stream := tunnelSyms [1] true })), 0, 0, false, ⟨[1], true, false, false⟩,
     [], by decide +kernel⟩,
   ⟨(full.onDev (fun d => d.ropeRx 0 (fun x => { x with stream := [.data 1, .eof] }))).onDev (fun d => d.setCurrent 65 (some 1)),
     0, 0, false, ⟨[1], true, false, false⟩, [], by decide +kernel⟩,
   ⟨full, 0, 0, false, by decide +kernel⟩,
   ⟨full.dev, 0, ⟨List.replicate 30 0, false, false, false⟩, {}, false, by decide +kernel⟩,
   ⟨(full.onDev (fun d => { d with fwd := { d.fwd with rxCur := [(0, 1)], frames := [(1, { port := 0, bytes := [1] })] } })).dev,
     0, ⟨List.replicate 30 0, false, false, false⟩, 1, { port := 0, bytes := [1] }, by decide +kernel⟩,
   ⟨(full.onDev (fun d => { d with fwd := { d.fwd with frames := [(1, { port := 0, bytes := [1] })] } })).dev, 1,
     { port := 0, bytes := [1] }, true, false, by decide +kernel⟩,
   ⟨(full.onDev (fun d =>
     { d with fwd := { d.fwd with frames := [(1, { port := 0, bytes := withFcs (List.replicate 60 0) })] } })).dev, 1,
     { port := 0, bytes := withFcs (List.replicate 60 0) }, false, false, by decide +kernel⟩,
   ⟨full, 0, 1, [], by decide +kernel⟩,
   ⟨(full.onDev (fun d =>
     { d with fwd := { d.fwd with rxCur := [(ringKey 0, 1)], frames := [(1, { port := 64, bytes := [1], windowed := true })] }, host := { d.host with descs := [(0, [default])] } })).having
     [(F.HIF_TXR_SIZE_enable 0, 1)], 0, ⟨List.replicate 30 0, false, false, false⟩, 1, default, [], by decide +kernel⟩,
   ⟨(full.onDev (fun d => { d with host := { d.host with descs := [(0, [default])] } })).having [(F.HIF_TXR_SIZE_enable 0, 1)],
     0, ⟨List.replicate 30 0, false, false, false⟩, default, [], by decide +kernel⟩,
   ⟨full, 0, ⟨List.replicate 30 0, false, false, false⟩, by decide +kernel⟩⟩

/-- What meets the hypotheses of `LaneReceivers`, clause by clause. -/
theorem witness_LaneReceivers :
  (∃ (s : State), ∃ (l : Fin 64), s.Up ∧ s.dev.lanePresent l = true) ∧
  (∃ (s : State), ∃ (l : Fin 64), s.Up ∧ s.dev.laneRuns l = true) ∧
  (∃ (s : State), ∃ (l : Fin 64), s.Up ∧ s.dev.flag (F.HSL_STATUS_cdr_lock l) = true) ∧
  (∃ (s : State), ∃ (l : Fin 64), s.Up ∧ s.dev.laneRuns l = true ∧ s.dev.flag (F.HSL_STATUS_cdr_lock l) = true ∧ s.dev.flag
    (F.HSL_STATUS_align_lock l) = false ∧ (∀ p, s.dev.lanePort l = some p → s.dev.hasAn p = false ∨ s.dev.get
    (F.MAC_STATUS_an_state p) = 4)) ∧
  (∃ (s : State), ∃ (l : Fin 64), s.Up ∧ (s.dev.flag (F.HSL_STATUS_align_lock l) = true ∨ s.dev.flag (F.HSL_STATUS_phase_valid l)
    = true)) ∧
  (∃ (s : State), ∃ (l : Fin 64), s.Up ∧ s.dev.laneRuns l = true ∧ s.dev.flag (F.HSL_STATUS_align_lock l) = true ∧
    s.dev.laneTesting l = false ∧ (∀ p, s.dev.lanePort l = some p → s.dev.flag (F.MAC_CFG_pcs_loop p) = false)) ∧
  (∃ (s : State), ∃ (l : Fin 64), s.Up) :=
  ⟨⟨full, 0, by decide +kernel⟩,
   ⟨full.having [(F.HSL_STATUS_pwr_state 0, 0)], 0, by decide +kernel⟩,
   ⟨full.having [(F.HSL_STATUS_pwr_state 0, 0), (F.HSL_STATUS_cdr_lock 0, 1)], 0, by decide +kernel⟩,
   ⟨full.having [(F.HSL_STATUS_pwr_state 1, 0), (F.HSL_STATUS_cdr_lock 1, 1)], 1, ⟨by decide +kernel, by decide +kernel, by
     decide +kernel, by decide +kernel, fun p h =>
     (by revert h; rw [show (Dev.lanePort _ _) = none from by decide +kernel]; intro h; cases h)⟩⟩,
   ⟨full.having [(F.HSL_STATUS_align_lock 0, 1)], 0, by decide +kernel⟩,
   ⟨full.having [(F.HSL_STATUS_pwr_state 1, 0), (F.HSL_STATUS_align_lock 1, 1)], 1, ⟨by decide +kernel, by decide +kernel, by
     decide +kernel, by decide +kernel, fun p h =>
     (by revert h; rw [show (Dev.lanePort _ _) = none from by decide +kernel]; intro h; cases h)⟩⟩,
   ⟨full, 0, by decide +kernel⟩⟩

/-- What meets the hypotheses of `PortLinks`, clause by clause. -/
theorem witness_PortLinks :
  (∃ (s : State), ∃ (p : Fin 64), s.Up ∧ s.dev.hasAn p = true ∧ s.dev.portPresent p = true ∧ s.dev.flag (F.MAC_CFG_enable p) =
    true ∧ s.dev.get (F.MAC_STATUS_an_state p) = 1) ∧
  (∃ (s : State), ∃ (p : Fin 64), s.Up ∧ s.dev.lanes.breakLink.contains p.val = true ∧ s.dev.portPresent p = true ∧ s.dev.flag
    (F.MAC_CFG_enable p) = true) ∧
  (∃ (s : State), ∃ (p : Fin 64), s.Up ∧ s.dev.get (F.MAC_STATUS_an_state p) = 3) ∧
  (∃ (s : State), ∃ (p : Fin 64), s.Up ∧ s.dev.flag (F.MAC_STATUS_link p) = false ∧ s.dev.mayLink p = true) ∧
  (∃ (s : State), ∃ (p : Fin 64), s.Up ∧ s.dev.flag (F.MAC_STATUS_link p) = true ∧ (s.dev.flag (F.MAC_CFG_pcs_loop p) = false ∨
    s.dev.mayLink p = false)) ∧
  (∃ (s : State), ∃ (p : Fin 64), s.Up ∧ s.dev.flag (F.MAC_STATUS_link p) = true ∧ s.dev.flag (F.MAC_CFG_pcs_loop p) = true ∧
    s.dev.mayLink p = true) ∧
  (∃ (s : State), ∃ (p : Fin 64), ∃ (data : Word), s.Up ∧ s.Reaches (R.MAC_CFG p) ∧ data &&& ~~~(namedAt (R.MAC_CFG p)) = 0 ∧
    s.dev.flag (F.MAC_CFG_enable p) = false ∧ data.getLsbD 0 = true ∧ data.getLsbD 17 = false) ∧
  (∃ (s : State), ∃ (p : Fin 64), ∃ (data : Word), s.Up ∧ s.Reaches (R.MAC_CFG p) ∧ data &&& ~~~(namedAt (R.MAC_CFG p)) = 0 ∧
    s.dev.flag (F.MAC_CFG_enable p) = false ∧ data.getLsbD 0 = true ∧ data.getLsbD 17 = true) ∧
  (∃ (s : State), ∃ (p : Fin 64), ∃ (data : Word), s.Up ∧ s.Reaches (R.MAC_CFG p) ∧ data &&& ~~~(namedAt (R.MAC_CFG p)) = 0 ∧
    s.dev.flag (F.MAC_CFG_enable p) = true ∧ data.getLsbD 0 = false ∧ data.getLsbD 17 = false) ∧
  (∃ (s : State), ∃ (p : Fin 64), ∃ (data : Word), s.Up ∧ s.Reaches (R.MAC_CFG p) ∧ data &&& ~~~(namedAt (R.MAC_CFG p)) = 0) :=
  ⟨⟨full.having [(F.MAC_CFG_an_en 0, 1), (F.MAC_CFG_lanes 0, 1), (F.MAC_CFG_enable 0, 1), (F.MAC_STATUS_an_state 0, 1)], 0, by
     decide +kernel⟩,
   ⟨(full.having [(F.MAC_CFG_an_en 0, 1), (F.MAC_CFG_lanes 0, 1), (F.MAC_CFG_enable 0, 1)]).onDev (fun d =>
     { d with lanes := { d.lanes with breakLink := [0] } }), 0, by decide +kernel⟩,
   ⟨full.having [(F.MAC_STATUS_an_state 0, 3)], 0, by decide +kernel⟩,
   ⟨full.having [(F.MAC_STATUS_link 0, 0), (F.HSL_STATUS_align_lock 0, 1), (F.MAC_CFG_enable 0, 1), (F.MAC_CFG_lanes 0, 1)], 0,
     by decide +kernel⟩,
   ⟨full.having [(F.MAC_STATUS_link 0, 1)], 0, by decide +kernel⟩,
   ⟨full.having [(F.MAC_STATUS_link 0, 1), (F.MAC_CFG_pcs_loop 0, 1), (F.MAC_CFG_enable 0, 1)], 0, by decide +kernel⟩,
   ⟨full.having [(F.MAC_CFG_enable 0, 0)], 0, 1, by decide +kernel⟩,
   ⟨full.having [(F.MAC_CFG_enable 0, 0)], 0, 0x20001, by decide +kernel⟩,
   ⟨full.having [(F.MAC_CFG_enable 0, 1)], 0, 0, by decide +kernel⟩,
   ⟨full, 0, 1, by decide +kernel⟩⟩

/-- What meets the hypotheses of `LanePowerAndPrbs`, clause by clause. -/
theorem witness_LanePowerAndPrbs :
  (∃ (s : State), ∃ (l : Fin 64), ∃ p, s.Up ∧ s.dev.lanePort l = some p ∧ s.dev.laneRuns l = true ∧ s.dev.get
    (F.HSL_STATUS_pwr_state l) = 0 ∧ s.dev.portReady p = true ∧ 280 ≤ s.dev.portTol p ∧ s.dev.midFrame p = false ∧
    s.dev.waitingOn p = 0 ∧ s.dev.opensSoon p = false) ∧
  (∃ (s : State), ∃ (l : Fin 64), s.Up ∧ s.dev.get (F.HSL_STATUS_pwr_state l) = 1) ∧
  (∃ (s : State), ∃ (l : Fin 64), s.Up ∧ s.dev.lanePresent l = true ∧ s.dev.heldInL2 l = true) ∧
  (∃ (s : State), ∃ (l : Fin 64), s.Up ∧ s.dev.lanePresent l = true ∧ s.dev.heldInL2 l = false ∧ s.dev.timeOnlyLane l = false ∧
    s.dev.domainOn (4 + l / 16) = true ∧ s.dev.get (F.HSL_STATUS_pwr_state l) = 2) ∧
  (∃ (s : State), ∃ (l : Fin 64), ∃ (errors : Nat), s.Up ∧ s.dev.flag (F.HSL_STATUS_prbs_lock l) = false ∧ s.dev.laneRuns l =
    true ∧ s.dev.flag (F.HSL_PRBS_CTRL_rx_en l) = true) ∧
  (∃ (s : State), ∃ (l : Fin 64), ∃ (errors : Nat), s.Up ∧ s.dev.flag (F.HSL_STATUS_prbs_lock l) = true) ∧
  (∃ (s : State), ∃ (l : Fin 64), s.Up ∧ s.Reaches (R.HSL_PRBS_CTRL l) ∧ s.dev.flag (F.HSL_PRBS_CTRL_tx_en l) = true) ∧
  (∃ (d : Dev), ∃ (l : Fin 64), d.flag (F.HSL_PRBS_CTRL_tx_en l) = true ∧ d.laneRuns l = true ∧ d.get (F.HSL_CTRL_loopback l) = 0
    ∧ d.get (F.HSL_PRBS_CTRL_inject_period l) = 0) :=
  ⟨⟨full, 0, 0, by decide +kernel⟩,
   ⟨full.having [(F.HSL_STATUS_pwr_state 0, 1)], 0, by decide +kernel⟩,
   ⟨full, 1, by decide +kernel⟩,
   ⟨full.having [(F.MAC_CFG_enable 0, 1), (F.HSL_STATUS_pwr_state 0, 2)], 0, by decide +kernel⟩,
   ⟨full.having [(F.HSL_STATUS_pwr_state 0, 0), (F.HSL_PRBS_CTRL_rx_en 0, 1)], 0, 3, by decide +kernel⟩,
   ⟨full.having [(F.HSL_STATUS_prbs_lock 0, 1)], 0, 3, by decide +kernel⟩,
   ⟨full.having [(F.HSL_PRBS_CTRL_tx_en 0, 1)], 0, by decide +kernel⟩,
   ⟨(full.having [(F.HSL_STATUS_pwr_state 0, 0), (F.HSL_PRBS_CTRL_tx_en 0, 1)]).dev, 0, by decide +kernel⟩⟩

/-- What meets the hypotheses of `RopeBringUp`, clause by clause. -/
theorem witness_RopeBringUp :
  (∃ (s : State), ∃ (n : Fin 16), s.Up) ∧
  (∃ (s : State), ∃ (n : Fin 16), s.Up ∧ s.dev.ropeState n ≠ Rlk.down) ∧
  (∃ (s : State), ∃ (n : Fin 16), s.Up ∧ s.dev.ropeState n = Rlk.down) ∧
  (∃ (s : State), ∃ (n : Fin 16), s.Up ∧ s.dev.ropeState n = Rlk.confirm) ∧
  (∃ (s : State), ∃ (n : Fin 16), s.Up ∧ s.dev.ropeState n = Rlk.fallback) ∧
  (∃ (s : State), ∃ (n : Fin 16), s.Up ∧ s.dev.ropeState n = Rlk.step) ∧
  (∃ (s : State), ∃ (n : Fin 16), s.Up ∧ s.dev.ropeState n = Rlk.run ∧ s.dev.flag (F.RLK_STATUS_hf_lock n) = false) ∧
  (∃ (s : State), ∃ (n : Fin 16), s.Up ∧ s.Reaches (R.RLK_CTRL n)) :=
  ⟨⟨full, 0, by decide +kernel⟩,
   ⟨full.having [(F.RLK_STATUS_state 0, Rlk.run)], 0, by decide +kernel⟩,
   ⟨full, 0, by decide +kernel⟩,
   ⟨full.having [(F.RLK_STATUS_state 0, Rlk.confirm)], 0, by decide +kernel⟩,
   ⟨full.having [(F.RLK_STATUS_state 0, Rlk.fallback)], 0, by decide +kernel⟩,
   ⟨full.having [(F.RLK_STATUS_state 0, Rlk.step)], 0, by decide +kernel⟩,
   ⟨full.having [(F.RLK_STATUS_state 0, Rlk.run)], 0, by decide +kernel⟩,
   ⟨full, 0, by decide +kernel⟩⟩

set_option maxRecDepth 20000 in
/-- What meets the hypotheses of `RopeTraffic`, clause by clause. -/
theorem witness_RopeTraffic :
  (∃ (plus : Bool), ∃ (l : List Sym), Sym.invalid ∉ l) ∧
  (∃ (s : State), ∃ (n : Fin 16), ∃ (f : RopeFrame), s.Up ∧ s.dev.ropeState n ≠ Rlk.down ∧ s.dev.ropeSends n = true) ∧
  (∃ (s : State), ∃ (n : Fin 16), ∃ (bits : Nat), let x := (s.dev.rope n).rx; s.Up ∧ Rlk.caps ≤ s.dev.ropeState n ∧ s.dev.ropeSends n = true ∧ s.dev.flag (F.RLK_STATUS_hf_lock n) = true ∧ (s.dev.rope n).rx.next = 240 ∧ x.badWords = false ∧ x.words.length = 80 ∧ ropeCrc (x.words.take 76) = octets x.words 76 2 ∧ octet x.words 0 = 1) ∧
  (∃ (s : State), ∃ (n : Fin 16), ∃ (bits : Nat), s.Up ∧ Rlk.caps ≤ s.dev.ropeState n ∧ s.dev.ropeSends n = true ∧ s.dev.flag
    (F.RLK_STATUS_hf_lock n) = true ∧ (s.dev.rope n).rx.next = 240) ∧
  (∃ (s : State), ∃ (n : Fin 16), s.Up) ∧
  (∃ (s : State), ∃ (n : Fin 16), ∃ (offset change : Int), s.Up ∧ s.dev.ropeState n ≠ Rlk.down ∧ s.dev.ropeSends n = true) ∧
  (∃ (s : State), ∃ (n : Fin 16), s.Up ∧ s.dev.ropeState n = Rlk.run ∧ s.dev.flag (F.RLK_STATUS_frozen n) = false ∧ 4 ≤
    (s.dev.rope n).rx.freq ∧ s.dev.flag (F.RLK_STATUS_hf_lock n) = true) ∧
  (∃ (d : Dev), ∃ (n : Fin 16), ∃ (f : RopeFrame), ∃ (l : List Sym), ∃ (size k : Nat), 0 < size ∧ d.flag (F.RLK_STATUS_frame_lock
    n) = true ∧ l.length < size) ∧
  (∃ (d : Dev), ∃ (n : Fin 16), ∃ (f : RopeFrame), ∃ (l : List Sym), ∃ (size k : Nat), 0 < size ∧ d.flag (F.RLK_STATUS_frame_lock
    n) = true ∧ size ≤ l.length) ∧
  (∃ (d : Dev), ∃ (n : Fin 16), ∃ (f : RopeFrame), ∃ (l : List Sym), ∃ (size k : Nat), 0 < size ∧ d.flag (F.RLK_STATUS_frame_lock
    n) = false ∧ l ≠ [] ∧ Sym.comma ∉ l) ∧
  (∃ (d : Dev), ∃ (n : Fin 16), ∃ (f : RopeFrame), ∃ (l : List Sym), ∃ (size k : Nat), 0 < size) ∧
  (∃ (d : Dev), ∃ (n : Fin 16), ∃ (t : Nat), d.ropeSends n = true ∧ (d.rope n).tx.runs = true ∧ (d.rope n).tx.frame < 240) ∧
  (∃ (s : State), ∃ (n : Fin 16), ∃ (data : Word), s.Reaches (R.RLK_MGT_TX n) ∧ data &&& ~~~(namedAt (R.RLK_MGT_TX n)) = 0 ∧
    s.dev.flag (F.RLK_MGT_TX_send n) = false) ∧
  (∃ (s : State), ∃ (n : Fin 16), s.Reaches (R.RLK_MGT_RX n) ∧ s.dev.get (F.RLK_MGT_RX_count n) ≠ 0) :=
  ⟨⟨false, [.comma, .data 1], by decide +kernel⟩,
   ⟨full.having [(F.RLK_STATUS_state 0, Rlk.run), (F.RLK_CFG_enable 0, 1)], 0, ⟨[], 0, 0⟩, by decide +kernel⟩,
   ⟨(full.having [(F.RLK_STATUS_state 0, Rlk.run), (F.RLK_CFG_enable 0, 1), (F.RLK_STATUS_hf_lock 0, 1)]).onDev (fun d =>
     d.ropeRx 0 (fun x => { x with next := 240, words := goodWords })), 0, 5, by decide +kernel⟩,
   ⟨(full.having [(F.RLK_STATUS_state 0, Rlk.run), (F.RLK_CFG_enable 0, 1), (F.RLK_STATUS_hf_lock 0, 1)]).onDev (fun d =>
     d.ropeRx 0 (fun x => { x with next := 240, words := [] })), 0, 5, by decide +kernel⟩,
   ⟨full, 0, by decide +kernel⟩,
   ⟨full.having [(F.RLK_STATUS_state 0, Rlk.run), (F.RLK_CFG_enable 0, 1)], 0, 1, 1, by decide +kernel⟩,
   ⟨(full.having [(F.RLK_STATUS_state 0, Rlk.run), (F.RLK_STATUS_hf_lock 0, 1)]).onDev (fun d => d.ropeRx 0 (fun x =>
     { x with freq := 4 })), 0, by decide +kernel⟩,
   ⟨(full.having [(F.RLK_STATUS_frame_lock 0, 1)]).dev, 0, default, [.comma], 3, 1, by decide +kernel⟩,
   ⟨(full.having [(F.RLK_STATUS_frame_lock 0, 1)]).dev, 0, default, [.comma], 1, 1, by decide +kernel⟩,
   ⟨full.dev, 0, default, [.idle], 1, 1, by decide +kernel⟩,
   ⟨full.dev, 0, default, [], 1, 0, by decide +kernel⟩,
   ⟨((full.having [(F.RLK_STATUS_state 0, Rlk.run), (F.RLK_CFG_enable 0, 1)]).onDev (fun d => d.ropeTx 0 (fun x =>
     { x with runs := true }))).dev, 0, 5, by decide +kernel⟩,
   ⟨full, 0, 1, by decide +kernel⟩,
   ⟨full.having [(F.RLK_MGT_RX_count 0, 1)], 0, by decide +kernel⟩⟩

/-- What meets the hypotheses of `EngineWork`, clause by clause. -/
theorem witness_EngineWork :
  (∃ (s : State), ∃ (k : Fin 8), ∃ p, s.Up ∧ s.begin.dev.served k = [p]) ∧
  (∃ (s : State), ∃ (k : Fin 8), ∃ p, ∃ q, s.Up ∧ s.begin.dev.served k = [p, q]) ∧
  (∃ (s : State), ∃ (k : Fin 8), ∃ (e : Fin 12), ∃ (i : Nat), ∃ (rest : List Nat), ∃ (errors : List MemErr), ∃ (d0 : Dev), s.Up ∧
    d0 = s.begin.dev.lookupErrors k e errors ∧ d0.engQueue k e = i :: rest) ∧
  (∃ (s : State), ∃ (k : Fin 8), ∃ (e : Fin 12), ∃ (i : Nat), ∃ (rest : List Nat), s.Up ∧ s.dev.engQueue k e = i :: rest) ∧
  (∃ (s : State), ∃ (k : Fin 8), ∃ (ring : Fin 8), ∃ (i : Nat), ∃ (rest : List Nat), ∃ (f : Frame), s.Up ∧ Sparse.getD
    s.dev.host.bypassQ ring.val [] = i :: rest ∧ s.dev.frame? i = some f ∧ f.waits = false ∧ s.dev.earlierOf ring i = false ∧
    s.dev.flag F.TOP_READY_qsc = true ∧ f.bad ≠ chainFailed ∧ f.bypass.getD 127 ≤ 80 ∧ s.dev.portPresent (f.bypass.getD 127) =
    true) ∧
  (∃ (d : Dev), ∃ (k : Nat), ∃ p, ∃ l, d.served k = p :: l) ∧
  (∃ (d : Dev), ∃ (p i : Nat), ∃ (rest : List Nat), d.headerFifo p = i :: rest ∧ (d.frame i).express = false ∧ (d.frame i).port =
    p ∧ d.headWaits (portGroup p) (d.frame i).bucket = false) :=
  ⟨⟨full.onDev (fun d => { d with fwd := { d.fwd with fifo := [(0, [1])], frames := [(1, { port := 0, express := true })] } }),
     0, 0, by decide +kernel⟩,
   ⟨full.onDev (fun d =>
     { d with fwd := { d.fwd with fifo := [(0, [1]), (1, [2])], frames := [(1, { port := 0, express := true }), (2, { port := 1, express := true })] } }),
     0, 0, 1, by decide +kernel⟩,
   ⟨full.onDev (fun d => { d with fwd := { d.fwd with engQ := [(engineKey 0 1, [1])] } }), 0, 1, 1, [], [], (full.onDev (fun d =>
     { d with fwd := { d.fwd with engQ := [(engineKey 0 1, [1])] } })).begin.dev, by decide +kernel⟩,
   ⟨full.onDev (fun d => { d with fwd := { d.fwd with engQ := [(engineKey 0 1, [1])] } }), 0, 1, 1, [], by decide +kernel⟩,
   ⟨(full.onDev (fun d => { d with fwd := { d.fwd with frames := [(1, { bypass := some 0 })] } })).onDev (fun d =>
     { d with host := { d.host with bypassQ := [(0, [1])] } }), 0, 0, 1, [], { bypass := some 0 }, by decide +kernel⟩,
   ⟨(full.onDev (fun d =>
     { d with fwd := { d.fwd with fifo := [(0, [1])], frames := [(1, { port := 0, express := true })] } })).dev, 0, 0, [], by
     decide +kernel⟩,
   ⟨(full.onDev (fun d => { d with fwd := { d.fwd with fifo := [(0, [1])], frames := [(1, { port := 0 })] } })).dev, 0, 1, [], by
     decide +kernel⟩⟩

/-- What meets the hypotheses of `BucketWork`, clause by clause. -/
theorem witness_BucketWork :
  (∃ (s : State), ∃ (clusters : BitVec 8), ∃ (cycles : Nat), ∃ (l : List Nat), s.Up ∧ l = (List.range 8).filter (fun k =>
    clusters.getLsbD k)) ∧
  (∃ (s : State), s.Up) ∧
  (∃ (s : State), ∃ (k : Fin 8), s.Up ∧ s.Reaches (R.FWD_STEAL_CFG k)) ∧
  (∃ (s : State), ∃ (k : Fin 8), ∃ (bucket : BitVec 12), s.Up ∧ (s.dev.bucket k bucket.toNat).moving = true ∧ (s.dev.bucket k
    bucket.toNat).inflight = 0) ∧
  (∃ (s : State), ∃ (k : Fin 8), ∃ (e : Fin 12), s.Up ∧ s.dev.retiringEng k e = true ∧ s.dev.owned k e = [] ∧ s.dev.engQueue k e
    = []) ∧
  (∃ (s : State), ∃ (k : Fin 8), ∃ (e : Fin 12), s.Reaches (R.FWD_ENG_CTRL k) ∧ s.dev.bitAt (R.FWD_ENG_CTRL k) e = false) ∧
  (∃ (s : State), ∃ (k : Fin 8), ∃ (e : Fin 12), s.Reaches (R.FWD_ENG_CTRL k) ∧ s.dev.bitAt (R.FWD_ENG_CTRL k) e = true) ∧
  (∃ (d : Dev), ∃ (k : Nat), ∃ (x : Theft), d.stealEval k = some x) ∧
  (∃ (l : List Theft), ∃ (x : Theft), x ∈ winners l) ∧
  (∃ (l : List Theft), ∃ (x : Theft), x ∈ l ∧ x.home < 8 ∧ (∃ z ∈ l, z.home = x.home ∧ z.cluster = x.home)) ∧
  (∃ (l : List Theft), ∃ (x : Theft), x ∈ l ∧ x.home < 8) ∧
  (∃ (d : Dev), ∃ (x : Theft), x.cluster < 8 ∧ x.home < 8 ∧ x.thief < 12 ∧ x.bucket < 4096 ∧ d.waitingFor x.home x.bucket = []) ∧
  (∃ (d : Dev), ∃ (x : Theft), x.cluster < 8 ∧ x.home < 8 ∧ x.thief < 12 ∧ x.bucket < 4096) :=
  ⟨⟨full, 5, 100, [0, 2], by decide +kernel⟩,
   ⟨full, by decide +kernel⟩,
   ⟨full, 0, by decide +kernel⟩,
   ⟨full.onDev (fun d => d.setBucket 0 3 { d.bucket 0 3 with moving := true }), 0, 3, by decide +kernel⟩,
   ⟨full.onDev (fun d => { d with fwd := { d.fwd with retiring := [engineKey 0 (d.expressEngine 0)] } }), 0,
     ⟨full.dev.expressEngine 0, by decide +kernel⟩, by decide +kernel⟩,
   ⟨full, 0, 1, by decide +kernel⟩,
   ⟨full.having [(⟨R.FWD_ENG_CTRL 0, 1, 1⟩, 1)], 0, 1, by decide +kernel⟩,
   ⟨loaded.dev, 0, ((loaded.dev.stealEval 0).get (by decide +kernel)), by decide +kernel⟩,
   ⟨[⟨0, 0, 0, 1⟩], ⟨0, 0, 0, 1⟩, by decide +kernel⟩,
   ⟨[⟨0, 0, 0, 1⟩], ⟨0, 0, 0, 1⟩, by decide +kernel⟩,
   ⟨[⟨0, 0, 0, 1⟩], ⟨0, 0, 0, 1⟩, by decide +kernel⟩,
   ⟨full.dev, ⟨0, 0, 0, 1⟩, by decide +kernel⟩,
   ⟨full.dev, ⟨0, 0, 0, 1⟩, by decide +kernel⟩⟩

/-- What meets the hypotheses of `CopyAdmission`, clause by clause. -/
theorem witness_CopyAdmission :
  (∃ (s : State), ∃ (i : Nat), ∃ (rest : List Nat), ∃ (f : Frame), s.Up ∧ s.dev.flag F.TOP_READY_qsc = true ∧ s.dev.frame? i =
    some f ∧ s.dev.bpm.creating = [] ∧ s.dev.bpm.handed = i :: rest ∧ f.bad ≠ chainFailed) ∧
  (∃ (s : State), ∃ (i : Nat), ∃ (rest : List Nat), ∃ (f : Frame), s.Up ∧ s.dev.flag F.TOP_READY_qsc = true ∧ s.dev.frame? i =
    some f ∧ s.dev.bpm.creating ≠ []) ∧
  (∃ (s : State), ∃ (i : Nat), ∃ (rest : List Nat), ∃ (f : Frame), s.Up ∧ s.dev.flag F.TOP_READY_qsc = true ∧ s.dev.frame? i =
    some f ∧ s.dev.bpm.creating = i :: rest) ∧
  (∃ (d : Dev), ∃ (i : Nat), ∃ (c : CopyRef), d.quiescing (portGroup c.port) = true) ∧
  (∃ (d : Dev), ∃ (i : Nat), ∃ (c : CopyRef), d.quiescing (portGroup c.port) = false ∧ d.queueLimit c.port c.queue < d.get
    (F.BPM_QCELLS c.port c.queue) + (d.frame i).cells) ∧
  (∃ (d : Dev), ∃ (i : Nat), ∃ (c : CopyRef), d.quiescing (portGroup c.port) = false ∧ d.get (F.BPM_QCELLS c.port c.queue) +
    (d.frame i).cells ≤ d.queueLimit c.port c.queue ∧ d.portReady c.port = false) ∧
  (∃ (d : Dev), ∃ (i : Nat), ∃ (c : CopyRef), d.quiescing (portGroup c.port) = false ∧ d.get (F.BPM_QCELLS c.port c.queue) +
    (d.frame i).cells ≤ d.queueLimit c.port c.queue ∧ d.portReady c.port = true ∧ d.standsBy c.port = true) ∧
  (∃ (d : Dev), ∃ (i : Nat), ∃ (c : CopyRef), d.quiescing (portGroup c.port) = false ∧ d.get (F.BPM_QCELLS c.port c.queue) +
    (d.frame i).cells ≤ d.queueLimit c.port c.queue ∧ d.portReady c.port = true ∧ d.standsBy c.port = false ∧ (∃ t, ((d.frame
    i).act.getD {}).launch = some t ∧ c.port ≠ 64 ∧ d.get (F.QSC_LAUNCH_horizon c.port) ≠ 0 ∧ d.timeReady = true ∧ d.now + d.get
    (F.QSC_LAUNCH_horizon c.port) * 8000 * 65536 < t)) ∧
  (∃ (d : Dev), ∃ (i : Nat), ∃ (c : CopyRef), d.quiescing (portGroup c.port) = false ∧ d.get (F.BPM_QCELLS c.port c.queue) +
    (d.frame i).cells ≤ d.queueLimit c.port c.queue ∧ d.portReady c.port = true ∧ d.standsBy c.port = false ∧ (∀ t, ((d.frame
    i).act.getD {}).launch = some t → c.port = 64 ∨ d.get (F.QSC_LAUNCH_horizon c.port) = 0 ∨ d.timeReady = false ∨ t ≤ d.now +
    d.get (F.QSC_LAUNCH_horizon c.port) * 8000 * 65536) ∧ (d.frame i).bad ≠ 0) ∧
  (∃ (d : Dev), ∃ (i : Nat), ∃ (c : CopyRef), d.quiescing (portGroup c.port) = false ∧ d.get (F.BPM_QCELLS c.port c.queue) +
    (d.frame i).cells ≤ d.queueLimit c.port c.queue ∧ d.portReady c.port = true ∧ d.standsBy c.port = false ∧ (∀ t, ((d.frame
    i).act.getD {}).launch = some t → c.port = 64 ∨ d.get (F.QSC_LAUNCH_horizon c.port) = 0 ∨ d.timeReady = false ∨ t ≤ d.now +
    d.get (F.QSC_LAUNCH_horizon c.port) * 8000 * 65536) ∧ (d.frame i).bad = 0) :=
  ⟨⟨full.onDev (fun d => { d with fwd := { d.fwd with frames := [(1, {})] }, bpm := { d.bpm with handed := [1] } }), 1, [], {},
     by decide +kernel⟩,
   ⟨full.onDev (fun d => { d with fwd := { d.fwd with frames := [(1, {})] }, bpm := { d.bpm with creating := [1] } }), 1, [], {},
     by decide +kernel⟩,
   ⟨full.onDev (fun d => { d with fwd := { d.fwd with frames := [(1, {})] }, bpm := { d.bpm with creating := [1] } }), 1, [], {},
     by decide +kernel⟩,
   ⟨(full.having [(F.IMG_STATUS_state, 6)]).dev, 1, { port := 0, queue := 0 }, by decide +kernel⟩,
   ⟨(full.having [(F.BPM_QCELLS 0 0, 9), (F.BPM_QLIM_limit 0 0, 0)]).dev, 1, { port := 0, queue := 0 }, by decide +kernel⟩,
   ⟨(full.having [(readyBit 0, 0)]).dev, 1, { port := 0, queue := 0 }, by decide +kernel⟩,
   ⟨(standing.having [(F.RDN_PORTS_0, 1)]).dev, 1, { port := 0, queue := 0 }, by decide +kernel⟩,
   ⟨((full.onDev (fun d =>
     { d with fwd := { d.fwd with frames := [(1, { act := some { launch := some (10 ^ 20) } })] } })).having
     [(F.QSC_LAUNCH_horizon 0, 1)]).dev, 1, { port := 0, queue := 0 }, ⟨by decide +kernel, by decide +kernel, by decide +kernel,
     by decide +kernel, 10 ^ 20, by decide +kernel⟩⟩,
   ⟨(full.onDev (fun d => { d with fwd := { d.fwd with frames := [(1, { bad := 0x33 })] } })).dev, 1, { port := 0, queue := 0 },
     ⟨by decide +kernel, by decide +kernel, by decide +kernel, by decide +kernel, fun t h =>
     (by revert h; rw [show (Dev.frame _ 1).act = none from by decide +kernel]; intro h; cases h), by decide +kernel⟩⟩,
   ⟨full.dev, 1, { port := 0, queue := 0 }, ⟨by decide +kernel, by decide +kernel, by decide +kernel, by decide +kernel, fun t h
     => (by revert h; rw [show (Dev.frame _ 1).act = none from by decide +kernel]; intro h; cases h), by decide +kernel⟩⟩⟩

set_option maxRecDepth 20000 in
/-- What meets the hypotheses of `BufferPools`, clause by clause. -/
theorem witness_BufferPools :
  (∃ (s : State), ∃ (port : Fin 81), ∃ (i h : Nat), ∃ (f : Frame), ∃ (r : Option Nat), ∃ (e : Dev), s.Up ∧ s.dev.fwd.frames.find?
    (fun x => x.2.port == port.val && x.2.overruns) = some (i, f) ∧ s.dev.frame i = f ∧ f.buf = some h ∧ s.begin.dev.alloc
    (portGroup port) (s.dev.buf h).tag (s.dev.spills port f.cls) (if s.dev.spills port f.cls then poolsFrom (chainPool
    (handlePool h) (s.dev.maxFrame port)) else [chainPool (handlePool h) (s.dev.maxFrame port)]) = (r, e)) ∧
  (∃ (s : State), ∃ (k : Fin 4), ∃ (groups : BitVec 8), s.Up ∧ s.dev.flag (F.BPM_POOL_FREE_low k) = false) ∧
  (∃ (s : State), ∃ (k : Fin 4), ∃ (groups : BitVec 8), s.Up ∧ s.dev.flag (F.BPM_POOL_FREE_low k) = true) ∧
  (∃ (s : State), s.Up) ∧
  (∃ (last groups : Nat), ∃ (asks : Nat → Bool), ∃ g, g < 8 ∧ hasBit groups g = true ∧ asks g = true) ∧
  (∃ (last groups : Nat), ∃ (asks : Nat → Bool), hasBit groups ((last + 1) % 8) = true ∧ asks ((last + 1) % 8) = true) ∧
  (∃ (d : Dev), ∃ (k g : Nat), ∃ n, ∃ rest, (d.pool k).pushed = n :: rest) ∧
  (∃ (d : Dev), ∃ (k g : Nat), (d.pool k).pushed = [] ∧ (∃ n, n < (d.pool k).size ∧ n ∉ (d.pool k).taken)) ∧
  (∃ (d : Dev), ∃ (k g : Nat), (d.pool k).cache g ≠ []) ∧
  (∃ (s : State), ∃ (h : BitVec 21), ∃ (tag : BitVec 8), s.Reaches R.BPM_HOST_FREE) ∧
  (∃ (s : State), ∃ (h : BitVec 21), ∃ (tag : BitVec 8), ∃ (d : Dev), ∃ (n t kind : Nat), ∃ (host : Bool), kind < 2) :=
  ⟨⟨full.onDev (fun d =>
     { d with fwd := { d.fwd with frames := [(1, { port := 0, buf := some 0, bytes := List.replicate 9000 0 })] } }), 0, 1, 0,
     { port := 0, buf := some 0, bytes := List.replicate 9000 0 }, ((full.onDev (fun d =>
     { d with fwd := { d.fwd with frames := [(1, { port := 0, buf := some 0, bytes := List.replicate 9000 0 })] } })).begin.dev.alloc
     (portGroup 0) ((full.onDev (fun d =>
     { d with fwd := { d.fwd with frames := [(1, { port := 0, buf := some 0, bytes := List.replicate 9000 0 })] } })).dev.buf
     0).tag ((full.onDev (fun d =>
     { d with fwd := { d.fwd with frames := [(1, { port := 0, buf := some 0, bytes := List.replicate 9000 0 })] } })).dev.spills
     0 0) [chainPool (handlePool 0) ((full.onDev (fun d =>
     { d with fwd := { d.fwd with frames := [(1, { port := 0, buf := some 0, bytes := List.replicate 9000 0 })] } })).dev.maxFrame
     0)]).1, ((full.onDev (fun d =>
     { d with fwd := { d.fwd with frames := [(1, { port := 0, buf := some 0, bytes := List.replicate 9000 0 })] } })).begin.dev.alloc
     (portGroup 0) ((full.onDev (fun d =>
     { d with fwd := { d.fwd with frames := [(1, { port := 0, buf := some 0, bytes := List.replicate 9000 0 })] } })).dev.buf
     0).tag ((full.onDev (fun d =>
     { d with fwd := { d.fwd with frames := [(1, { port := 0, buf := some 0, bytes := List.replicate 9000 0 })] } })).dev.spills
     0 0) [chainPool (handlePool 0) ((full.onDev (fun d =>
     { d with fwd := { d.fwd with frames := [(1, { port := 0, buf := some 0, bytes := List.replicate 9000 0 })] } })).dev.maxFrame
     0)]).2, by decide +kernel⟩,
   ⟨(full.having [(F.BPM_POOL_FREE_low 0, 0)]), 0, 1, by decide +kernel⟩,
   ⟨full.having [(F.BPM_POOL_FREE_low 0, 1)], 0, 1, by decide +kernel⟩,
   ⟨full, by decide +kernel⟩,
   ⟨0, 255, (fun _ => true), 3, by decide +kernel⟩,
   ⟨0, 2, (fun _ => true), by decide +kernel⟩,
   ⟨(full.onDev (fun d => d.setPool 0 { size := 8, pushed := [3] })).dev, 0, 0, 3, [], by decide +kernel⟩,
   ⟨(full.onDev (fun d => d.setPool 0 { size := 8, pushed := [] })).dev, 0, 0, ⟨by decide +kernel, 0, by decide +kernel, by
     decide +kernel⟩⟩,
   ⟨(full.onDev (fun d => d.setPool 0 (({ size := 8 } : Pool).setCache 0 [3]))).dev, 0, 0, by decide +kernel⟩,
   ⟨full, 0, 0, by decide +kernel⟩,
   ⟨full, 0, 0, full.dev, 0, 0, 0, true, by decide +kernel⟩⟩

/-- What meets the hypotheses of `Transmission`, clause by clause. -/
theorem witness_Transmission :
  (∃ (s : State), ∃ (p : Fin 81), ∃ q, s.Up ∧ (s.dev.phxOf p).due = none ∧ Sparse.get? s.dev.belay.annDue p.val = none ∧
    s.dev.sendingOn p = none ∧ s.dev.portReady p = true ∧ s.dev.flag F.TOP_READY_qsc = true ∧ s.dev.standsBy p = false ∧ (∀ r <
    8, ∀ c l, s.dev.queue p r = c :: l → s.dev.isLate p c = false ∧ s.dev.fitsNever p r c = false) ∧ s.dev.pickStrict p = some q) ∧
  (∃ (s : State), ∃ (p : Fin 81), ∃ x, s.Up ∧ (s.dev.phxOf p).due = none ∧ Sparse.get? s.dev.belay.annDue p.val = none ∧
    s.dev.sendingOn p = none ∧ s.dev.portReady p = true ∧ s.dev.flag F.TOP_READY_qsc = true ∧ s.dev.standsBy p = false ∧ (∀ r <
    8, s.dev.queue p r = []) ∧ s.dev.mayResume p = some x) ∧
  (∃ (s : State), ∃ (p : Fin 81), s.Up ∧ s.dev.standsBy p = false ∧ (∀ r < 8, s.dev.queue p r = [])) ∧
  (∃ (s : State), ∃ (p : Fin 81), ∃ bits, ∃ t, ∃ q, ∃ c, ∃ rest, ∃ first, s.Up ∧ first = s.dev.firstBit p bits ∧ s.dev.standsBy p
    = false ∧ (∀ r < 8, ∀ c l, s.dev.queue p r = c :: l → s.dev.isLate p c = false ∧ s.dev.fitsNever p r c = false) ∧
    s.dev.timedPick p = some (t, q) ∧ s.dev.queue p q = c :: rest ∧ first + s.dev.launchEarly p < t) ∧
  (∃ (s : State), ∃ (p : Fin 81), ∃ bits, ∃ t, ∃ q, ∃ c, ∃ rest, ∃ first, s.Up ∧ first = s.dev.firstBit p bits ∧ s.dev.standsBy p
    = false ∧ (∀ r < 8, ∀ c l, s.dev.queue p r = c :: l → s.dev.isLate p c = false ∧ s.dev.fitsNever p r c = false) ∧
    s.dev.timedPick p = some (t, q) ∧ s.dev.queue p q = c :: rest ∧ t ≤ first + s.dev.launchEarly p ∧ t + s.dev.launchLimit p <
    first) ∧
  (∃ (s : State), ∃ (p : Fin 81), ∃ bits, ∃ t, ∃ q, ∃ c, ∃ rest, ∃ first, s.Up ∧ first = s.dev.firstBit p bits ∧ s.dev.standsBy p
    = false ∧ (∀ r < 8, ∀ c l, s.dev.queue p r = c :: l → s.dev.isLate p c = false ∧ s.dev.fitsNever p r c = false) ∧
    s.dev.timedPick p = some (t, q) ∧ s.dev.queue p q = c :: rest ∧ t ≤ first + s.dev.launchEarly p ∧ first ≤ t +
    s.dev.launchLimit p ∧ s.dev.sendingOn p = none ∧ s.dev.portReady p = true ∧ s.dev.arrived c = true ∧ hasBit (s.dev.gateMask
    p) q = true ∧ s.dev.guardOk p q c = true ∧ (s.dev.preemptable p q && (s.dev.qsc.heldMac.contains p.val || (Sparse.get?
    s.dev.qsc.suspended p.val).isSome)) = false) ∧
  (∃ (s : State), ∃ (p : Fin 81), ∃ bits, ∃ t, ∃ q, ∃ c, ∃ rest, ∃ first, s.Up ∧ first = s.dev.firstBit p bits ∧ s.dev.standsBy p
    = false ∧ (∀ r < 8, ∀ c l, s.dev.queue p r = c :: l → s.dev.isLate p c = false ∧ s.dev.fitsNever p r c = false) ∧
    s.dev.timedPick p = some (t, q) ∧ s.dev.queue p q = c :: rest ∧ t ≤ first + s.dev.launchEarly p ∧ first ≤ t +
    s.dev.launchLimit p ∧ s.dev.sendingOn p = none ∧ (hasBit (s.dev.gateMask p) q = false ∨ s.dev.portReady p = false) ∧ first <
    t) ∧
  (∃ (s : State), ∃ (p : Fin 81), ∃ bits, ∃ t, ∃ q, ∃ c, ∃ rest, ∃ first, s.Up ∧ first = s.dev.firstBit p bits ∧ s.dev.standsBy p
    = false ∧ (∀ r < 8, ∀ c l, s.dev.queue p r = c :: l → s.dev.isLate p c = false ∧ s.dev.fitsNever p r c = false) ∧
    s.dev.timedPick p = some (t, q) ∧ s.dev.queue p q = c :: rest ∧ t ≤ first + s.dev.launchEarly p ∧ first ≤ t +
    s.dev.launchLimit p ∧ s.dev.sendingOn p = none ∧ (hasBit (s.dev.gateMask p) q = false ∨ s.dev.portReady p = false) ∧ t ≤
    first) ∧
  (∃ (s : State), ∃ (p : Fin 81), ∃ x, s.Up ∧ s.dev.sendingOn p = some x ∧ x.copy.holder = none ∧ (s.dev.frame
    x.copy.frame).complete = true ∧ (s.dev.frame x.copy.frame).bad = 0) ∧
  (∃ (s : State), ∃ (p : Fin 81), ∃ x, ∃ bs, s.Up ∧ s.dev.sendingOn p = some x ∧ x.copy.holder = some bs) ∧
  (∃ (s : State), ∃ (p : Fin 81), ∃ (queues : BitVec 8), s.Reaches (R.QSC_FLUSH p)) :=
  ⟨⟨queued, 0, 3, ⟨by decide +kernel, by decide +kernel, by decide +kernel, by decide +kernel, by decide +kernel, by
     decide +kernel, by decide +kernel, heads_fine _ _ (by decide +kernel), by decide +kernel⟩⟩,
   ⟨full.onDev (fun d => d.setSuspended 0 (some { copy := { frame := 1 }, queue := 0 })), 0,
     { copy := { frame := 1 }, queue := 0 }, by decide +kernel⟩,
   ⟨full, 0, by decide +kernel⟩,
   ⟨(queued.onDev (fun d => d.setQueue 0 3 [{ frame := 1, launch := some (10 ^ 10) }])).having [(F.TOP_READY_time, 1)], 0, 0, (10
     ^ 10), 3, { frame := 1, launch := some (10 ^ 10) }, [], ((queued.onDev (fun d => d.setQueue 0 3
     [{ frame := 1, launch := some (10 ^ 10) }])).having [(F.TOP_READY_time, 1)]).dev.firstBit 0 0, ⟨by decide +kernel, rfl, by
     decide +kernel, heads_fine _ _ (by decide +kernel), by decide +kernel, by decide +kernel, by decide +kernel⟩⟩,
   ⟨(queued.onDev (fun d => d.setQueue 0 3 [{ frame := 1, launch := some 0 }])).having [(F.TOP_READY_time, 1)], 0, 1000, 0, 3,
     { frame := 1, launch := some 0 }, [], ((queued.onDev (fun d => d.setQueue 0 3 [{ frame := 1, launch := some 0 }])).having
     [(F.TOP_READY_time, 1)]).dev.firstBit 0 1000, ⟨by decide +kernel, rfl, by decide +kernel, heads_fine _ _ (by
     decide +kernel), by decide +kernel, by decide +kernel, by decide +kernel, by decide +kernel⟩⟩,
   ⟨(queued.onDev (fun d => d.setQueue 0 3 [{ frame := 1, launch := some 0 }])).having [(F.TOP_READY_time, 1)], 0, 0, 0, 3,
     { frame := 1, launch := some 0 }, [], ((queued.onDev (fun d => d.setQueue 0 3 [{ frame := 1, launch := some 0 }])).having
     [(F.TOP_READY_time, 1)]).dev.firstBit 0 0, ⟨by decide +kernel, rfl, by decide +kernel, heads_fine _ _ (by decide +kernel),
     by decide +kernel, by decide +kernel, by decide +kernel, by decide +kernel, by decide +kernel, by decide +kernel, by
     decide +kernel, by decide +kernel, by decide +kernel, by decide +kernel⟩⟩,
   ⟨((queued.onDev (fun d => d.setQueue 0 3 [{ frame := 1, launch := some 1 }])).having [(F.TOP_READY_time, 1)]).having
     [(readyBit 0, 0)], 0, 0, 1, 3, { frame := 1, launch := some 1 }, [], (((queued.onDev (fun d => d.setQueue 0 3
     [{ frame := 1, launch := some 1 }])).having [(F.TOP_READY_time, 1)]).having [(readyBit 0, 0)]).dev.firstBit 0 0, ⟨by
     decide +kernel, rfl, by decide +kernel, heads_fine _ _ (by decide +kernel), by decide +kernel, by decide +kernel, by
     decide +kernel, by decide +kernel, by decide +kernel, by decide +kernel, by decide +kernel⟩⟩,
   ⟨((queued.onDev (fun d => d.setQueue 0 3 [{ frame := 1, launch := some 0 }])).having [(F.TOP_READY_time, 1)]).having
     [(readyBit 0, 0)], 0, 0, 0, 3, { frame := 1, launch := some 0 }, [], (((queued.onDev (fun d => d.setQueue 0 3
     [{ frame := 1, launch := some 0 }])).having [(F.TOP_READY_time, 1)]).having [(readyBit 0, 0)]).dev.firstBit 0 0, ⟨by
     decide +kernel, rfl, by decide +kernel, heads_fine _ _ (by decide +kernel), by decide +kernel, by decide +kernel, by
     decide +kernel, by decide +kernel, by decide +kernel, by decide +kernel, by decide +kernel⟩⟩,
   ⟨sending { frame := 1 }, 0, { copy := { frame := 1 }, queue := 3 }, by decide +kernel⟩,
   ⟨sending { holder := some [1] }, 0, { copy := { holder := some [1] }, queue := 3 }, [1], by decide +kernel⟩,
   ⟨full, 0, 1, by decide +kernel⟩⟩

/-- What meets the hypotheses of `GatesAndStreams`, clause by clause. -/
theorem witness_GatesAndStreams :
  (∃ (s : State), ∃ (p : Fin 81), ∃ (entry : Fin 256), ∃ g, s.Up ∧ s.dev.runningList p = some g ∧ s.dev.entryNow p g = some
    entry.val) ∧
  (∃ (s : State), ∃ (p : Fin 81), ∃ (entry : Fin 256), s.Up ∧ (∀ g, s.dev.runningList p = some g → s.dev.entryNow p g ≠ some
    entry.val)) ∧
  (∃ (s : State), ∃ (p : Fin 81), ∃ g, s.Up ∧ Sparse.get? s.dev.qsc.pend p.val = some g ∧ s.dev.timeReady = true ∧ g.due ≤
    s.dev.nowNs) ∧
  (∃ (s : State), ∃ (p : Fin 81), s.Up ∧ p.val < 64 ∧ s.dev.flag (F.QSC_PREEMPT_enable p) = true ∧ s.dev.flag
    (F.QSC_PREEMPT_verify_dis p) = false ∧ s.dev.portReady p = true) ∧
  (∃ (base cycle now : Nat), 0 < cycle) ∧
  (∃ (s : State), s.Up ∧ s.dev.flag F.TOP_READY_qsc = false) ∧
  (∃ (s : State), ∃ (n : Nat), ∃ bs, ∃ launch, s.Up ∧ s.dev.flag F.TOP_READY_qsc = true ∧ n = s.dev.qsc.skVisit % 4096 ∧
    s.dev.skMayRun n = true ∧ (s.dev.skState n = Sk.running ∨ s.dev.skState n = Sk.filling) ∧ field (s.dev.flowWord n 6) 0 16 <
    field (s.dev.flowWord n 2) 16 16 ∧ s.dev.skDue n + 16 * field (s.dev.flowWord n 2) 0 16 ≤ s.dev.skNow ∧ s.dev.placeholder n =
    some bs ∧ launch = (if s.dev.flowWord n 3 = 0 then none else some (s.dev.skLaunch (s.dev.skDue n + s.dev.flowWord n 3))) ∧
    s.dev.beyondHorizon (field (s.dev.flowWord n 0) 0 7) launch = false ∧ s.dev.standsBy (field (s.dev.flowWord n 0) 0 7) = false
    ∧ s.dev.skState n = Sk.running) ∧
  (∃ (s : State), ∃ (n : Nat), ∃ bs, ∃ launch, s.Up ∧ s.dev.flag F.TOP_READY_qsc = true ∧ n = s.dev.qsc.skVisit % 4096 ∧
    s.dev.skMayRun n = true ∧ (s.dev.skState n = Sk.running ∨ s.dev.skState n = Sk.filling) ∧ field (s.dev.flowWord n 6) 0 16 <
    field (s.dev.flowWord n 2) 16 16 ∧ s.dev.skDue n + 16 * field (s.dev.flowWord n 2) 0 16 ≤ s.dev.skNow ∧ s.dev.placeholder n =
    some bs ∧ launch = (if s.dev.flowWord n 3 = 0 then none else some (s.dev.skLaunch (s.dev.skDue n + s.dev.flowWord n 3))) ∧
    s.dev.beyondHorizon (field (s.dev.flowWord n 0) 0 7) launch = false ∧ s.dev.standsBy (field (s.dev.flowWord n 0) 0 7) =
    false) ∧
  (∃ (s : State), ∃ (n : Nat), s.Up ∧ s.dev.flag F.TOP_READY_qsc = true ∧ n = s.dev.qsc.skVisit % 4096 ∧ s.dev.skMayRun n = true
    ∧ (s.dev.skState n = Sk.running ∨ s.dev.skState n = Sk.filling) ∧ field (s.dev.flowWord n 2) 16 16 ≤ field (s.dev.flowWord n
    6) 0 16 ∧ s.dev.skDue n ≤ s.dev.skNow) :=
  ⟨⟨(full.onDev (fun d =>
     { d with qsc := { d.qsc with oper := [(0, { len := 2, cycle := 100 })], pend := [(0, { len := 2, cycle := 100 })] } })).having
     [(F.TOP_READY_time, 1)], 0, 0, { len := 2, cycle := 100 }, by decide +kernel⟩,
   ⟨full, 0, 3, ⟨by decide +kernel, fun g h =>
     (by revert h; rw [show Dev.runningList _ _ = none from by decide +kernel]; intro h; cases h)⟩⟩,
   ⟨(full.onDev (fun d =>
     { d with qsc := { d.qsc with oper := [(0, { len := 2, cycle := 100 })], pend := [(0, { len := 2, cycle := 100 })] } })).having
     [(F.TOP_READY_time, 1)], 0, { len := 2, cycle := 100 }, by decide +kernel⟩,
   ⟨full.having [(F.QSC_PREEMPT_enable 0, 1), (F.QSC_PREEMPT_verify_dis 0, 0)], 0, by decide +kernel⟩,
   ⟨5, 100, 7, by decide +kernel⟩,
   ⟨full.having [(F.TOP_READY_qsc, 0)], by decide +kernel⟩,
   ⟨keepingRun (5 * 2 ^ 16), 0, (((keepingRun (5 * 2 ^ 16)).dev.placeholder 0).get (by decide +kernel)), none, by decide +kernel⟩,
   ⟨keeping (5 * 2 ^ 16), 0, (((keeping (5 * 2 ^ 16)).dev.placeholder 0).get (by decide +kernel)), none, by decide +kernel⟩,
   ⟨keeping 0, 0, by decide +kernel⟩⟩

/-- What meets the hypotheses of `TimeBaseSet`, clause by clause. -/
theorem witness_TimeBaseSet :
  (∃ (s : State), s.Reaches R.TBS_SNAP) ∧
  (∃ (s : State), s.Up ∧ s.dev.blockPresent 6 = true ∧ s.dev.adjRefused 1 = false) ∧
  (∃ (s : State), s.Up ∧ s.dev.blockPresent 6 = true ∧ s.dev.adjRefused 2 = false) ∧
  (∃ (s : State), s.Up ∧ s.dev.blockPresent 6 = true ∧ s.dev.adjRefused 3 = false ∧ s.dev.adjSigned ≠ 0) ∧
  (∃ (s : State), s.Up ∧ s.dev.blockPresent 6 = true ∧ s.dev.adjRefused 3 = false ∧ s.dev.adjSigned = 0) ∧
  (∃ (s : State), ∃ c, s.Up ∧ s.dev.blockPresent 6 = true ∧ c ∈ [(Instr.tbsSet, 1), (.tbsAdd, 2), (.tbsSlew, 3)] ∧
    s.dev.adjRefused c.2 = true) ∧
  (∃ (s : State), s.Up ∧ s.dev.flag F.TBS_STATUS_slewing = true ∧ s.dev.tbs.slew.natAbs * 1600000 ≤ s.dev.slewPart) ∧
  (∃ (s : State), s.Up ∧ s.dev.flag F.TBS_STATUS_slewing = true ∧ s.dev.slewPart < s.dev.tbs.slew.natAbs * 1600000) ∧
  (∃ (s : State), ∃ (e : TxStamp), ∃ (rest : List TxStamp), s.Reaches R.TBS_TXQ_POP ∧ s.dev.tbs.txq = e :: rest) ∧
  (∃ (d : Dev), d.flag F.TBS_STATUS_counting = true ∧ d.flag F.TBS_STATUS_slewing = false) ∧
  (∃ (d : Dev), d.flag F.TBS_STATUS_counting = false) ∧
  (∃ (d : Dev), d.sget F.TBS_FF = 0) :=
  ⟨⟨full, by decide +kernel⟩,
   ⟨full, by decide +kernel⟩,
   ⟨full, by decide +kernel⟩,
   ⟨full.having [(F.TBS_ADJ_NS_ns, 5)], by decide +kernel⟩,
   ⟨full, by decide +kernel⟩,
   ⟨full.having [(F.TBS_ADJ_NS_ns, 1000000000)], (.tbsSet, 1), by decide +kernel⟩,
   ⟨full.having [(F.TBS_STATUS_slewing, 1)], by decide +kernel⟩,
   ⟨(full.onDev (fun d => { d with tbs := { d.tbs with slew := 10 ^ 18 } })).having [(F.TBS_STATUS_slewing, 1)], by
     decide +kernel⟩,
   ⟨full.onDev (fun d => { d with tbs := { d.tbs with txq := [⟨1, 0, {}, false⟩] } }), ⟨1, 0, {}, false⟩, [], by decide +kernel⟩,
   ⟨(full.having [(F.TBS_STATUS_counting, 1)]).dev, by decide +kernel⟩,
   ⟨(full.having [(F.TBS_STATUS_counting, 0)]).dev, by decide +kernel⟩,
   ⟨full.dev, by decide +kernel⟩⟩

/-- What meets the hypotheses of `TdcChannels`, clause by clause. -/
theorem witness_TdcChannels :
  (∃ (s : State), ∃ (c : Fin 80), ∃ (cm t : Nat), s.Up ∧ s.dev.tdcAccepts c cm = (some t, false)) ∧
  (∃ (s : State), ∃ (c : Fin 80), ∃ (cm : Nat), s.Up ∧ s.dev.tdcAccepts c cm = (none, true)) ∧
  (∃ (s : State), ∃ (c : Fin 92), ∃ (cm t : Nat), s.Up ∧ s.dev.tdcAccepts c cm = (some t, false)) ∧
  (∃ (s : State), ∃ (c : Fin 92), ∃ (cm : Nat), s.Up ∧ s.dev.tdcAccepts c cm = (none, true)) ∧
  (∃ (s : State), ∃ (c : Fin 92), ∃ (c1 c2 : Nat), s.Up ∧ s.dev.flag (F.TDC_STATUS_fault c) = false ∧ s.dev.tdcPresent c = true ∧
    s.dev.tdcPowered c = true ∧ c1 < 2 ^ 12 ∧ c2 < 2 ^ 12 ∧ c1 ≤ s.dev.get (F.TDC_TRIM_c1_nom c) + 3 ∧ s.dev.get
    (F.TDC_TRIM_c1_nom c) ≤ c1 + 3 ∧ c2 ≤ s.dev.get (F.TDC_TRIM_c2_nom c) + 3 ∧ s.dev.get (F.TDC_TRIM_c2_nom c) ≤ c2 + 3) ∧
  (∃ (s : State), ∃ (c : Fin 92), ∃ (c1 c2 : Nat), s.Up ∧ s.dev.flag (F.TDC_STATUS_fault c) = false ∧ s.dev.tdcPresent c = true ∧
    s.dev.tdcPowered c = true ∧ c1 < 2 ^ 12 ∧ c2 < 2 ^ 12 ∧ (s.dev.get (F.TDC_TRIM_c1_nom c) + 3 < c1 ∨ c1 + 3 < s.dev.get
    (F.TDC_TRIM_c1_nom c) ∨ s.dev.get (F.TDC_TRIM_c2_nom c) + 3 < c2 ∨ c2 + 3 < s.dev.get (F.TDC_TRIM_c2_nom c))) ∧
  (∃ (s : State), ∃ (i : Fin 3), ∃ (w : Word), s.Reaches (R.TDC_TRIM_REQ i) ∧ w &&& ~~~(namedAt (R.TDC_TRIM_REQ i)) = 0) ∧
  (∃ (s : State), ∃ (c : Fin 92), ∃ (q : Trim), ∃ (a r : TrimResult), s.Up ∧ s.dev.flag (F.TDC_STATUS_trimming c) = true ∧
    s.dev.tdcPowered c = true ∧ r = trimResult q ∧ (s.dev.tdcOf c).run1 = none) ∧
  (∃ (s : State), ∃ (c : Fin 92), ∃ (q : Trim), ∃ (a r : TrimResult), s.Up ∧ s.dev.flag (F.TDC_STATUS_trimming c) = true ∧
    s.dev.tdcPowered c = true ∧ r = trimResult q ∧ (s.dev.tdcOf c).run1 = some a ∧ a.cells = r.cells ∧ a.steps = r.steps ∧ near2
    a.c1 r.c1 = true ∧ near2 a.c2 r.c2 = true) ∧
  (∃ (s : State), ∃ (c : Fin 92), ∃ (q : Trim), ∃ (a r : TrimResult), s.Up ∧ s.dev.flag (F.TDC_STATUS_trimming c) = true ∧
    s.dev.tdcPowered c = true ∧ r = trimResult q ∧ (s.dev.tdcOf c).run1 = some a ∧ a.agrees r = false ∧ (s.dev.tdcOf c).pairs <
    3) ∧
  (∃ (s : State), ∃ (c : Fin 92), ∃ (q : Trim), ∃ (a r : TrimResult), s.Up ∧ s.dev.flag (F.TDC_STATUS_trimming c) = true ∧
    s.dev.tdcPowered c = true ∧ r = trimResult q ∧ (s.dev.tdcOf c).run1 = some a ∧ a.agrees r = false ∧ (s.dev.tdcOf c).pairs =
    3) ∧
  (∃ (d : Dev), ∃ (c : Fin 92), ∃ (t : Nat), ∃ a, a ≠ R.TDC_RES_LO c ∧ a ≠ R.TDC_RES_HI c ∧ a ≠ R.TDC_RES_CNT c) ∧
  (∃ (d : Dev), ∃ (c : Fin 92), ∃ (t : Nat), ∃ k, k ≠ c.val) :=
  ⟨⟨((timed 0 { paired := true }).having [(F.HSL_STATUS_cdr_lock 0, 1)]), 0, 5, (((timed 0 { paired := true }).having
     [(F.HSL_STATUS_cdr_lock 0, 1)]).dev.eventTime 0 5), by decide +kernel⟩,
   ⟨(timed 0 { paired := true, retried := true }).having [(F.TDC_STATUS_fails 0, 1), (F.HSL_STATUS_cdr_lock 0, 1)], 0, 5, by
     decide +kernel⟩,
   ⟨((timed 80 { paired := true }).having [(F.TDC_CFG_mode 80, 1)]), 80, 5, (((timed 80 { paired := true }).having
     [(F.TDC_CFG_mode 80, 1)]).dev.eventTime 80 5), by decide +kernel⟩,
   ⟨(timed 0 { paired := true, retried := true }).having [(F.TDC_STATUS_fails 0, 1), (F.HSL_STATUS_cdr_lock 0, 1)], 0, 5, by
     decide +kernel⟩,
   ⟨full, 0, 0, 0, by decide +kernel⟩,
   ⟨full.having [(F.TDC_STATUS_fails 0, 2), (F.TDC_TRIM_c1_nom 0, 0)], 0, 10, 0, by decide +kernel⟩,
   ⟨full, 0, 0, by decide +kernel⟩,
   ⟨full.having [(F.TDC_STATUS_trimming 0, 1)], 0, default, {}, trimResult default, ⟨by decide +kernel, by decide +kernel, by
     decide +kernel, rfl, by decide +kernel⟩⟩,
   ⟨(timed 0 { run1 := some (trimResult default) }).having [(F.TDC_STATUS_trimming 0, 1)], 0, default, trimResult default,
     trimResult default, ⟨by decide +kernel, by decide +kernel, by decide +kernel, rfl, rfl, rfl, rfl, by simp [near2], by simp
     [near2]⟩⟩,
   ⟨(timed 0 { run1 := some ⟨1, 1, 1, 1⟩ }).having [(F.TDC_STATUS_trimming 0, 1)], 0, default, ⟨1, 1, 1, 1⟩, trimResult default,
     ⟨by decide +kernel, by decide +kernel, by decide +kernel, rfl, rfl, rfl, by decide +kernel⟩⟩,
   ⟨(timed 0 { run1 := some ⟨1, 1, 1, 1⟩, pairs := 3 }).having [(F.TDC_STATUS_trimming 0, 1)], 0, default, ⟨1, 1, 1, 1⟩,
     trimResult default, ⟨by decide +kernel, by decide +kernel, by decide +kernel, rfl, rfl, rfl, by decide +kernel⟩⟩,
   ⟨full.dev, 0, 0, 0, by decide +kernel⟩,
   ⟨full.dev, 0, 0, 1, by decide +kernel⟩⟩

set_option maxRecDepth 20000 in
/-- What meets the hypotheses of `PhaseTransfer`, clause by clause. -/
theorem witness_PhaseTransfer :
  (∃ (s : State), ∃ (k : Fin 80), ∃ (blocks t : Nat), let x := s.dev.phxOf k; let g : Int := s.dev.gridPeriod k; let block : Int := if k.val < 64 then 65536 * nthD [61440, 24576, 12288, 6144, 3072, 1536] (s.dev.get (F.MAC_CFG_speed k)) 6144 else g; let a : Int := ((t : Int) - s.dev.rxDelay (if k.val < 64 then k else k + 1)) * gridUnits - blocks * block; let f := (a - (s.dev.get (F.PHX_PARTNER_GRID k) : Int) * gridUnits) % g; let m := if x.seen then roundDiv (x.mIn + x.step - f) (s.dev.gridPeriod k : Int).toNat * g + f else f; s.Up ∧ 2 ≤ s.dev.phxState k ∧ (s.dev.tdcOf (if k.val < 64 then s.dev.refLane k else k)).last = some t ∧ (x.seen = true → ((m - (x.mIn + x.step)).natAbs : Int) ≤ s.dev.phxThreshold k + (s.dev.sget (F.PHX_FREQ k)).natAbs * 6291456 / 100000) ∧ x.count + 1 < s.dev.phxInterval k) ∧
  (∃ (s : State), ∃ (p : Fin 64), ∃ (words bits : Nat), ∃ (e : Dev), s.Up ∧ s.dev.phxSends p = true ∧ (s.dev.phxOf p).due = none
    ∧ e = (s.begin.dev.leaveL1 p).setPhx p { s.dev.phxOf p with due := some s.dev.now } ∧ s.dev.sendingOn p = none ∧ e.fitsGap p
    ((e.reportBytes p (80 * words + bits)).length + e.secLen p (e.reportBytes p (80 * words + bits))) = true) ∧
  (∃ (s : State), ∃ (p : Fin 64), ∃ (words bits : Nat), ∃ (e : Dev), s.Up ∧ s.dev.phxSends p = true ∧ (s.dev.phxOf p).due = none
    ∧ e = (s.begin.dev.leaveL1 p).setPhx p { s.dev.phxOf p with due := some s.dev.now } ∧ (s.dev.sendingOn p).isSome = true) ∧
  (∃ (s : State), ∃ (p : Fin 64), ∃ (bits : Nat), ∃ (line bs : List Byte), let w := fun (i n : Nat) => octets bs (14 + i) n; let stamp := s.dev.rxStamp p bits; s.Up ∧ s.dev.opened p line = some bs ∧ s.dev.isReport p bs = true ∧ fcsOk bs = true ∧ bs.length = 82 ∧ w 0 1 = 1 ∧ w 1 1 % 4 = 3 ∧ w 4 8 ≠ s.dev.identity ∧ s.dev.phxState p ≠ Phx.off ∧ (∀ t, (s.dev.phxOf p).lastAcc = some t → t + 100000 * 65536 ≤ stamp.t)) ∧
  (∃ (s : State), ∃ (p : Fin 64), ∃ (bits : Nat), ∃ (line bs : List Byte), let w := fun (i n : Nat) => octets bs (14 + i) n; s.Up ∧ s.dev.opened p line = some bs ∧ s.dev.isReport p bs = true ∧ w 0 1 ≠ 1 ∧ w 4 8 ≠ s.dev.identity) ∧
  (∃ (s : State), ∃ (p : Fin 64), ∃ (bits : Nat), ∃ (line : List Byte), s.Up ∧ s.dev.opened p line = none) ∧
  (∃ (s : State), ∃ (k : Fin 80), s.Up ∧ s.dev.phxState k = Phx.track) ∧
  (∃ (d : Dev), ∃ (k : Fin 80), ∃ (arrival : Nat), ∃ (i : PhxInfo), (d.phxOf k).jumped = false ∧ d.phxAmbiguous k i = true) ∧
  (∃ (s : State), ∃ (k channel : Fin 128), ∃ (target : Bool), s.Reaches R.PHX_CAL_CTRL ∧ s.dev.get F.PHX_CAL_STATUS_state ≠ 1 ∧
    k.val < 80 ∧ s.dev.phxState k = Phx.track ∧ 80 ≤ channel.val ∧ channel.val ≤ 91 ∧ s.dev.tdcMode channel = 1) ∧
  (∃ (s : State), ∃ (k channel : Fin 128), ∃ (target : Bool), s.Reaches R.PHX_CAL_CTRL ∧ s.dev.get F.PHX_CAL_STATUS_state = 1) ∧
  (∃ (s : State), ∃ (k channel : Fin 128), ∃ (target : Bool), s.Reaches R.PHX_CAL_CTRL ∧ s.dev.get F.PHX_CAL_STATUS_state ≠ 1 ∧
    (80 ≤ k.val ∨ s.dev.phxState k ≠ Phx.track)) ∧
  (∃ (s : State), ∃ (k channel : Fin 128), ∃ (target : Bool), s.Reaches R.PHX_CAL_CTRL ∧ s.dev.get F.PHX_CAL_STATUS_state ≠ 1 ∧
    k.val < 80 ∧ s.dev.phxState k = Phx.track ∧ (channel.val < 80 ∨ 91 < channel.val ∨ s.dev.tdcMode channel ≠ 1)) ∧
  (∃ (s : State), ∃ (k channel : Fin 128), ∃ (target : Bool), s.Reaches R.PHX_CAL_CTRL) ∧
  (∃ (s : State), let k := s.dev.phxCal.link; s.Up ∧ s.dev.get F.PHX_CAL_STATUS_state = 1 ∧ s.dev.phxState k = Phx.track ∧ s.dev.get F.TBS_STATUS_epoch = s.dev.phxCal.epoch ∧ s.dev.get (F.PHX_STATUS_partner_epoch k) = s.dev.phxCal.partnerEpoch ∧ 2 * s.dev.get F.PHX_CAL_STATUS_samples < s.dev.calLen) ∧
  (∃ (s : State), let k := s.dev.phxCal.link; s.Up ∧ s.dev.get F.PHX_CAL_STATUS_state = 1 ∧ s.dev.phxState k = Phx.track ∧ s.dev.get F.TBS_STATUS_epoch = s.dev.phxCal.epoch ∧ s.dev.get (F.PHX_STATUS_partner_epoch k) = s.dev.phxCal.partnerEpoch ∧ s.dev.calLen ≤ 2 * s.dev.get F.PHX_CAL_STATUS_samples ∧ s.dev.phxCal.hi - s.dev.phxCal.lo ≤ 2 * 65536) :=
  ⟨⟨((timed 0 { last := some 0 }).having [(F.PHX_STATUS_state 0, 2)]), 0, 0, 0, by decide +kernel⟩,
   ⟨full.having [(F.PHX_CFG_enable 0, 1)], 0, 0, 0, ((full.having [(F.PHX_CFG_enable 0, 1)]).begin.dev.leaveL1 0).setPhx 0
     { (full.having [(F.PHX_CFG_enable 0, 1)]).dev.phxOf 0 with due := some (full.having [(F.PHX_CFG_enable 0, 1)]).dev.now },
     ⟨by decide +kernel, by decide +kernel, by decide +kernel, rfl, by decide +kernel, by decide +kernel⟩⟩,
   ⟨(sending { frame := 1 }).having [(F.PHX_CFG_enable 0, 1)], 0, 0, 0, (((sending { frame := 1 }).having [(F.PHX_CFG_enable 0,
     1)]).begin.dev.leaveL1 0).setPhx 0
     { ((sending { frame := 1 }).having [(F.PHX_CFG_enable 0, 1)]).dev.phxOf 0 with due := some ((sending { frame := 1 }).having [(F.PHX_CFG_enable 0, 1)]).dev.now },
     ⟨by decide +kernel, by decide +kernel, by decide +kernel, rfl, by decide +kernel⟩⟩,
   ⟨full.having [(F.PHX_CFG_enable 0, 1), (F.PHX_STATUS_state 0, 2)], 0, 0, reportOf 1, reportOf 1, ⟨by decide +kernel, by
     decide +kernel, by decide +kernel, by decide +kernel, by decide +kernel, by decide +kernel, by decide +kernel, by
     decide +kernel, by decide +kernel, fun t h =>
     (by revert h; rw [show ((Dev.phxOf _ _).lastAcc) = none from by decide +kernel]; intro h; cases h)⟩⟩,
   ⟨full.having [(F.PHX_CFG_enable 0, 1), (F.PHX_STATUS_state 0, 2)], 0, 0, reportOf 2, reportOf 2, by decide +kernel⟩,
   ⟨full.having [(F.MSC_PORT_CFG_mode 0, 2)], 0, 0, List.replicate 64 0, by decide +kernel⟩,
   ⟨full.having [(F.PHX_STATUS_state 0, 4)], 0, by decide +kernel⟩,
   ⟨ambiguous.dev, 0, 0, ⟨0, 0, 0, 0, 0, 0, none, none, 10 ^ 20, none⟩, by decide +kernel⟩,
   ⟨full.having [(F.PHX_STATUS_state 0, 4), (F.TDC_CFG_mode 80, 1)], 0, 80, true, by decide +kernel⟩,
   ⟨full.having [(F.PHX_CAL_STATUS_state, 1)], 0, 80, true, by decide +kernel⟩,
   ⟨full, 0, 80, true, by decide +kernel⟩,
   ⟨full.having [(F.PHX_STATUS_state 0, 4)], 0, 3, true, by decide +kernel⟩,
   ⟨full, 0, 80, true, by decide +kernel⟩,
   ⟨full.having [(F.PHX_STATUS_state 0, 4), (F.PHX_CAL_STATUS_state, 1), (F.PHX_CAL_LEN, 64)], by decide +kernel⟩,
   ⟨full.having [(F.PHX_STATUS_state 0, 4), (F.PHX_CAL_STATUS_state, 1), (F.PHX_CAL_LEN, 2), (F.PHX_CAL_STATUS_samples, 2)], by
     decide +kernel⟩⟩

/-- What meets the hypotheses of `SlotTicks`, clause by clause. -/
theorem witness_SlotTicks :
  (∃ (d0 : Dev), ∃ (n : Fin 32), let d := d0.put (F.REF_SLOT_STAT_kind_eff n) (d0.slotKind n); d0.slotUsed n = true ∧ (Sparse.get? d0.refs.strobed n.val).isSome = false ∧ d.slotState n = Slot.off) ∧
  (∃ (d0 : Dev), ∃ (n : Fin 32), let d := d0.put (F.REF_SLOT_STAT_kind_eff n) (d0.slotKind n); d0.slotUsed n = true ∧ (Sparse.get? d0.refs.strobed n.val).isSome = false ∧ d.slotState n = Slot.fail ∧ d.badRate n = false ∧ d.slotDownstream n = false ∧ d.slotAlarm n = false ∧ d.flag (F.REF_SLOT_STAT_freq_valid n) = true ∧ d.within n (d.accLimit n) = true ∧ d.stillOutvoted n = false) ∧
  (∃ (d0 : Dev), ∃ (n : Fin 32), let d := d0.put (F.REF_SLOT_STAT_kind_eff n) (d0.slotKind n); let jump := (d.refs.jumps.contains n.val || d.refs.jumpCands.contains (d.slotCand n)) && d.slotKind n == 1; d0.slotUsed n = true ∧ (Sparse.get? d0.refs.strobed n.val).isSome = false ∧ d.slotState n = Slot.wait ∧ jump = false ∧ d.slotAlarm n = true) ∧
  (∃ (d0 : Dev), ∃ (n : Fin 32), let d := d0.put (F.REF_SLOT_STAT_kind_eff n) (d0.slotKind n); let jump := (d.refs.jumps.contains n.val || d.refs.jumpCands.contains (d.slotCand n)) && d.slotKind n == 1; d0.slotUsed n = true ∧ (Sparse.get? d0.refs.strobed n.val).isSome = false ∧ d.slotState n = Slot.wait ∧ jump = false ∧ d.slotAlarm n = false ∧ d.within n (d.accLimit n) = false) ∧
  (∃ (d0 : Dev), ∃ (n : Fin 32), let d := d0.put (F.REF_SLOT_STAT_kind_eff n) (d0.slotKind n); let jump := (d.refs.jumps.contains n.val || d.refs.jumpCands.contains (d.slotCand n)) && d.slotKind n == 1; d0.slotUsed n = true ∧ (Sparse.get? d0.refs.strobed n.val).isSome = false ∧ d.slotState n = Slot.wait ∧ jump = false ∧ d.slotAlarm n = false ∧ d.within n (d.accLimit n) = true ∧ d.slotDownstream n = false ∧ d.stillOutvoted n = true) ∧
  (∃ (d0 : Dev), ∃ (n : Fin 32), let d := d0.put (F.REF_SLOT_STAT_kind_eff n) (d0.slotKind n); let jump := (d.refs.jumps.contains n.val || d.refs.jumpCands.contains (d.slotCand n)) && d.slotKind n == 1; d0.slotUsed n = true ∧ (Sparse.get? d0.refs.strobed n.val).isSome = false ∧ d.slotState n = Slot.wait ∧ jump = false ∧ d.slotAlarm n = false ∧ d.within n (d.accLimit n) = true ∧ d.slotDownstream n = false ∧ d.stillOutvoted n = false) ∧
  (∃ (d0 : Dev), ∃ (n : Fin 32), let d := d0.put (F.REF_SLOT_STAT_kind_eff n) (d0.slotKind n); let jump := (d.refs.jumps.contains n.val || d.refs.jumpCands.contains (d.slotCand n)) && d.slotKind n == 1; d0.slotUsed n = true ∧ (Sparse.get? d0.refs.strobed n.val).isSome = false ∧ d.slotState n = Slot.qual ∧ jump = false ∧ d.slotDownstream n = false ∧ (d.slotAlarm n = true ∨ d.within n (d.rejLimit n) = false)) ∧
  (∃ (d0 : Dev), ∃ (n : Fin 32), let d := d0.put (F.REF_SLOT_STAT_kind_eff n) (d0.slotKind n); let jump := (d.refs.jumps.contains n.val || d.refs.jumpCands.contains (d.slotCand n)) && d.slotKind n == 1; d0.slotUsed n = true ∧ (Sparse.get? d0.refs.strobed n.val).isSome = false ∧ d.slotState n = Slot.qual ∧ jump = false ∧ d.slotDownstream n = false ∧ d.slotAlarm n = false ∧ d.within n (d.rejLimit n) = true) ∧
  (∃ (d0 : Dev), ∃ (n : Fin 32), let d := d0.put (F.REF_SLOT_STAT_kind_eff n) (d0.slotKind n); let jump := (d.refs.jumps.contains n.val || d.refs.jumpCands.contains (d.slotCand n)) && d.slotKind n == 1; d0.slotUsed n = true ∧ (Sparse.get? d0.refs.strobed n.val).isSome = false ∧ d.slotState n = Slot.alarm ∧ jump = false ∧ d.slotDownstream n = false ∧ d.slotAlarm n = false ∧ d.within n (d.rejLimit n) = true) ∧
  (∃ (d0 : Dev), ∃ (n : Fin 32), let d := d0.put (F.REF_SLOT_STAT_kind_eff n) (d0.slotKind n); let jump := (d.refs.jumps.contains n.val || d.refs.jumpCands.contains (d.slotCand n)) && d.slotKind n == 1; d0.slotUsed n = true ∧ (Sparse.get? d0.refs.strobed n.val).isSome = false ∧ d.slotState n = Slot.alarm ∧ jump = false ∧ d.slotDownstream n = false ∧ d.slotAlarm n = true ∧ d.get (F.REF_SLOT_TIMER n) ≤ 1) ∧
  (∃ (s : State), ∃ (n : Fin 32), s.Up ∧ s.dev.slotState n = Slot.wait) ∧
  (∃ (s : State), ∃ (n : Fin 32), s.Up ∧ s.dev.slotState n = Slot.alarm) :=
  ⟨⟨(slotIn Slot.off).dev, 0, by decide +kernel⟩,
   ⟨((slotLive Slot.fail).having [(F.REF_SLOT_STAT_freq_valid 0, 1)]).dev, 0, by decide +kernel⟩,
   ⟨(slotIn Slot.wait).dev, 0, by decide +kernel⟩,
   ⟨((slotLive Slot.wait).having [(F.REF_SLOT_FREQ 0, 100), (F.REF_SLOT_ACC 0, 0)]).dev, 0, by decide +kernel⟩,
   ⟨((slotIn Slot.wait).onDev (fun d => { d with refs := { d.refs with ptpLive := true, outvoted := [0] } })).dev, 0, by
     decide +kernel⟩,
   ⟨(slotLive Slot.wait).dev, 0, by decide +kernel⟩,
   ⟨(slotIn Slot.qual).dev, 0, by decide +kernel⟩,
   ⟨(slotLive Slot.qual).dev, 0, by decide +kernel⟩,
   ⟨(slotLive Slot.alarm).dev, 0, by decide +kernel⟩,
   ⟨((slotIn Slot.alarm).having [(F.REF_SLOT_TIMER 0, 1)]).dev, 0, by decide +kernel⟩,
   ⟨slotIn Slot.wait, 0, by decide +kernel⟩,
   ⟨slotIn Slot.alarm, 0, by decide +kernel⟩⟩

/-- What meets the hypotheses of `ReferenceWork`, clause by clause. -/
theorem witness_ReferenceWork :
  (∃ (s : State), s.Up ∧ s.dev.blockPresent 9 = true) ∧
  (∃ (s : State), ∃ (n : Fin 32), ∃ (offset x : Int), s.Up ∧ s.dev.slotState n ≠ Slot.off ∧ (Sparse.get? s.dev.refs.strobed
    n.val).isSome = false ∧ s.dev.windowOffset n offset = some x) ∧
  (∃ (s : State), ∃ (n : Fin 32), ∃ (offset : Int), s.Up ∧ (s.dev.slotState n = Slot.off ∨ (Sparse.get? s.dev.refs.strobed
    n.val).isSome = true ∨ s.dev.windowOffset n offset = none)) ∧
  (∃ (s : State), let at_ := instant (s.dev.get F.REF_PTP_AT_SEC_LO + 2 ^ 32 * s.dev.get F.REF_PTP_AT_SEC_HI) (s.dev.get F.REF_PTP_AT_NS) 0; s.Reaches R.REF_PTP_CTRL ∧ ((at_ : Int) - s.dev.now).natAbs ≤ 65536 * 1000000000 ∧ (∀ o t, s.dev.refs.lastPost = some (o, t) → t < at_)) ∧
  (∃ (s : State), let at_ := instant (s.dev.get F.REF_PTP_AT_SEC_LO + 2 ^ 32 * s.dev.get F.REF_PTP_AT_SEC_HI) (s.dev.get F.REF_PTP_AT_NS) 0; s.Reaches R.REF_PTP_CTRL ∧ 65536 * 1000000000 < ((at_ : Int) - s.dev.now).natAbs) ∧
  (∃ (s : State), let at_ := instant (s.dev.get F.REF_PTP_AT_SEC_LO + 2 ^ 32 * s.dev.get F.REF_PTP_AT_SEC_HI) (s.dev.get F.REF_PTP_AT_NS) 0; s.Reaches R.REF_PTP_CTRL ∧ (∃ o t, s.dev.refs.lastPost = some (o, t) ∧ at_ ≤ t)) ∧
  (∃ (s : State), s.Up) :=
  ⟨⟨full, by decide +kernel⟩,
   ⟨full.having [(F.REF_SLOT_CFG_rank 0, 1), (F.REF_SLOT_STAT_state 0, Slot.fail), (F.PHX_STATUS_state 0, Phx.freqSt)], 0, 5, 5,
     by decide +kernel⟩,
   ⟨slotIn Slot.off, 0, 0, by decide +kernel⟩,
   ⟨full, ⟨by decide +kernel, by decide +kernel, fun o t h =>
     (by revert h; rw [show full.dev.refs.lastPost = none from by decide +kernel]; intro h; cases h)⟩⟩,
   ⟨full.having [(F.REF_PTP_AT_SEC_LO, 10)], by decide +kernel⟩,
   ⟨full.onDev (fun d => { d with refs := { d.refs with lastPost := some (0, 5) } }), ⟨by decide +kernel, 0, 5, by
     decide +kernel⟩⟩,
   ⟨full, by decide +kernel⟩⟩

/-- What meets the hypotheses of `PhaseAndForce`, clause by clause. -/
theorem witness_PhaseAndForce :
  (∃ (s : State), ∃ (phase : Fin 4), s.Reaches R.REF_CTRL) ∧
  (∃ (s : State), s.Up ∧ s.dev.flag F.REF_CTRL_auto_service = true ∧ s.dev.get F.REF_CTRL_phase = 0 ∧ s.dev.dplState 0 =
    Dpl.locked) ∧
  (∃ (s : State), ∃ (d : Dev), ∃ (p : Nat), p < 4 ∧ p ≠ d.get F.REF_CTRL_phase ∧ p ≠ 2) ∧
  (∃ (s : State), ∃ (d : Dev), ∃ (p : Nat), p < 4 ∧ p ≠ d.get F.REF_CTRL_phase) ∧
  (∃ (s : State), ∃ (w : Word), s.Reaches R.REF_FORCE ∧ w &&& ~~~(namedAt R.REF_FORCE) = 0) ∧
  (∃ (s : State), ∃ (x : Fin 2), s.Up ∧ s.dev.dplState x = Dpl.acquire ∧ s.dev.inWindowErr x = true) :=
  ⟨⟨full, 1, by decide +kernel⟩,
   ⟨full.having [(F.REF_CTRL_auto_service, 1), (F.DPL_STATUS_state 0, Dpl.locked)], by decide +kernel⟩,
   ⟨full, full.dev, 1, by decide +kernel⟩,
   ⟨full, full.dev, 2, by decide +kernel⟩,
   ⟨full, 0, by decide +kernel⟩,
   ⟨full.having [(F.DPL_STATUS_state 1, Dpl.acquire)], 1, by decide +kernel⟩⟩

/-- What meets the hypotheses of `HoldoverWork`, clause by clause. -/
theorem witness_HoldoverWork :
  (∃ (s : State), s.Up) ∧
  (∃ (s : State), ∃ (x : Fin 2), s.Up ∧ s.dev.dplState x ≤ 1) ∧
  (∃ (s : State), ∃ (x : Fin 2), s.Up ∧ s.dev.dplState x = Dpl.holdover ∧ s.dev.compensated x = true ∧ (s.dev.sget F.DPL_LRN_TEMP
    = (s.dev.dpll x).model.held (s.dev.sget F.DPL_LRN_TEMP))) ∧
  (∃ (s : State), ∃ (x : Fin 2), s.Up ∧ s.dev.dplState x = Dpl.holdover) ∧
  (∃ (s : State), s.Up) ∧
  (∃ (s : State), s.Up ∧ s.dev.flag F.DPL_LRN_CTRL_enable = true) ∧
  (∃ (s : State), s.Up ∧ s.dev.dplState 0 ≠ Dpl.holdover) ∧
  (∃ (s : State), s.Reaches R.DPL_LRN_CTRL) :=
  ⟨⟨full, by decide +kernel⟩,
   ⟨full, 0, by decide +kernel⟩,
   ⟨(full.onDev (fun d => d.setDpll 0 { comp := true, model := { valid := true } })).having [(F.DPL_STATUS_state 0,
     Dpl.holdover)], 0, by decide +kernel⟩,
   ⟨full.having [(F.DPL_STATUS_state 1, Dpl.holdover)], 1, by decide +kernel⟩,
   ⟨full, by decide +kernel⟩,
   ⟨full.having [(F.DPL_LRN_CTRL_enable, 1)], by decide +kernel⟩,
   ⟨full, by decide +kernel⟩,
   ⟨full, by decide +kernel⟩⟩

/-- What meets the hypotheses of `RootLock`, clause by clause. -/
theorem witness_RootLock :
  (∃ (s : State), s.Up ∧ s.dev.attempt = none ∧ s.dev.rootLocked = true) ∧
  (∃ (s : State), s.Up ∧ s.dev.rootLocked = false ∧ s.dev.attempt = none ∧ s.dev.get F.SYN_STATUS_tries_left ≠ 0) ∧
  (∃ (s : State), ∃ (outcome : Fin 4), ∃ (a : Attempt), s.Up ∧ s.dev.attempt = some a) ∧
  (∃ (s : State), s.Reaches R.SYN_CTRL ∧ s.dev.rootLocked = false ∧ s.dev.attempt = none) ∧
  (∃ (s : State), s.Reaches R.SYN_CTRL ∧ s.dev.attempt = none ∧ (∀ j < 16, s.dev.outEnabled j = true → hasBit (s.dev.get
    F.OUT_STATUS_parked) j = true)) ∧
  (∃ (s : State), s.Reaches R.SYN_CTRL ∧ s.dev.attempt.isSome = true) ∧
  (∃ (s : State), s.Up ∧ s.dev.rootLocked = true ∧ s.dev.flag F.TBS_STATUS_ff_active = true) ∧
  (∃ (d : Dev), ∃ (a : Attempt), ∃ r, r < 4 ∧ (a.kind = 4 ∨ a.kind = 2 ∧ d.get F.SYN_STATUS_tries_left = 0)) ∧
  (∃ (d : Dev), ∃ (a : Attempt), ∃ r, r < 4 ∧ a.kind ≠ 4 ∧ (a.kind ≠ 2 ∨ d.get F.SYN_STATUS_tries_left ≠ 0)) :=
  ⟨⟨full.having [(F.SYN_STATUS_root_lock, 1)], by decide +kernel⟩,
   ⟨full.having [(F.SYN_STATUS_root_lock, 0), (F.SYN_STATUS_tries_left, 1)], by decide +kernel⟩,
   ⟨full.onDev (fun d => { d with attempt := some ⟨3, some 0⟩ }), 0, ⟨3, some 0⟩, by decide +kernel⟩,
   ⟨full, by decide +kernel⟩,
   ⟨full, ⟨by decide +kernel, by decide +kernel, by decide +kernel⟩⟩,
   ⟨full.onDev (fun d => { d with attempt := some ⟨3, some 0⟩ }), by decide +kernel⟩,
   ⟨full.having [(F.SYN_STATUS_root_lock, 1), (F.TBS_STATUS_ff_active, 1)], by decide +kernel⟩,
   ⟨full.dev, ⟨4, none⟩, 1, by decide +kernel⟩,
   ⟨full.dev, ⟨3, none⟩, 1, by decide +kernel⟩⟩

/-- What meets the hypotheses of `OutputWork`, clause by clause. -/
theorem witness_OutputWork :
  (∃ (s : State), ∃ (w : Word), s.Reaches R.SYN_SSC_AUX ∧ w &&& ~~~(namedAt R.SYN_SSC_AUX) = 0) ∧
  (∃ (s : State), ∃ (w : Word), s.Reaches R.SYN_SSC_CORE ∧ w &&& ~~~(namedAt R.SYN_SSC_CORE) = 0) ∧
  (∃ (s : State), ∃ (park : BitVec 16), s.Reaches R.OUT_CTRL ∧ s.dev.retargeting = false) ∧
  (∃ (s : State), ∃ (i : Fin 12), ∃ (w : Word), s.Reaches (R.OUT_CLK_DLY i) ∧ w &&& ~~~(namedAt (R.OUT_CLK_DLY i)) = 0) ∧
  (∃ (s : State), ∃ (k : Fin 4), ∃ (t : Nat), ∃ (a : Int), ∃ (waiting : List (Int × Nat)), s.Up ∧ (s.dev.ppsOf k).next = none ∧
    (s.dev.ppsOf k).cfg.enable = true ∧ (s.dev.ppsOf k).cfg.edge (max (s.dev.ppsOf k).from_ s.dev.now) (s.dev.ppsOf k).align
    (s.dev.ppsOf k).realign = some (t, a, waiting) ∧ s.dev.timeReady = true ∧ s.dev.parkWanted (12 + k) = false ∧ t < s.dev.now +
    106667 ∧ (∀ e, (s.dev.ppsOf k).busyTo = some e → e ≤ t) ∧ s.dev.sec.extest = false) ∧
  (∃ (s : State), ∃ (k : Fin 4), s.Up ∧ (s.dev.ppsOf k).cfg.src ≠ 0 ∧ s.dev.pulsesOf (s.dev.ppsOf k).cfg.src ≠ [] ∧ s.dev.flag
    (F.OUT_PPS_STATUS_holding k) = false) ∧
  (∃ (s : State), ∃ (i : Fin 16), s.Up) ∧
  (∃ (d : Dev), ∃ (j : Nat), j < 16) :=
  ⟨⟨full, 1, by decide +kernel⟩,
   ⟨full, 1, by decide +kernel⟩,
   ⟨full, 1, by decide +kernel⟩,
   ⟨full, 3, 1, by decide +kernel⟩,
   ⟨(full.onDev (fun d => d.setPps 0 { cfg := { enable := true } })).having [(F.TOP_READY_time, 1)], 0, 0, 0, [], ⟨by
     decide +kernel, by decide +kernel, by decide +kernel, by decide +kernel, by decide +kernel, by decide +kernel, by
     decide +kernel, fun e h =>
     (by revert h; rw [show ((Dev.ppsOf _ _).busyTo) = none from by decide +kernel]; intro h; cases h), by decide +kernel⟩⟩,
   ⟨full.onDev (fun d => { d.setPps 0 { cfg := { src := 1 } } with refs := { d.refs with pulses := [(0, { times := [5] })] } }),
     0, by decide +kernel⟩,
   ⟨full, 2, by decide +kernel⟩,
   ⟨full.dev, 3, by decide +kernel⟩⟩

/-- What meets the hypotheses of `BelaySends`, clause by clause. -/
theorem witness_BelaySends :
  (∃ (s : State), s.Up ∧ s.dev.isMember = true) ∧
  (∃ (s : State), s.Up ∧ s.dev.isActive = true) ∧
  (∃ (s : State), ∃ a, ∃ m, ∃ rest, s.Up ∧ s.dev.belay.queue = a :: rest ∧ s.dev.isActive = true ∧ s.dev.belayLanes ≠ [] ∧
    s.dev.flag F.RDN_STATUS_img_mismatch = false ∧ mirrorCode a = some m) ∧
  (∃ (s : State), s.Up ∧ s.dev.isActive = true ∧ s.dev.belay.walking = true ∧ s.dev.belay.queue = [] ∧ s.dev.flagged
    s.dev.belay.walkAt = [] ∧ s.dev.walkFeed.flagged s.dev.walkFeed.belay.walkAt = [] ∧ s.dev.belayLanes ≠ []) ∧
  (∃ (s : State), s.Up ∧ s.dev.isActive = true ∧ s.dev.belay.walking = true ∧ s.dev.walkFeed.belay.queue ≠ []) ∧
  (∃ (s : State), ∃ (d : Dev), ∃ (p : Nat), ∃ (bs : List Byte), s.Up ∧ Sparse.get? d.belay.annDue p = some bs ∧ d.isActive = true
    ∧ d.portReady p = true ∧ d.sendingOn p = none ∧ d.fitsGap p (bs.length + d.secLen p bs) = true) ∧
  (∃ (s : State), ∃ (d : Dev), ∃ (p : Nat), ∃ (bs : List Byte), s.Up ∧ Sparse.get? d.belay.annDue p = some bs ∧ d.isActive = true
    ∧ d.portReady p = true ∧ (d.sendingOn p).isSome = true ∨ d.fitsGap p (bs.length + d.secLen p bs) = false) ∧
  (∃ (s : State), ∃ (d : Dev), ∃ (ty : Nat), ∃ (body : List Byte), s.Up ∧ d.belayLanes ≠ []) :=
  ⟨⟨member, by decide +kernel⟩,
   ⟨activeMember, by decide +kernel⟩,
   ⟨activeMember.onDev (fun d => { d with belay := { d.belay with queue := [emBase] } }), emBase, 0, [], by decide +kernel⟩,
   ⟨activeMember.onDev (fun d => { d with belay := { d.belay with walking := true } }), by decide +kernel⟩,
   ⟨activeMember.onDev (fun d => { d with belay := { d.belay with walking := true, queue := [emBase] } }), by decide +kernel⟩,
   ⟨activeMember, (activeMember.onDev (fun d => { d with belay := { d.belay with annDue := [(0, [1])] } })).dev, 0, [1], by
     decide +kernel⟩,
   ⟨activeMember, (activeMember.onDev (fun d =>
     { d.setSending 0 (some { copy := {}, queue := 3 }) with belay := { d.belay with annDue := [(0, [1])] } })).dev, 0, [1], by
     decide +kernel⟩,
   ⟨full, member.dev, 1, [], by decide +kernel⟩⟩

set_option maxRecDepth 20000 in
/-- What meets the hypotheses of `BelayReceives`, clause by clause. -/
theorem witness_BelayReceives :
  (∃ (s : State), ∃ (bs : List Byte), ∃ (clean : Bool), ∃ (body : List Byte), ∃ (e : Dev), ∃ x, s.Up ∧ x ∈
    [(Instr.heartbeatReceive bs clean, 1), (.yieldReceive bs clean, 2), (.mirrorReceive bs clean, 3), (.dpllStateReceive bs
    clean, 4), (.resyncDoneReceive bs clean, 5)] ∧ s.begin.dev.takeBelay x.2 bs clean = (none, e)) ∧
  (∃ (s : State), ∃ (bs : List Byte), ∃ (clean : Bool), ∃ (body : List Byte), ∃ (e : Dev), s.Up ∧ s.begin.dev.takeBelay 1 bs
    clean = (some body, e) ∧ e.flag F.RDN_STATUS_mate_ok = true ∧ e.role = Role.standby ∧ octet body 0 % 4 ≠ Role.active) ∧
  (∃ (s : State), ∃ (bs : List Byte), ∃ (clean : Bool), ∃ (body : List Byte), ∃ (e : Dev), s.Up ∧ s.begin.dev.takeBelay 1 bs
    clean = (some body, e)) ∧
  (∃ (s : State), ∃ (bs : List Byte), ∃ (clean : Bool), ∃ (body : List Byte), ∃ (e : Dev), s.Up ∧ s.begin.dev.takeBelay 2 bs
    clean = (some body, e) ∧ e.role = Role.standby ∧ e.flag F.RDN_CFG_ilk_en = false ∧ e.heldBack = false) ∧
  (∃ (s : State), ∃ (bs : List Byte), ∃ (clean : Bool), ∃ (body : List Byte), ∃ (e : Dev), s.Up ∧ s.begin.dev.takeBelay 2 bs
    clean = (some body, e) ∧ (e.role ≠ Role.standby ∨ e.flag F.RDN_CFG_ilk_en = true ∨ e.heldBack = true)) ∧
  (∃ (s : State), ∃ (bs : List Byte), ∃ (clean : Bool), ∃ (body : List Byte), ∃ (e : Dev), s.Up ∧ e.role = Role.active ∧
    s.begin.dev.takeBelay 3 bs clean = (some body, e)) ∧
  (∃ (s : State), ∃ (bs : List Byte), ∃ (clean : Bool), ∃ (body : List Byte), ∃ (e : Dev), s.Up ∧ e.role = Role.active ∧
    s.begin.dev.takeBelay 5 bs clean = (some body, e)) ∧
  (∃ (s : State), ∃ (bs : List Byte), ∃ (clean : Bool), ∃ (body : List Byte), ∃ (e : Dev), s.Up ∧ s.begin.dev.takeBelay 5 bs
    clean = (some body, e) ∧ e.role ≠ Role.active) ∧
  (∃ (s : State), ∃ (bs : List Byte), ∃ (clean : Bool), ∃ (body : List Byte), ∃ (e : Dev), s.Up ∧ s.begin.dev.takeBelay 3 bs
    clean = (some body, e) ∧ e.role ≠ Role.active) ∧
  (∃ (s : State), ∃ (bs : List Byte), ∃ (clean : Bool), ∃ (body : List Byte), ∃ (e : Dev), s.Up ∧ s.begin.dev.takeBelay 4 bs
    clean = (some body, e)) ∧
  (∃ (s : State), ∃ (bs : List Byte), ∃ (clean : Bool), ∃ (body : List Byte), ∃ (e : Dev), s.Up ∧ s.begin.dev.takeBelay 5 bs
    clean = (some body, e) ∧ e.role ≠ Role.active ∧ e.belay.resyncReq = false ∧ e.belay.rxMirror.getD 0 = octets body 0 4 ∧
    e.flag F.RDN_STATUS_img_mismatch = false) :=
  ⟨⟨standing, [], false, [], (standing.begin.dev.takeBelay 1 [] false).2, (.heartbeatReceive [] false, 1), by decide +kernel⟩,
   ⟨(standing.having [(F.RDN_STATUS_mate_ok, 1)]), messageOf 1 (List.replicate 24 0), true, (List.replicate 24 0), taken
     (standing.having [(F.RDN_STATUS_mate_ok, 1)]) 1 (List.replicate 24 0), by decide +kernel⟩,
   ⟨(standing.having [(F.RDN_STATUS_mate_ok, 1)]), messageOf 1 (List.replicate 24 0), true, (List.replicate 24 0), taken
     (standing.having [(F.RDN_STATUS_mate_ok, 1)]) 1 (List.replicate 24 0), by decide +kernel⟩,
   ⟨standing, messageOf 2 (List.replicate 12 0), true, (List.replicate 12 0), taken standing 2 (List.replicate 12 0), by
     decide +kernel⟩,
   ⟨(standing.having [(F.RDN_CTRL_hold, 1)]), messageOf 2 (List.replicate 12 0), true, (List.replicate 12 0), taken
     (standing.having [(F.RDN_CTRL_hold, 1)]) 2 (List.replicate 12 0), by decide +kernel⟩,
   ⟨activeMember, messageOf 3 (List.replicate 76 0), true, (List.replicate 76 0), taken activeMember 3 (List.replicate 76 0), by
     decide +kernel⟩,
   ⟨activeMember, messageOf 5 [0, 0, 0, 0], true, [0, 0, 0, 0], taken activeMember 5 [0, 0, 0, 0], by decide +kernel⟩,
   ⟨standing, messageOf 5 [0, 0, 0, 0], true, [0, 0, 0, 0], taken standing 5 [0, 0, 0, 0], by decide +kernel⟩,
   ⟨standing, messageOf 3 (List.replicate 76 0), true, (List.replicate 76 0), taken standing 3 (List.replicate 76 0), by
     decide +kernel⟩,
   ⟨standing, messageOf 4 (List.replicate 16 0), true, (List.replicate 16 0), taken standing 4 (List.replicate 16 0), by
     decide +kernel⟩,
   ⟨standing, messageOf 5 [0, 0, 0, 0], true, [0, 0, 0, 0], taken standing 5 [0, 0, 0, 0], by decide +kernel⟩⟩

set_option maxRecDepth 20000 in
/-- What meets the hypotheses of `BelayRoles`, clause by clause. -/
theorem witness_BelayRoles :
  (∃ (s : State), s.Up ∧ s.dev.flag F.RDN_STATUS_mate_ok = true) ∧
  (∃ (s : State), s.Up ∧ s.dev.role = Role.active ∧ s.dev.flag F.RDN_STATUS_ilk_drive = true) ∧
  (∃ (s : State), s.Up ∧ s.dev.blockPresent 21 = true ∧ s.dev.role = Role.standby ∧ s.dev.flag F.RDN_CFG_ilk_en = true ∧
    s.dev.flag F.RDN_STATUS_ilk_level = true ∧ s.dev.heldBack = false) ∧
  (∃ (s : State), s.Up ∧ s.dev.role = Role.guard) ∧
  (∃ (s : State), s.Up ∧ s.dev.blockPresent 21 = true ∧ s.dev.busy = false) ∧
  (∃ (s : State), s.Up) ∧
  (∃ (s : State), ∃ bs, s.Up ∧ s.dev.isAnnounce bs = true ∧ octet bs 14 = 0x81 ∧ fcsOk bs = true ∧ octets bs 18 8 = s.dev.mateId
    ∧ octet bs 15 = Role.active ∧ s.dev.role = Role.active) ∧
  (∃ (s : State), ∃ bs, s.Up ∧ s.dev.isAnnounce bs = false) ∧
  (∃ (s : State), ∃ bs, s.Up ∧ s.dev.isAnnounce bs = true ∧ (octet bs 14 ≠ 0x81 ∨ fcsOk bs = false ∨ octets bs 18 8 ≠
    s.dev.mateId)) ∧
  (∃ (s : State), ∃ bs, s.Up ∧ s.dev.isAnnounce bs = true ∧ octet bs 14 = 0x81 ∧ fcsOk bs = true ∧ octets bs 18 8 = s.dev.mateId
    ∧ octet bs 15 = Role.active ∧ s.dev.role = Role.guard) ∧
  (∃ (s : State), ∃ bs, s.Up ∧ s.dev.isAnnounce bs = true ∧ octet bs 14 = 0x81 ∧ fcsOk bs = true ∧ octets bs 18 8 = s.dev.mateId
    ∧ (octet bs 15 ≠ Role.active ∨ (s.dev.role ≠ Role.active ∧ s.dev.role ≠ Role.guard))) ∧
  (∃ (s : State), s.Up ∧ s.dev.flag F.RDN_CTRL_switchover = true ∧ s.dev.belay.queue = [] ∧ s.dev.role = Role.active) ∧
  (∃ (d : Dev), ∃ (next : Nat), ∃ (reason : Option Nat), next < 4) :=
  ⟨⟨full.having [(F.RDN_STATUS_mate_ok, 1)], by decide +kernel⟩,
   ⟨activeMember, by decide +kernel⟩,
   ⟨full.having [(F.RDN_STATUS_role, Role.standby), (F.RDN_CFG_ilk_en, 1), (F.RDN_STATUS_ilk_level, 1), (F.RDN_STATUS_holdoff,
     0)], by decide +kernel⟩,
   ⟨full.having [(F.RDN_STATUS_role, Role.guard)], by decide +kernel⟩,
   ⟨full, by decide +kernel⟩,
   ⟨full, by decide +kernel⟩,
   ⟨activeMember, withFcs (beBytes 6 member.dev.annDa ++ List.replicate 6 0 ++ [0x88, 0xB5, 0x81, BitVec.ofNat 8 Role.active] ++
     List.replicate 48 0), by decide +kernel⟩,
   ⟨full, [], by decide +kernel⟩,
   ⟨activeMember, (beBytes 6 member.dev.annDa ++ List.replicate 6 0 ++ [0x88, 0xB5, 0x81, BitVec.ofNat 8 Role.active] ++
     List.replicate 48 0), by decide +kernel⟩,
   ⟨(member.having [(F.RDN_STATUS_role, Role.guard)]), withFcs (beBytes 6 member.dev.annDa ++ List.replicate 6 0 ++ [0x88, 0xB5,
     0x81, BitVec.ofNat 8 Role.active] ++ List.replicate 48 0), by decide +kernel⟩,
   ⟨activeMember, withFcs (beBytes 6 member.dev.annDa ++ List.replicate 6 0 ++ [0x88, 0xB5, 0x81, BitVec.ofNat 8 Role.standby] ++
     List.replicate 48 0), by decide +kernel⟩,
   ⟨full.having [(F.RDN_CTRL_switchover, 1), (F.RDN_STATUS_role, Role.active)], by decide +kernel⟩,
   ⟨full.dev, 1, none, by decide +kernel⟩⟩

/-- What meets the hypotheses of `BelayCommands`, clause by clause. -/
theorem witness_BelayCommands :
  (∃ (s : State), ∃ (d : Dev), let mayTake := d.flag F.RDN_STATUS_mate_ok && d.get F.RDN_STATUS_mate_role == Role.standby && d.flag F.RDN_STATUS_synced && !d.belay.mateHold && !d.belay.mateFault && !d.belay.mateHoldoff; s.Reaches R.RDN_CTRL ∧ d.role = Role.active ∧ mayTake = true) ∧
  (∃ (s : State), ∃ (d : Dev), let mayTake := d.flag F.RDN_STATUS_mate_ok && d.get F.RDN_STATUS_mate_role == Role.standby && d.flag F.RDN_STATUS_synced && !d.belay.mateHold && !d.belay.mateFault && !d.belay.mateHoldoff; s.Reaches R.RDN_CTRL ∧ (d.role ≠ Role.active ∨ mayTake = false) ∧ d.flag F.RDN_CTRL_switchover = false) ∧
  (∃ (s : State), ∃ (d : Dev), s.Reaches R.RDN_CTRL ∧ d.isActive = true) ∧
  (∃ (s : State), s.Reaches R.RDN_CTRL) :=
  ⟨⟨full, (full.having [(F.RDN_STATUS_role, Role.active), (F.RDN_STATUS_mate_ok, 1), (F.RDN_STATUS_mate_role, Role.standby),
     (F.RDN_STATUS_synced, 1)]).dev, by decide +kernel⟩,
   ⟨full, full.dev, by decide +kernel⟩,
   ⟨full, activeMember.dev, by decide +kernel⟩,
   ⟨full, by decide +kernel⟩⟩

/-- What meets the hypotheses of `FuseOperations`, clause by clause. -/
theorem witness_FuseOperations :
  (∃ (s : State), ∃ (slot : Fin 4), s.Reaches R.SEC_OTP_PROG ∧ s.dev.sec.otp = none ∧ s.dev.locked = false ∧ s.dev.policyBit
    Policy.otpProg = true ∧ hasBit (s.dev.get F.SEC_STATUS_slots_prog) slot = false ∧ s.dev.slotDirty slot = false) ∧
  (∃ (s : State), ∃ (slot : Fin 4), s.Reaches R.SEC_OTP_PROG ∧ s.dev.sec.otp = none ∧ s.dev.locked = false ∧ s.dev.policyBit
    Policy.otpProg = true ∧ s.dev.goodSlots.all (· == slot.val) = false ∧ hasBit (s.dev.get F.SEC_STATUS_slots_rev) slot = false) ∧
  (∃ (s : State), s.Reaches R.SEC_OTP_PROG ∧ s.dev.sec.otp = none ∧ s.dev.locked = false ∧ s.dev.policyBit Policy.otpProg = true
    ∧ s.dev.get F.SEC_STATUS_floor < min 128 (s.dev.get F.IMG_SEC_VERSION)) ∧
  (∃ (s : State), ∃ (mode : Fin 4), s.Reaches R.SEC_OTP_PROG ∧ s.dev.sec.otp = none ∧ s.dev.locked = false ∧ s.dev.policyBit
    Policy.otpProg = true ∧ s.dev.get F.SEC_STATUS_debug_mode < mode.val ∧ mode.val ≠ 2) ∧
  (∃ (s : State), ∃ (slot : Fin 4), ∃ (vpp : Bool), s.Reaches R.SEC_OTP_PROG ∧ s.dev.sec.otp = none ∧ s.dev.locked = true) ∧
  (∃ (s : State), ∃ (slot : Fin 4), ∃ (vpp : Bool), s.Reaches R.SEC_OTP_PROG ∧ s.dev.sec.otp = none ∧ s.dev.locked = false ∧
    s.dev.policyBit Policy.otpProg = true) ∧
  (∃ (s : State), ∃ (slot mode : Fin 4), ∃ (vpp : Bool), ∃ x, s.Reaches R.SEC_OTP_PROG ∧ x ∈ ([(.otpProgramSlot slot vpp, 1,
    slot.val, 0), (.otpRevokeSlot slot vpp, 2, slot.val, 0), (.otpRaiseFloor vpp, 3, 0, 0), (.otpRaiseDebug mode vpp, 4, 0,
    mode.val)] : List (Instr × Nat × Nat × Nat)) ∧ s.dev.sec.otp.isSome = true) ∧
  (∃ (s : State), ∃ (slot mode : Fin 4), ∃ (vpp : Bool), ∃ x, s.Reaches R.SEC_OTP_PROG ∧ x ∈ ([(.otpProgramSlot slot vpp, 1,
    slot.val, 0), (.otpRevokeSlot slot vpp, 2, slot.val, 0), (.otpRaiseFloor vpp, 3, 0, 0), (.otpRaiseDebug mode vpp, 4, 0,
    mode.val)] : List (Instr × Nat × Nat × Nat)) ∧ s.dev.sec.otp = none ∧ (s.dev.locked = true ∨ s.dev.policyBit Policy.otpProg =
    false)) ∧
  (∃ (s : State), ∃ (slot mode : Fin 4), ∃ (vpp : Bool), ∃ x, s.Reaches R.SEC_OTP_PROG ∧ x ∈ ([(.otpProgramSlot slot vpp, 1,
    slot.val, 0), (.otpRevokeSlot slot vpp, 2, slot.val, 0), (.otpRaiseFloor vpp, 3, 0, 0), (.otpRaiseDebug mode vpp, 4, 0,
    mode.val)] : List (Instr × Nat × Nat × Nat)) ∧ s.dev.sec.otp = none ∧ s.dev.locked = false ∧ s.dev.policyBit Policy.otpProg =
    true ∧ vpp = false) ∧
  (∃ (s : State), ∃ (slot mode : Fin 4), s.Reaches R.SEC_OTP_PROG ∧ s.dev.sec.otp = none ∧ s.dev.locked = false ∧ s.dev.policyBit
    Policy.otpProg = true ∧ hasBit (s.dev.get F.SEC_STATUS_slots_prog) slot = true) ∧
  (∃ (s : State), ∃ (slot mode : Fin 4), s.Reaches R.SEC_OTP_PROG ∧ s.dev.sec.otp = none ∧ s.dev.locked = false ∧ s.dev.policyBit
    Policy.otpProg = true ∧ hasBit (s.dev.get F.SEC_STATUS_slots_prog) slot = false ∧ s.dev.slotDirty slot = true) ∧
  (∃ (s : State), ∃ (slot mode : Fin 4), s.Reaches R.SEC_OTP_PROG ∧ s.dev.sec.otp = none ∧ s.dev.locked = false ∧ s.dev.policyBit
    Policy.otpProg = true ∧ s.dev.goodSlots.all (· == slot.val) = true) ∧
  (∃ (s : State), ∃ (slot mode : Fin 4), s.Reaches R.SEC_OTP_PROG ∧ s.dev.sec.otp = none ∧ s.dev.locked = false ∧ s.dev.policyBit
    Policy.otpProg = true ∧ s.dev.goodSlots.all (· == slot.val) = false ∧ hasBit (s.dev.get F.SEC_STATUS_slots_rev) slot = true) ∧
  (∃ (s : State), ∃ (slot mode : Fin 4), s.Reaches R.SEC_OTP_PROG ∧ s.dev.sec.otp = none ∧ s.dev.locked = false ∧ s.dev.policyBit
    Policy.otpProg = true ∧ min 128 (s.dev.get F.IMG_SEC_VERSION) ≤ s.dev.get F.SEC_STATUS_floor) ∧
  (∃ (s : State), ∃ (slot mode : Fin 4), s.Reaches R.SEC_OTP_PROG ∧ s.dev.sec.otp = none ∧ s.dev.locked = false ∧ s.dev.policyBit
    Policy.otpProg = true ∧ (mode.val ≤ s.dev.get F.SEC_STATUS_debug_mode ∨ mode.val = 2)) ∧
  (∃ (s : State), ∃ o, s.Up ∧ s.dev.sec.otp = some o) ∧
  (∃ (d : Dev), ∃ (o : OtpRun), o.slot < 4 ∧ o.value < 256 ∧ o.op = 1 ∧ o.digest.length = 12) ∧
  (∃ (d : Dev), ∃ (o : OtpRun), o.slot < 4 ∧ o.value < 256 ∧ o.op = 2) ∧
  (∃ (d : Dev), ∃ (o : OtpRun), o.slot < 4 ∧ o.value < 256 ∧ o.op = 3 ∧ o.value ≤ 128 ∧ d.fuseNum floorFuse 16 < 2 ^ o.value) ∧
  (∃ (d : Dev), ∃ (o : OtpRun), o.slot < 4 ∧ o.value < 256 ∧ o.op = 3 ∧ o.value ≤ 128) ∧
  (∃ (d : Dev), ∃ (o : OtpRun), o.slot < 4 ∧ o.value < 256) ∧
  (∃ (d : Dev), ∃ (o : OtpRun), o.slot < 4 ∧ o.value < 256 ∧ o.op = 4) :=
  ⟨⟨full.onDev (fun d => { d with sec := { d.sec with policy := 0xFFFF } }), 0, by decide +kernel⟩,
   ⟨(full.onDev (fun d => { d with sec := { d.sec with policy := 0xFFFF } })).having [(F.SEC_STATUS_slots_prog, 3)], 0, by
     decide +kernel⟩,
   ⟨(full.onDev (fun d => { d with sec := { d.sec with policy := 0xFFFF } })).having [(F.IMG_SEC_VERSION, 5)], by decide +kernel⟩,
   ⟨full.onDev (fun d => { d with sec := { d.sec with policy := 0xFFFF } }), 3, by decide +kernel⟩,
   ⟨full.having [(F.IMG_STATUS_locked, 1)], 0, true, by decide +kernel⟩,
   ⟨full.onDev (fun d => { d with sec := { d.sec with policy := 0xFFFF } }), 0, false, by decide +kernel⟩,
   ⟨full.onDev (fun d => { d with sec := { d.sec with otp := some ⟨2, 0, 0, []⟩ } }), 0, 0, false, (.otpRevokeSlot 0 false, 2, 0,
     0), by decide +kernel⟩,
   ⟨full.having [(F.IMG_STATUS_locked, 1)], 0, 0, false, (.otpRevokeSlot 0 false, 2, 0, 0), by decide +kernel⟩,
   ⟨full.onDev (fun d => { d with sec := { d.sec with policy := 0xFFFF } }), 0, 0, false, (.otpRevokeSlot 0 false, 2, 0, 0), by
     decide +kernel⟩,
   ⟨(full.onDev (fun d => { d with sec := { d.sec with policy := 0xFFFF } })).having [(F.SEC_STATUS_slots_prog, 1)], 0, 0, by
     decide +kernel⟩,
   ⟨full.onDev (fun d => { d with sec := { d.sec with policy := 0xFFFF, fuses := [(0xF0, 1)] } }), 0, 0, by decide +kernel⟩,
   ⟨full.onDev (fun d => { d with sec := { d.sec with policy := 0xFFFF } }), 0, 0, by decide +kernel⟩,
   ⟨(full.onDev (fun d => { d with sec := { d.sec with policy := 0xFFFF } })).having [(F.SEC_STATUS_slots_prog, 7),
     (F.SEC_STATUS_slots_rev, 1)], 0, 0, by decide +kernel⟩,
   ⟨full.onDev (fun d => { d with sec := { d.sec with policy := 0xFFFF } }), 0, 0, by decide +kernel⟩,
   ⟨full.onDev (fun d => { d with sec := { d.sec with policy := 0xFFFF } }), 0, 2, by decide +kernel⟩,
   ⟨full.onDev (fun d => { d with sec := { d.sec with otp := some ⟨2, 0, 0, []⟩ } }), ⟨2, 0, 0, []⟩, by decide +kernel⟩,
   ⟨full.dev, ⟨1, 0, 0, List.replicate 12 7⟩, by decide +kernel⟩,
   ⟨full.dev, ⟨2, 1, 0, []⟩, by decide +kernel⟩,
   ⟨full.dev, ⟨3, 0, 5, []⟩, by decide +kernel⟩,
   ⟨full.dev, ⟨3, 0, 5, []⟩, by decide +kernel⟩,
   ⟨full.dev, ⟨4, 0, 3, []⟩, by decide +kernel⟩,
   ⟨full.dev, ⟨4, 0, 3, []⟩, by decide +kernel⟩⟩

/-- What meets the hypotheses of `AttestationAndTamper`, clause by clause. -/
theorem witness_AttestationAndTamper :
  (∃ (s : State), s.Reaches R.SEC_CTRL ∧ s.dev.flag F.TOP_READY_sec = true ∧ s.dev.policyBit Policy.attestEn = true ∧ s.dev.flag
    F.SEC_STATUS_zeroized = false ∧ s.dev.flag F.SEC_STATUS_att_busy = false) ∧
  (∃ (s : State), s.Reaches R.SEC_CTRL ∧ s.dev.flag F.SEC_STATUS_att_busy = true) ∧
  (∃ (s : State), s.Up ∧ s.dev.flag F.SEC_STATUS_att_busy = true) ∧
  (∃ (s : State), ∃ (source : Fin 7), s.Up ∧ hasBit s.dev.sec.tamperEn source = false) ∧
  (∃ (s : State), ∃ (d : Dev), d.get F.IMG_STATUS_state ≠ Img.prVerifying ∧ d.get F.IMG_STATUS_state ≠ Img.loading ∧ d.get
    F.IMG_STATUS_state ≠ Img.verifying) ∧
  (∃ (s : State), ∃ (source : Fin 7), s.Up ∧ hasBit s.dev.sec.tamperEn source = true) ∧
  (∃ (s : State), s.Up ∧ s.dev.servesDebug = true ∧ s.dev.sec.failed < 3) ∧
  (∃ (s : State), s.Up ∧ s.dev.servesDebug = false) ∧
  (∃ (s : State), ∃ (slot : Fin 256), ∃ (key signature : List Byte), s.Up ∧ s.dev.servesDebug = true ∧ s.dev.sec.failed < 3) :=
  ⟨⟨full.onDev (fun d => { d with sec := { d.sec with policy := 0xFFFF } }), by decide +kernel⟩,
   ⟨full.having [(F.SEC_STATUS_att_busy, 1)], by decide +kernel⟩,
   ⟨full.having [(F.SEC_STATUS_att_busy, 1)], by decide +kernel⟩,
   ⟨full.onDev (fun d => { d with sec := { d.sec with tamperEn := 0 } }), 2, by decide +kernel⟩,
   ⟨full, full.dev, by decide +kernel⟩,
   ⟨full.onDev (fun d => { d with sec := { d.sec with tamperEn := 0x7F } }), 2, by decide +kernel⟩,
   ⟨(full.onDev (fun d => { d with sec := { d.sec with policy := 0xFFFF } })).having [(F.SEC_STATUS_debug_mode, 1)], by
     decide +kernel⟩,
   ⟨full, by decide +kernel⟩,
   ⟨(full.onDev (fun d => { d with sec := { d.sec with policy := 0xFFFF } })).having [(F.SEC_STATUS_debug_mode, 1)], 0, [], [],
     by decide +kernel⟩⟩

/-- What meets the hypotheses of `DomainSwitching`, clause by clause. -/
theorem witness_DomainSwitching :
  (∃ (s : State), ∃ (k : Fin 9), s.Up ∧ s.dev.maySwitch k = true ∧ s.dev.wantsOff k = true ∧ s.dev.tableHeld k = false ∧
    s.dev.imageNeeds k = false) ∧
  (∃ (s : State), ∃ (k : Fin 9), s.Up ∧ s.dev.maySwitch k = true ∧ s.dev.wantsOff k = true ∧ s.dev.tableHeld k = false ∧
    s.dev.imageNeeds k = true) ∧
  (∃ (s : State), ∃ (k : Fin 9), s.Up ∧ s.dev.maySwitch k = true ∧ s.dev.wantsOff k = true ∧ s.dev.tableHeld k = true ∧
    s.dev.bitAt R.PWR_DOM_HOLD k = true) ∧
  (∃ (s : State), ∃ (k : Fin 9), s.Up ∧ s.dev.maySwitch k = true ∧ s.dev.wantsOff k = true ∧ s.dev.tableHeld k = true ∧
    s.dev.bitAt R.PWR_DOM_HOLD k = false) ∧
  (∃ (s : State), ∃ (k : Fin 9), s.Up ∧ s.dev.maySwitch k = true ∧ s.dev.wantsOff k = false) ∧
  (∃ (s : State), ∃ (k : Fin 9), ∃ (req : BitVec 9), s.Reaches R.PWR_DOM_OFF_REQ) ∧
  (∃ (s : State), ∃ (k : Fin 9), s.Up ∧ s.dev.domainOn k = false ∧ s.dev.domainEnabled k = true ∧ s.dev.domainChanging k = false
    ∧ hasBit (s.dev.get F.PWR_DOM_OFF_REQ) k = false ∧ s.dev.timeOnlyHolds k = false) ∧
  (∃ (s : State), ∃ (k : Fin 9), s.Up ∧ s.dev.domainChanging k = true) ∧
  (∃ (s : State), ∃ (k : Fin 9), s.Reaches R.PWR_DOM_OFF_REQ ∧ s.dev.get F.PWR_DOM_OFF_REQ = 0 ∧ s.dev.maySwitch k = true ∧
    s.dev.tableHeld k = false ∧ s.dev.imageNeeds k = false) ∧
  (∃ (s : State), ∃ (k : Fin 9), s.Reaches R.PWR_DOM_OFF_REQ ∧ s.dev.get F.PWR_DOM_OFF_REQ = 2 ^ k.val) :=
  ⟨⟨full.having [(F.PWR_DOM_OFF_REQ, 2)], 1, by decide +kernel⟩,
   ⟨full.having [(F.PWR_DOM_OFF_REQ, 8), (F.IMG_STATUS_state, Img.prVerifying)], 3, by decide +kernel⟩,
   ⟨(full.onDev (fun d => d.storeDword (flowAddr 0) (2 ^ 31))).having [(F.PWR_DOM_OFF_REQ, 2), (⟨R.PWR_DOM_HOLD, 1, 1⟩, 1)], 1,
     by decide +kernel⟩,
   ⟨(full.onDev (fun d => d.storeDword (flowAddr 0) (2 ^ 31))).having [(F.PWR_DOM_OFF_REQ, 2)], 1, by decide +kernel⟩,
   ⟨full.having [(⟨R.PWR_LAT_TOL_GRP 0, 0, 32⟩, 0)], 1, by decide +kernel⟩,
   ⟨full, 1, 2, by decide +kernel⟩,
   ⟨full.having [(F.PWR_DOM_STATUS_on, 0)], 1, by decide +kernel⟩,
   ⟨full.having [(F.PWR_DOM_STATUS_changing, 2)], 1, by decide +kernel⟩,
   ⟨full, 1, by decide +kernel⟩,
   ⟨full.having [(F.PWR_DOM_OFF_REQ, 2)], 1, by decide +kernel⟩⟩

/-- What meets the hypotheses of `GatingAndTimeOnly`, clause by clause. -/
theorem witness_GatingAndTimeOnly :
  (∃ (s : State), ∃ (i : Fin 99), ∃ (w : Word), ∃ a, s.Reaches (toleranceReg i) ∧ a ≠ toleranceReg i) ∧
  (∃ (s : State), ∃ (i : Fin 99), ∃ (w : Word), s.Reaches (toleranceReg i)) ∧
  (∃ (s : State), ∃ (k : Fin 8), ∃ (e : Fin 12), s.Up ∧ s.dev.regionPresent k = true ∧ s.dev.blockPresent 16 = true ∧
    s.dev.domainOn 0 = true ∧ e.val ≠ s.dev.expressEngine k ∧ s.dev.engQueue k e = [] ∧ 16 ≤ s.dev.clusterTol k) ∧
  (∃ (s : State), ∃ (k : Fin 8), s.Up ∧ s.dev.regionPresent k = true ∧ s.dev.blockPresent 16 = true ∧ s.dev.domainOn 0 = true ∧
    (∀ e < 12, s.dev.engQueue k e = []) ∧ (∀ p ∈ clusterPorts k, s.dev.headerFifo p = []) ∧ 40 ≤ s.dev.clusterTol k) ∧
  (∃ (s : State), ∃ (r : Fin 2), s.Up ∧ s.dev.blockPresent 13 = true ∧ (∀ i < 8, s.dev.flag (F.RLK_CFG_enable (8 * r + i)) =
    false) ∧ 20000 ≤ (s.dev.word (R.PWR_LAT_TOL_ROPE r)).toNat) ∧
  (∃ (s : State), s.Reaches R.PWR_CTRL ∧ s.dev.get F.PWR_STATE_mode = 0 ∧ s.dev.timeOnlyRefusal = none) ∧
  (∃ (s : State), ∃ r, ∃ k, s.Reaches R.PWR_CTRL ∧ s.dev.get F.PWR_STATE_mode = 0 ∧ s.dev.timeOnlyRefusal = some (r, k)) ∧
  (∃ (s : State), s.Up ∧ s.dev.get F.PWR_STATE_mode = 1) ∧
  (∃ (s : State), s.Reaches R.PWR_CTRL ∧ s.dev.get F.PWR_STATE_mode = 2) ∧
  (∃ (s : State), s.Up ∧ s.dev.get F.PWR_STATE_mode = 3) :=
  ⟨⟨full, 0, 5, 0, by decide +kernel⟩,
   ⟨full, 0, 5, by decide +kernel⟩,
   ⟨full, 0, ⟨(full.dev.expressEngine 0 + 1) % 12, by decide +kernel⟩, by decide +kernel⟩,
   ⟨full, 0, by decide +kernel⟩,
   ⟨full, 0, by decide +kernel⟩,
   ⟨full, by decide +kernel⟩,
   ⟨activeMember, 2, 0, by decide +kernel⟩,
   ⟨full.having [(F.PWR_STATE_mode, 1)], by decide +kernel⟩,
   ⟨full.having [(F.PWR_STATE_mode, 2)], by decide +kernel⟩,
   ⟨full.having [(F.PWR_STATE_mode, 3)], by decide +kernel⟩⟩

/-- What meets the hypotheses of `CountersAndHarvest`, clause by clause. -/
theorem witness_CountersAndHarvest :
  (∃ (s : State), ∃ (i : Fin 8736), ∃ (v : BitVec 64), s.Up ∧ s.dev.raised = [] ∧ s.dev.busy = false ∧ s.dev.blockPresent 19 =
    true ∧ s.dev.ctrPresent i = true ∧ s.dev.domainOn 10 = true ∧ s.dev.domainOn (ctrDomain i) = true) ∧
  (∃ (s : State), ∃ (i : Fin 8736), ∃ (w : Word), s.Up ∧ s.dev.raised = [] ∧ s.dev.busy = false ∧ s.dev.blockPresent 19 = true ∧
    s.dev.ctrPresent i = true ∧ s.dev.domainOn 10 = true ∧ w &&& ~~~0x80FF010F = 0) ∧
  (∃ (s : State), ∃ (b : Bool), s.Reaches R.CNT_CTRL) ∧
  (∃ (s : State), s.Up ∧ s.dev.flag F.TOP_READY_cnt = true ∧ (s.dev.snapDue = true ∨ s.dev.flag F.CNT_CTRL_now = true)) ∧
  (∃ (s : State), s.Up ∧ s.dev.snapDue = false ∧ s.dev.flag F.CNT_CTRL_now = false) ∧
  (∃ (s : State), ∃ a, s.Reaches R.CNT_CTRL ∧ s.dev.flag F.TOP_READY_cnt = true ∧ a ≠ R.CNT_CTRL ∧ a ≠ R.CNT_HARV_STATUS) ∧
  (∃ (s : State), s.Reaches R.CNT_CTRL ∧ s.dev.flag F.TOP_READY_cnt = true) ∧
  (∃ (s : State), ∃ (x : Record), s.Up ∧ s.dev.obs.record = some x) ∧
  (∃ (d : Dev), ∃ (manual : Bool), ∃ r, let e := { d with obs := { d.obs with seqNo := (d.obs.seqNo + 1) % 2 ^ 32 } }; r < 16 ∧ e.skipReason = some r) ∧
  (∃ (d : Dev), ∃ (manual : Bool), let e := { d with obs := { d.obs with seqNo := (d.obs.seqNo + 1) % 2 ^ 32 } }; e.skipReason = none) :=
  ⟨⟨full, 4100, 7, by decide +kernel⟩,
   ⟨full, 4100, 1, by decide +kernel⟩,
   ⟨full, true, by decide +kernel⟩,
   ⟨full.having [(F.TOP_READY_cnt, 1), (F.CNT_CTRL_now, 1)], ⟨by decide +kernel, by decide +kernel, Or.inr (by decide +kernel)⟩⟩,
   ⟨full, by decide +kernel⟩,
   ⟨full, 0, by decide +kernel⟩,
   ⟨full, by decide +kernel⟩,
   ⟨full.onDev (fun d => { d with obs := { d.obs with record := some ⟨0, []⟩ } }), ⟨0, []⟩, by decide +kernel⟩,
   ⟨(full.onDev (fun d => { d with obs := { d.obs with record := some ⟨0, []⟩ } })).dev, true, 2, by decide +kernel⟩,
   ⟨((full.having [(F.CNT_HARV_SLOTS, 4), (F.TOP_READY_hif, 1)]).onDev (fun d =>
     { d with host := { d.host with busMaster := true } })).dev, true, by decide +kernel⟩⟩

/-- What meets the hypotheses of `CaptureAndTest`, clause by clause. -/
theorem witness_CaptureAndTest :
  (∃ (s : State), ∃ c, ∃ rest, s.Up ∧ s.dev.obs.fifo = c :: rest) ∧
  (∃ (s : State), s.Reaches R.CRG_CTRL ∧ s.dev.capturing = false ∧ s.dev.get F.CRG_CTRL_mode ≠ 0) ∧
  (∃ (s : State), ∃ (mode : Fin 4), ∃ (dest : Bool), s.Reaches R.CRG_CTRL ∧ mode.val = 0) ∧
  (∃ (s : State), ∃ (mode : Fin 4), ∃ (dest : Bool), s.Reaches R.CRG_CTRL ∧ mode.val ≠ 0 ∧ s.dev.capturing = false) ∧
  (∃ (s : State), ∃ (mode : Fin 4), ∃ (dest : Bool), s.Reaches R.CRG_CTRL ∧ mode.val ≠ 0 ∧ s.dev.capturing = true ∧ mode.val ≠
    s.dev.get F.CRG_CTRL_mode) ∧
  (∃ (s : State), s.Up ∧ s.dev.mayTrigger 3 = true ∧ s.dev.get F.CRG_TRIG_TIME_SEC * 1000000000 + s.dev.get F.CRG_TRIG_TIME_NS ≤
    s.dev.nowNs) ∧
  (∃ (s : State), s.Reaches R.CRG_CTRL ∧ s.dev.mayTrigger 2 = true) ∧
  (∃ (s : State), ∃ x, s.Reaches R.TST_CTRL ∧ x ∈ [(Instr.bufferSweep, 1), (.engineBist, 2), (.tdcSelfTest, 3), (.eyeScan, 4),
    (.ringBist, 5), (.tableBist, 6)] ∧ s.dev.obs.testing = none ∧ s.dev.testAbsent x.2 = false ∧ s.dev.testReady x.2 = true) ∧
  (∃ (s : State), ∃ x, s.Reaches R.TST_CTRL ∧ x ∈ [(Instr.bufferSweep, 1), (.engineBist, 2), (.tdcSelfTest, 3), (.eyeScan, 4),
    (.ringBist, 5), (.tableBist, 6)] ∧ s.dev.obs.testing.isSome = true) ∧
  (∃ (s : State), ∃ x, s.Reaches R.TST_CTRL ∧ x ∈ [(Instr.bufferSweep, 1), (.engineBist, 2), (.tdcSelfTest, 3), (.eyeScan, 4),
    (.ringBist, 5), (.tableBist, 6)] ∧ s.dev.obs.testing = none ∧ s.dev.testAbsent x.2 = true) ∧
  (∃ (s : State), s.Reaches R.TST_CTRL ∧ s.dev.obs.testing.isSome = true) ∧
  (∃ (s : State), s.Up ∧ s.dev.obs.testing = some 4) ∧
  (∃ (s : State), ∃ r0, s.Up ∧ s.dev.obs.testing = some 5 ∧ r0 ≠ 0) ∧
  (∃ (s : State), ∃ (failed : List (BitVec 21)), ∃ (r0 r1 : Word), ∃ (op : Nat), s.Up ∧ s.dev.obs.testing = some op) :=
  ⟨⟨full.onDev (fun d => { d with obs := { d.obs with fifo := [⟨[], false⟩] } }), ⟨[], false⟩, [], by decide +kernel⟩,
   ⟨full.having [(F.CRG_CTRL_mode, 1)], by decide +kernel⟩,
   ⟨full, 0, true, by decide +kernel⟩,
   ⟨full, 1, true, by decide +kernel⟩,
   ⟨full.having [(F.CRG_CTRL_mode, 1), (F.CRG_STATUS_state, 1)], 2, true, by decide +kernel⟩,
   ⟨full.having [(F.CRG_CTRL_mode, 3), (F.CRG_STATUS_state, 1), (F.CRG_TRIG_src, 8)], by decide +kernel⟩,
   ⟨full.having [(F.CRG_CTRL_mode, 3), (F.CRG_STATUS_state, 1), (F.CRG_TRIG_src, 0xF)], by decide +kernel⟩,
   ⟨full, (.ringBist, 5), by decide +kernel⟩,
   ⟨full.onDev (fun d => { d with obs := { d.obs with testing := some 5 } }), (.bufferSweep, 1), by decide +kernel⟩,
   ⟨full.having [(F.TST_TARGET_unit, 100)], (.tdcSelfTest, 3), by decide +kernel⟩,
   ⟨full.onDev (fun d => { d with obs := { d.obs with testing := some 5 } }), by decide +kernel⟩,
   ⟨full.onDev (fun d => { d with obs := { d.obs with testing := some 4 } }), by decide +kernel⟩,
   ⟨full.onDev (fun d => { d with obs := { d.obs with testing := some 5 } }), 1, by decide +kernel⟩,
   ⟨full.onDev (fun d => { d with obs := { d.obs with testing := some 1 } }), [], 0, 0, 1, by decide +kernel⟩⟩

/-- What meets the hypotheses of `FaultCommands`, clause by clause. -/
theorem witness_FaultCommands :
  (∃ (s : State), s.Reaches R.FLT_LOG_POP) ∧
  (∃ (s : State), ∃ (sub : Fin 8), ∃ (w : Window), ∃ k, s.Up ∧ Sparse.get? s.flt.windows sub.val = some w ∧ w.await = .nothing ∧
    k ≠ sub.val) ∧
  (∃ (s : State), ∃ (sub : Fin 8), ∃ (w : Window), s.Up ∧ Sparse.get? s.flt.windows sub.val = some w ∧ w.await = .nothing) ∧
  (∃ (s : State), s.Reaches R.FLT_CTRL ∧ s.dev.halted = true) ∧
  (∃ (s : State), s.Reaches R.FLT_CTRL ∧ s.dev.halted = false) ∧
  (∃ (s : State), ∃ (sub : Fin 8), s.Up ∧ (∀ w, Sparse.get? s.flt.windows sub.val = some w → w.await ≠ .nothing)) ∧
  (∃ (s : State), s.Reaches R.FLT_CTRL) ∧
  (∃ (s : State), ∃ (e : Fin 512), ∃ (r : Fin 8), s.Reaches (R.FLT_REACT e) ∧ (registerAt (R.FLT_REACT e)).isSome = true ∧ (r.val
    ≠ 1 ∨ blockResettable (eventPage e) = true)) ∧
  (∃ (s : State), ∃ (e : Fin 512), ∃ (r : Fin 8), s.Reaches (R.FLT_REACT e) ∧ (registerAt (R.FLT_REACT e)).isSome = true ∧ r.val
    = 1 ∧ blockResettable (eventPage e) = false) :=
  ⟨⟨full, by decide +kernel⟩,
   ⟨{ full with flt := { full.flt with windows := [(3, ⟨1, .nothing⟩)] } }, 3, ⟨1, .nothing⟩, 0, by decide +kernel⟩,
   ⟨{ full with flt := { full.flt with windows := [(3, ⟨1, .nothing⟩)] } }, 3, ⟨1, .nothing⟩, by decide +kernel⟩,
   ⟨full.having [(F.FLT_STATUS_halted, 1)], by decide +kernel⟩,
   ⟨full, by decide +kernel⟩,
   ⟨full, 3, ⟨by decide +kernel, fun w h =>
     (by revert h; rw [show Sparse.get? _ _ = none from by decide +kernel]; intro h; cases h)⟩⟩,
   ⟨full, by decide +kernel⟩,
   ⟨full, ⟨E.FWD_ENGINE_HANG, by decide⟩, 1, by decide +kernel⟩,
   ⟨full, ⟨E.TOP_THERM_WARN, by decide⟩, 1, by decide +kernel⟩⟩

/-- What meets the hypotheses of `EventsEnter`, clause by clause. -/
theorem witness_EventsEnter :
  (∃ (s : State), ∃ (e : Ev), eventClass e.code < 4 ∧ s.flt.log.any (LogEntry.names e) = false ∧ s.flt.log.length < 64) ∧
  (∃ (s : State), ∃ (e : Ev), eventClass e.code < 4 ∧ s.flt.log.any (LogEntry.names e) = false ∧ s.flt.log.length = 64) ∧
  (∃ (s : State), ∃ (e : Ev), eventClass e.code < 4 ∧ s.flt.log.any (LogEntry.names e) = false) ∧
  (∃ (s : State), ∃ (e : Ev), ∃ a, eventClass e.code < 4 ∧ s.flt.log.any (LogEntry.names e) = true ∧ a ∉ [(F.FLT_CNT (eventClass
    e.code)).addr, R.FLT_PEND, R.FLT_LOG_0, R.FLT_LOG_1, R.FLT_LOG_2, R.FLT_LOG_3, R.FLT_LOG_COUNT, R.FLT_STATUS]) ∧
  (∃ (s : State), ∃ (e : Ev), eventClass e.code < 4 ∧ s.flt.log.any (LogEntry.names e) = true) :=
  ⟨⟨full, ⟨E.TOP_THERM_WARN, 0⟩, by decide +kernel⟩,
   ⟨{ full with flt := { full.flt with log := List.replicate 64 (full.dev.entryOf ⟨E.FWD_ENGINE_HANG, 1⟩) } }, ⟨E.TOP_THERM_WARN,
     0⟩, by decide +kernel⟩,
   ⟨full, ⟨E.TOP_THERM_WARN, 0⟩, by decide +kernel⟩,
   ⟨{ full with flt := { full.flt with log := [full.dev.entryOf ⟨E.TOP_THERM_WARN, 0⟩] } }, ⟨E.TOP_THERM_WARN, 0⟩, 0, by
     decide +kernel⟩,
   ⟨{ full with flt := { full.flt with log := [full.dev.entryOf ⟨E.TOP_THERM_WARN, 0⟩] } }, ⟨E.TOP_THERM_WARN, 0⟩, by
     decide +kernel⟩⟩

/-- What meets the hypotheses of `LogKept`, clause by clause. -/
theorem witness_LogKept :
  (∃ (s t : State), s.flt.Kept ∧ step s = .next t) :=
  ⟨State.reset, _, ⟨⟨by decide, by decide, by decide⟩, rfl⟩⟩

end Sys2Proof.Tests
end

