-- ==== Sys2Proof/WellFormed.lean ====
section
/-! DEFINITION. Well-formed commands: the shapes the spec's interfaces give their operands. A command's meaning does not depend on
it; it says which operands a real sender can produce. -/

namespace Sys2Proof

/-- The first instant, in 1/65,536 ns, beyond the time base's 2^48 seconds (R267). -/
abbrev timeEnd : Nat := 2 ^ 48 * 1000000000 * 65536

/-- A segment carries bytes. -/
def Seg.wellFormed (s : Seg) : Bool := s.bytes != []

/-- A descriptor's fields fit their places: a 64-bit address, a 16-bit length, 16 flag bits, a 32-bit word (R114). -/
def Desc.wellFormed (d : Desc) : Bool :=
  decide (d.addr < 2 ^ 64) && decide (d.len < 2 ^ 16) && decide (d.flags < 2 ^ 16) && decide (d.word < 2 ^ 32)

/-- An upset hits a register word of the CSR window (R106). -/
def Upset.wellFormed (u : Upset) : Bool := decide (u.addr < 2 ^ 28) && decide (u.addr % 4 = 0)

/-- An ECC error lies in the CSR window or in a place of its memory (R499). -/
def MemErr.wellFormed (e : MemErr) : Bool := decide (e.addr < 2 ^ 28)

/-- A trim run measures 36 cells, 30 steps and 256 pairs (R284). -/
def Trim.wellFormed (t : Trim) : Bool := t.cells.length == 36 && t.steps.length == 30 && t.pairs.length == 256

/-- A host read names whole dwords; a request of BAR0 asks for at least one (R87). -/
def HostRead.wellFormed : HostRead → Bool
  | .bar0 a n => decide (a.toNat % 4 = 0) && n != 0
  | .bar2 a => decide (a.toNat % 4 = 0)
  | _ => true

/-- The operands of a command are such as its sender can produce. -/
def Instr.wellFormed (i : Instr) : Bool :=
  match i with
  | .powerOnReset _ _ => true
  | .coldReset => true
  | .warmReset => true
  | .warmResetDone => true
  | .watchdogReset => true
  | .watchdogArm _ => true
  | .watchdogKick => true
  | .blockReset _ => true
  | .blockResetDone _ => true
  | .portReset _ _ => true
  | .hostReset _ => true
  | .perstNRelease => true
  | .pcieDlUp => true
  | .pcieDlDown => true
  | .thermWarn => true
  | .thermCrit => true
  | .imgSlotReadDone image => decide (image.length ≤ 0x400000)
  | .flashTimeout => true
  | .stagingWindowWrite _ _ _ => true
  | .startFull => true
  | .pendingWindowWrite _ _ _ => true
  | .prStart _ _ _ => true
  | .prVerifyDone => true
  | .prDrainTimeout => true
  | .prQuiesced => true
  | .imgLock => true
  | .registerWrite addr be data => decide (addr.toNat % 4 = 0) && (data.length == 1 || (decide (1 < data.length) && be == 0xF))
  | .rcRead what => what.wellFormed
  | .pairLowerRead addr both => decide (addr.toNat % (if both then 8 else 4) = 0)
  | .tableEntryWrite addr data => decide (addr.toNat % 4 = 0) && data != []
  | .bitAliasWrite offset _ _ => decide (offset.toNat % 4 = 0)
  | .shadowWrite addr _ => decide (addr.toNat % 4 = 0)
  | .ugStrobe _ => true
  | .armSlotArm _ _ => true
  | .armSlotFire _ => true
  | .scrubPass upsets => upsets.all Upset.wellFormed
  | .vectorEoi _ => true
  | .vectorUnmask _ _ => true
  | .aerError _ _ => true
  | .completionTimeout _ => true
  | .txRingTail _ _ descs => descs.all Desc.wellFormed
  | .cpuFrameFetched _ seg => Seg.wellFormed seg
  | .signalDetect _ => true
  | .cdrLock _ => true
  | .cdrLoss _ _ => true
  | .alignLock _ slip deskew fecPos => decide (slip < 80) && decide (deskew < 4096) && decide (fecPos < 5440)
  | .alignLoss _ => true
  | .anComplete _ techs _ fecReq => decide (fecReq < 3) && techs.all (fun t => decide (t.speed < 6))
  | .anBreakLinkTimeout _ => true
  | .trainingTimeout _ => true
  | .linkUp _ => true
  | .linkDown _ => true
  | .portEnable _ _ => true
  | .l1Entry _ => true
  | .l1Exit _ => true
  | .l2Entry _ => true
  | .l2Exit _ => true
  | .phaseValid _ => true
  | .prbsInject _ => true
  | .prbsLock _ => true
  | .prbsLockLoss _ _ => true
  | .frameReceive _ _ seg => Seg.wellFormed seg
  | .rlkRestart _ => true
  | .ropeSignalLoss _ => true
  | .ropeFrameReceive _ frame => decide (7 ≤ frame.groups.length) && decide (frame.groups.length ≤ 2048)
  | .hyperframeReceive _ _ => true
  | .hyperframeTransmit _ run => decide (0 < run.frames) && decide (run.frames ≤ 240)
  | .mgtSendWrite _ _ => true
  | .mgtPop _ => true
  | .confirmTimeout _ => true
  | .fallbackTimeout _ => true
  | .stepTimeout _ => true
  | .downHoldExpiry _ => true
  | .runLockTimeout _ => true
  | .offsetMeasure _ _ _ => true
  | .bufferFreeze _ => true
  | .tunnelFrameReceive _ _ _ => true
  | .headerDispatch _ => true
  | .engineLookup _ _ errors => errors.all MemErr.wellFormed
  | .bypassFrameEnqueue _ => true
  | .steal _ _ => true
  | .activityHalving => true
  | .stealRecall _ => true
  | .bucketMove _ _ => true
  | .engineRetire _ _ => true
  | .retireDone _ _ => true
  | .engineUnretire _ _ => true
  | .engineHang _ _ => true
  | .copyAdmit => true
  | .multicastCopyCreate => true
  | .chainAlloc _ => true
  | .cacheRefill _ _ => true
  | .cacheDrain _ _ => true
  | .bufferFree _ _ => true
  | .hostFree _ _ => true
  | .copyTransmit _ _ _ => true
  | .copyTransmitDone copy => copy.descs.all Desc.wellFormed
  | .queueFlush _ _ => true
  | .gateEntry _ _ => true
  | .gclSwitch _ => true
  | .preemptVerify _ _ => true
  | .timedLaunch _ _ => true
  | .streamKeeperVisit => true
  | .tbsSnap => true
  | .tbsSet => true
  | .tbsAdd => true
  | .tbsSlew => true
  | .slewDone => true
  | .ageingUpdate _ => true
  | .tdcMeasure _ _ => true
  | .tdcCalPair _ _ _ => true
  | .tdcPeriodicMeasure _ _ => true
  | .tdcTrimRequest _ _ => true
  | .tdcTrimRun _ trim => trim.wellFormed
  | .txStampPop => true
  | .phxSample _ _ => true
  | .phxReportSend _ _ bits => decide (bits < 80)
  | .phxReportReceive _ _ _ => true
  | .phxStaleTimeout _ => true
  | .phxCalStart _ _ _ => true
  | .phxCalEnd => true
  | .refTick _ _ => true
  | .slotWaitExpiry _ => true
  | .slotDisqExpiry _ => true
  | .freqWindow _ _ => true
  | .autoService => true
  | .ptpPost => true
  | .ptpPostTimeout => true
  | .refPhaseWrite _ => true
  | .refForce _ => true
  | .dpllLocked _ => true
  | .secondEntry _ => true
  | .holdoverUpdate _ => true
  | .tempStale => true
  | .learnMinute => true
  | .modelRefit => true
  | .learnClear => true
  | .rootLockLoss => true
  | .rootRelockTimer => true
  | .rootLockAttemptEnd _ => true
  | .synRelock => true
  | .synRetarget => true
  | .sscAuxWrite _ => true
  | .sscCoreWrite _ => true
  | .outPark _ => true
  | .outDelayWrite _ _ => true
  | .ppsEdge _ => true
  | .ppsAlignLost _ => true
  | .dllUnlock _ => true
  | .heartbeatSend => true
  | .heartbeatReceive _ _ => true
  | .mateLost => true
  | .heartbeatMissRelease => true
  | .yieldReceive _ _ => true
  | .mirrorReceive _ _ => true
  | .dpllStateSend => true
  | .dpllStateReceive _ _ => true
  | .resyncDoneReceive _ _ => true
  | .ilkClaim => true
  | .guardExpiry => true
  | .holdoffExpiry => true
  | .switchover => true
  | .switchoverYield => true
  | .clearFault => true
  | .announceSend => true
  | .announceReceive frame => decide (frame.length ≤ 9728)
  | .mirrorSend => true
  | .resyncWalk => true
  | .resyncWalkEnd => true
  | .otpProgramSlot _ _ => true
  | .otpRevokeSlot _ _ => true
  | .otpRaiseFloor _ => true
  | .otpRaiseDebug _ _ => true
  | .otpOpDone _ => true
  | .attestationRequest => true
  | .attestationDone => true
  | .bypass _ => true
  | .idcode => true
  | .samplePreload _ _ => true
  | .extest _ => true
  | .extestPulse _ => true
  | .extestTrain _ => true
  | .dbgChal => true
  | .dbgResp _ key signature => key.length == 97 && signature.length == 96
  | .tamperTrip _ => true
  | .domainOff _ => true
  | .domainWake _ => true
  | .domainPowerGood _ => true
  | .domainPowerFail _ => true
  | .domainOffReq _ => true
  | .latencyToleranceWrite _ _ => true
  | .engineGate _ _ => true
  | .ropeQuadGate _ => true
  | .timeOnlyEntry => true
  | .timeOnlyExit => true
  | .timeOnlyExitDone => true
  | .counterValueWrite _ _ => true
  | .counterConfigWrite _ _ => true
  | .counterFreeze _ => true
  | .harvestSnapshot => true
  | .harvestNow => true
  | .harvestRecordDone _ => true
  | .cairnEntryWrite => true
  | .crgArm => true
  | .crgModeWrite _ _ => true
  | .crgHostTrigger => true
  | .crgTimeTrigger => true
  | .bufferSweep => true
  | .engineBist => true
  | .tdcSelfTest => true
  | .eyeScan => true
  | .ringBist => true
  | .tableBist => true
  | .tstAbort => true
  | .tstDone _ _ _ => true
  | .logPop => true
  | .windowClose _ => true
  | .fltRelease => true
  | .endCoast => true
  | .fltReactWrite _ _ => true
  | .powerDown => true
  | .resetnRelease _ _ => true
  | .portResetDone _ => true
  | .ilkNChange _ => true
  | .dllRelock _ => true
  | .timeOnlyEntryDone => true
  | .controlRampEnd => true
  | .linkTrainingDone _ => true

end Sys2Proof
end

