-- ==== Sys2Proof/Tests/Slice0.lean ====
section
/-! SUPPORT. Tests: an ill-formed operand for each check of WellFormed, and the spec's own worked numbers. -/

open Sys2Proof Sys2Proof.Machine

namespace Sys2Proof.Tests

/-! ### Ill-formed operands are refused -/

theorem test_wf_image_too_long (l : List Byte) (h : l.length = 0x400001) : (Instr.imgSlotReadDone l).wellFormed = false := by
  simp [Instr.wellFormed, h]
theorem test_wf_write_unaligned : (Instr.registerWrite 2 0xF [0]).wellFormed = false := by decide
theorem test_wf_write_no_dword : (Instr.registerWrite 4 0xF []).wellFormed = false := by decide
theorem test_wf_write_narrow_burst : (Instr.registerWrite 4 3 [0, 0]).wellFormed = false := by decide
theorem test_wf_read_unaligned : (Instr.rcRead (.bar0 1 1)).wellFormed = false := by decide
theorem test_wf_read_nothing : (Instr.rcRead (.bar0 4 0)).wellFormed = false := by decide
theorem test_wf_read_table_unaligned : (Instr.rcRead (.bar2 2)).wellFormed = false := by decide
theorem test_wf_pair_unaligned : (Instr.pairLowerRead 2 false).wellFormed = false := by decide
theorem test_wf_pair_both_unaligned : (Instr.pairLowerRead 4 true).wellFormed = false := by decide
theorem test_wf_entry_empty : (Instr.tableEntryWrite 0x1000000 []).wellFormed = false := by decide
theorem test_wf_entry_unaligned : (Instr.tableEntryWrite 0x1000001 [0]).wellFormed = false := by decide
theorem test_wf_alias_unaligned : (Instr.bitAliasWrite 2 0xF 0).wellFormed = false := by decide
theorem test_wf_shadow_unaligned : (Instr.shadowWrite 2 0).wellFormed = false := by decide
theorem test_wf_upset_outside : (Instr.scrubPass [⟨0x10000000, false, 0⟩]).wellFormed = false := by decide
theorem test_wf_upset_unaligned : (Instr.scrubPass [⟨2, false, 0⟩]).wellFormed = false := by decide
theorem test_wf_desc_long : (Instr.txRingTail 0 0 [{ len := 0x10000 }]).wellFormed = false := by decide
theorem test_wf_segment_empty : (Instr.frameReceive 0 none ⟨[], true, false, false⟩).wellFormed = false := by decide
theorem test_wf_cpu_segment_empty : (Instr.cpuFrameFetched 0 ⟨[], true, false, false⟩).wellFormed = false := by decide
theorem test_wf_align_slip : (Instr.alignLock 0 80 0 0).wellFormed = false := by decide
theorem test_wf_align_deskew : (Instr.alignLock 0 0 4096 0).wellFormed = false := by decide
theorem test_wf_align_place : (Instr.alignLock 0 0 0 5440).wellFormed = false := by decide
theorem test_wf_fec_request : (Instr.anComplete 0 [] true 3).wellFormed = false := by decide
theorem test_wf_technology : (Instr.anComplete 0 [⟨6, 1, true⟩] true 0).wellFormed = false := by decide
theorem test_wf_rope_frame_short : (Instr.ropeFrameReceive 0 ⟨[], 0, 0⟩).wellFormed = false := by decide
theorem test_wf_no_frames : (Instr.hyperframeTransmit 0 ⟨0, 0⟩).wellFormed = false := by decide +kernel
theorem test_wf_descriptor_long : (Instr.copyTransmitDone ⟨64, [{ len := 0x10000 }]⟩).wellFormed = false := by decide
theorem test_wf_trim_short : (Instr.tdcTrimRun 0 ⟨[], [], []⟩).wellFormed = false := by decide
theorem test_wf_memory_error : (Instr.engineLookup 0 0 [⟨0, 0x10000000, false⟩]).wellFormed = false := by decide
theorem test_wf_announce_long (l : List Byte) (h : l.length = 9729) : (Instr.announceReceive l).wellFormed = false := by
  simp [Instr.wellFormed, h]
theorem test_wf_key_short : (Instr.dbgResp 0 [] []).wellFormed = false := by decide
theorem test_wf_good : (Instr.registerWrite 4 0xF [0, 1]).wellFormed = true := by decide

/-! ### One step -/

/-- The state a command leaves. -/
def after (c : Instr) (s : State) : State := match exec c s with | .next t => t | _ => s

/-- No word spells a command: the table gives its rows no bits. -/
theorem test_no_bits : decodeTableWord 32 0 = none := rfl

/-- A command waits at the front of the queue and is taken. -/
theorem test_step_takes : (match step { State.reset with pending := [.thermWarn] } with
    | .next t => t.pending == []
    | _ => false) = true := by decide +kernel

/-- Register access, the alias example: a write of 1 to 0x0840_008C clears HIF_ACC_ERR.locked and no other flag. -/
theorem test_alias_clears_one :
    ((after (.bitAliasWrite 0x0040008C 0xF 1) (full.having [(⟨R.HIF_ACC_ERR, 0, 8⟩, 0x0B)])).dev.word R.HIF_ACC_ERR) = 0x03 := by
  decide +kernel

/-- Table HIF-3, R87: a write with byte enables other than 0xF is discarded and flagged. -/
theorem test_narrow_write :
    let s := after (.registerWrite (BitVec.ofNat 28 R.PWR_ALLOW_TABLE_LOSS) 1 [1]) full
    s.dev.flag F.HIF_ACC_ERR_narrow = true ∧ s.dev.word R.PWR_ALLOW_TABLE_LOSS = full.dev.word R.PWR_ALLOW_TABLE_LOSS := by
  decide +kernel

/-- Phase transfer over fibre, the example, step 1: an RTT of 195,862 ns without asymmetry gives 97,931 ns. -/
theorem test_phx_delay :
    (full.having [(⟨R.PHX_RTT_LO 16, 0, 32⟩, 0xFD160000), (⟨R.PHX_RTT_HI 16, 0, 32⟩, 2)]).dev.phxDelay 16 = 0x17E8B0000 := by
  decide +kernel

/-- The same, step 5: with α = 173,592 ppb it gives 97,948 ns, to the nanosecond the example states. -/
theorem test_phx_delay_asym :
    (((full.having [(⟨R.PHX_RTT_LO 16, 0, 32⟩, 0xFD160000), (⟨R.PHX_RTT_HI 16, 0, 32⟩, 2)]).dev.setPhx 16 { alpha := 173592 }).phxDelay 16) /
      65536 = 97948 := by decide +kernel

/-- The same, step 4: 64 samples of +17 ns end a calibration with 0x0011_0000 and 0x0002_A618. -/
theorem test_phx_cal :
    let s := after .phxCalEnd ((full.onDev (fun d => { d with phxCal := { sum := 64 * 17 * 65536, lo := 17 * 65536, hi := 17 * 65536, link := 16 } })).having
      [(⟨R.PHX_RTT_LO 16, 0, 32⟩, 0xFD160000), (⟨R.PHX_RTT_HI 16, 0, 32⟩, 2), (F.PHX_STATUS_state 16, 4),
        (F.PHX_CAL_STATUS_state, 1), (F.PHX_CAL_STATUS_samples, 64), (F.PHX_CAL_LEN, 64)])
    s.dev.get F.PHX_CAL_RESULT = 0x2A618 ∧ s.dev.word R.PHX_CAL_ERR_LO = 0x00110000 ∧ s.dev.word R.PHX_CAL_STATUS = 0x00400002 := by
  decide +kernel

/-- The same, step 3: TDC_RES_HI_88 for 999,999,988 ns of second 0. -/
theorem test_tdc_result :
    ((full.dev.tdcResult 88 (999999988 * 65536)).word (R.TDC_RES_HI 88)).toNat % 2 ^ 31 = 0xBB9AC9F4 % 2 ^ 31 := by decide +kernel

/-- Port 5 on lane 5. -/
def five : State := full.having [(F.HSL_CFG_used 5, 1), (F.HSL_CFG_port 5, 5)]

/-- Counters, the example, step 3: counter 240 wraps, its word reads 0x8000_0105. -/
theorem test_counter_wraps :
    let d := (five.dev.setCtr 240 { value := 0xFFFFFFF000 }).count 240 4096
    d.ctrWord 240 = 0x80000105 ∧ (d.ctr 240).value = 0 ∧ d.get F.CNT_OVF_LAST = 0xF0 ∧ d.word R.CNT_EVENT = 4 := by decide +kernel

/-- The same, step 4: counter 241 in level mode reads 0x8001_000F, its value cleared. -/
theorem test_counter_config :
    let s := after (.counterConfigWrite 241 7) (five.onDev (Dev.setCtr 241 { value := 5 }))
    s.dev.ctrWord 241 = 0x8001000F ∧ (s.dev.ctr 241).value = 0 := by decide +kernel

/-- Queues, the example, step 2: the due time 200,035,714.3125 ns as dwords 4 and 5 and the top of dword 6 of flow 100. -/
theorem test_keeper_due :
    let d := full.dev.setSkDue 100 ((1700000000 * 1000000000 + 200000000) * 16 + 0x0008B825)
    d.flowWord 100 4 = 0x0BEC4D82 ∧ d.flowWord 100 5 = 0x6553F100 ∧ d.flowWord 100 6 = 0x50000000 := by decide +kernel

/-- Synthesis, the example, step 3: after 41.5 s the first edge falls at 41 s 509,997,999.75 ns. -/
theorem test_pps_edge :
    ({ enable := true, src := 3, period := 10000000, ofs := -1024128, width := 1000 : PpsCfg }).edgeAt
      (41 * 1000000000 * 65536) (41500000000 * 65536) = 41509997999 * 65536 + 49152 := by decide +kernel

set_option maxRecDepth 20000 in
/-- Faults, the example, step 2: a double free of handle 0x0010_03E8 with reaction 1 at 100 s 0 ns. -/
theorem test_fault_log :
    let s := after (.hostFree 0x1003E8 0) ((full.onDev (fun d => { d with tbs := { d.tbs with tb := 100 * 1000000000 * 65536 * unitsPerFrac } })).having
      [(F.FLT_REACT_reaction 264, 1), (F.TOP_READY_time, 1)])
    s.dev.word R.FLT_LOG_0 = 0x04001508 ∧ s.dev.word R.FLT_LOG_1 = 0x001003E8 ∧ s.dev.word R.FLT_LOG_2 = 0x80000000 ∧
      s.dev.word R.FLT_LOG_3 = 0x64 ∧ s.dev.word R.FLT_PEND = 4 ∧ s.dev.word R.FLT_STATUS = 0x1000 := by decide +kernel

/-- IEEE 802.3 Clause 36: K28.5 is 0011111010 at negative running disparity and 1100000101 at positive, and turns it over. -/
theorem test_k28_5 : encodeSyms false [.comma, .comma] = ([0b0011111010#10, 0b1100000101#10], false) := by decide +kernel

/-- The same: D21.5 is 1010101010 at either disparity; 0000000000 is no code group. -/
theorem test_d21_5 : (encodeSyms true [.data 0xB5]).1 = [0b1010101010#10] ∧ (decodeGroups false [0#10]).1 = [.invalid] := by decide +kernel

/-- R246, R247: a first cycle start is the first of base + n × cycle at or after the instant, n negative too. -/
theorem test_cycle_start : cycleStart 1000 300 50 = 100 ∧ cycleStart 1000 300 1000 = 1000 ∧ cycleStart 1000 300 1001 = 1300 := by decide +kernel

/-- The Ethernet frame check sequence of the nine ASCII digits is the known CRC-32 check value 0xCBF4_3926, least byte first. -/
theorem test_fcs : fcs [0x31, 0x32, 0x33, 0x34, 0x35, 0x36, 0x37, 0x38, 0x39] = [0x26, 0x39, 0xF4, 0xCB] := by decide +kernel

end Sys2Proof.Tests
end

section
/-! SUPPORT. Laws of host reads: what a read of a register, of a pair, of the MSI-X window and of the configuration space comes to. -/

namespace Sys2Proof.Machine

variable {s : State} {d : Dev}

/-! ### The commands that read -/

/-- A read of a device out of reset does to it what the read's request says. -/
theorem runs_rcRead {what : HostRead} {f : Dev → Dev} (h : s.Up) (hf : s.begin.hostRead what = s.begin.onDev f) :
    Runs (.rcRead what) s f := by
  show runHost _ s = _
  rw [runHost_of_up _ h, hf]

theorem runs_rcRead_bar0 {addr : BitVec 28} {n : Nat} {f : Dev → Dev} (h : s.Up)
    (hf : s.begin.dev.hostReads addr.toNat n = f s.begin.dev) : Runs (.rcRead (.bar0 addr n)) s f :=
  runs_rcRead h (congrArg (fun e => { s.begin with dev := e }) hf)

theorem runs_pairLowerRead {addr : BitVec 28} {both : Bool} {f : Dev → Dev} (h : s.Up)
    (hf : (if both then Dev.hostReadPair addr.toNat else Dev.hostRead addr.toNat) s.begin.dev = f s.begin.dev) :
    Runs (.pairLowerRead addr both) s f := by
  show runUp _ s = _
  rw [runUp_of_up _ h, State.onDev, State.onDev, hf]

/-! ### Registers and pairs (R9, R87–R89) -/

/-- A read of one dword of the control pages answers with what the register read gives. -/
theorem Dev.hostRead_control {a : Nat} (ha : a < controlEnd) (h4 : a % 4 = 0) {w : Word} {e : Dev}
    (hr : d.readRegister a true = (w, e)) :
    d.hostRead a = { e with host := { e.host with rdata := [w], unsupported := false } } := by
  have h : a / 4 * 4 = a := by omega
  simp only [Dev.hostRead, h, Dev.readDword, if_pos ha, hr]

/-- Two dwords at an 8-byte-aligned address are read with neither half held (R88). -/
theorem Dev.hostReadPair_aligned {a : Nat} (h8 : a % 8 = 0) :
    d.hostReadPair a =
      let x := d.readDword a false
      let y := x.2.readDword (a + 4) false
      { y.2 with host := { y.2.host with rdata := [x.1, y.1], unsupported := false } } := by
  have h : a / 4 * 4 = a := by omega
  have hb : (a % 8 != 0) = false := by simp [h8]
  simp only [Dev.hostReadPair, h, hb]

theorem Dev.hostReads_many {a n : Nat} (h1 : n ≠ 1) (h2 : n ≠ 2) :
    d.hostReads a n =
      let x := Dev.readEach n (a / 4 * 4) d
      { x.2 with host := { x.2.host with rdata := x.1, unsupported := false } } := by
  simp only [Dev.hostReads, if_neg h1, if_neg h2]

section
variable {a i : Nat} {r : RegRow} (hs : d.shut a = false) (ht : d.there a = true) (hr : registerAt a = some (r, i))
include hs ht hr

/-- The register gives its value and restores its RC fields. -/
theorem Dev.readRegister_single (hh : Sparse.get? d.host.hold (holdOf a) = none) (hp : isPairLow a = false) :
    d.readRegister a true = (d.readValue r i a, ((d.endHold a).readCheck r a).readClears r a) := by
  simp [Dev.readRegister, hs, ht, hr, hh, hp]

/-- The lower half of a pair read alone holds the upper half (R89). -/
theorem Dev.readRegister_pairLow (hh : Sparse.get? d.host.hold (holdOf a) = none) (hp : isPairLow a = true) {r2 : RegRow} {i2 : Nat}
    (hr2 : registerAt (a + 4) = some (r2, i2)) :
    d.readRegister a true = (d.readValue r i a,
      ((((d.endHold a).readCheck r a).readClears r a).readCheck r2 (a + 4)).holdUpper (a + 4) (d.readValue r2 i2 (a + 4))) := by
  simp [Dev.readRegister, hs, ht, hr, hh, hp, hr2]

/-- A half held for its register is what the next read of it gives (R89). -/
theorem Dev.readRegister_held (x : Word) : ((d.holdUpper a x).readRegister a true).1 = x := by
  have hs' : (d.holdUpper a x).shut a = false := hs
  have ht' : (d.holdUpper a x).there a = true := ht
  have hh : Sparse.get? (d.holdUpper a x).host.hold (holdOf a) = some (a, x) := Sparse.get?_put_same _ _ _
  simp [Dev.readRegister, hs', ht', hr, hh]

end

/-! ### The MSI-X window (R84) -/

/-- The bits set one after another in a number are those it had and those listed. -/
theorem testBit_foldl_orBit (l : List Nat) (n i : Nat) : (l.foldl orBit n).testBit i = (n.testBit i || l.contains i) := by
  induction l generalizing n with
  | nil => simp
  | cons x l ih =>
    have h : (orBit n x).testBit i = (n.testBit i || i == x) := by
      rw [orBit, Nat.testBit_or, Nat.testBit_two_pow, Bool.beq_eq_decide_eq, decide_eq_decide.2 eq_comm]
    rw [List.foldl_cons, ih, h, List.contains_cons, Bool.or_assoc]

/-- A dword of the MSI-X table is one of the vector's message or its mask. -/
theorem State.bar2_table (v : Fin 64) (k : Fin 4) : s.bar2 (16 * v + 4 * k) =
    if k.val = 3 then BitVec.ofNat 32 (bit (s.irq.masked.contains v.val)) else Sparse.getD s.irq.msix (4 * v + k) 0 := by
  have hin : 16 * v.val + 4 * k.val < 0x400 := by omega
  have hv : (16 * v.val + 4 * k.val) / 16 = v := by omega
  have hk : (16 * v.val + 4 * k.val) / 4 % 4 = k := by omega
  simp only [State.bar2, if_pos hin, hv, hk]
  by_cases h3 : k.val = 3
  · simp [h3]
  · rw [if_pos (by omega), if_neg h3]

/-- A dword of the pending-bit array has the bits of the vectors that wait. -/
theorem State.bar2_pending (half : Fin 2) (i : Fin 32) :
    (s.bar2 (0x8000 + 4 * half)).getLsbD i = s.irq.pending.any (fun v => v == 32 * half.val + i.val) := by
  have hout : ¬ 0x8000 + 4 * half.val < 0x400 := by omega
  have hin : 0x8000 ≤ 0x8000 + 4 * half.val ∧ 0x8000 + 4 * half.val < 0x8008 := by omega
  have hk : (0x8000 + 4 * half.val) / 4 % 2 = half := by omega
  simp only [State.bar2, if_neg hout, if_pos hin, hk, BitVec.getLsbD_ofNat, i.isLt, decide_true, Bool.true_and,
    testBit_foldl_orBit, Nat.zero_testBit, Bool.false_or]
  rw [Bool.eq_iff_iff]
  simp only [List.contains_iff_mem, List.mem_map, List.mem_filter, List.any_eq_true, beq_iff_eq]
  constructor
  · rintro ⟨v, ⟨hv, hd⟩, hm⟩
    exact ⟨v, hv, by omega⟩
  · rintro ⟨v, hv, rfl⟩
    exact ⟨_, ⟨hv, by omega⟩, by omega⟩

/-! ### The base address registers (R84) -/

/-- A dword of the BARs holds the address bits the host wrote. -/
theorem Dev.bars_setBar (k : Nat) (w : Word) : Sparse.getD (d.setBar k w).host.bars k 0 = w &&& barMask k := by
  by_cases h : w &&& barMask k = 0
  · simp only [Dev.setBar, Sparse.getD, h, if_true, Sparse.get?_del_same, Option.getD_none]
  · simp only [Dev.setBar, Sparse.getD, if_neg h, Sparse.get?_put_same, Option.getD_some]

/-- The lower dword of a BAR reads back its base, its size and its type. -/
theorem Dev.configDword_setBar_low {k : Nat} (h : k = 4 ∨ k = 6) (w : Word) :
    (d.setBar k w).configDword k = w &&& barMask k ||| 4 := by
  rw [← d.bars_setBar k w]
  rcases h with rfl | rfl <;> rfl

/-- The upper dword of a BAR reads back whole. -/
theorem Dev.configDword_setBar_high {k : Nat} (h : k = 5 ∨ k = 7) (w : Word) : (d.setBar k w).configDword k = w := by
  have hm : w &&& barMask k = w := by rcases h with rfl | rfl <;> exact BitVec.and_allOnes
  have hb := d.bars_setBar k w
  rw [hm] at hb
  rcases h with rfl | rfl <;> exact hb

end Sys2Proof.Machine
end

section
/-! PROOFS. The family of the manual's scope: the block right after reset, the host's reads. -/

namespace Sys2Proof.Machine

/-! ### The block right after reset -/

/-- The part's identity stands in TOP_ID (R4). -/
theorem State.reset_identity : State.reset.dev.word 0 = 0x11648010#32 := rfl

/-- Every other register is at its reset word. -/
theorem State.reset_word {a : Nat} (h : a ≠ 0) : State.reset.dev.word a = resetWord a := by
  have : Sparse.get? State.reset.dev.csr a = none := if_neg (Ne.symm h)
  rw [Dev.word, this, Option.getD_none]

/-- No image is loaded (R47). -/
theorem State.reset_image : State.reset.dev.get F.IMG_STATUS_state = Img.empty := by decide +kernel

/-- The empty log keeps the rule of the fault log (R505). -/
theorem State.reset_log_kept : State.reset.flt.Kept :=
  ⟨Nat.zero_le _, List.nodup_nil, fun _ h => absurd h List.not_mem_nil⟩

/-- Settles O2: the memories, the queue, the log, the windows and the vectors are empty by definition; the identity, the other
registers and the image's state are read from the reset words. -/
theorem resetState : Obligations.ResetState :=
  ⟨rfl, rfl, rfl, rfl, rfl, rfl, rfl, State.reset_identity, fun _ => State.reset_word, State.reset_image, rfl, fun _ => rfl, rfl,
    State.reset_log_kept, fun _ h => absurd h List.not_mem_nil, rfl, rfl⟩

/-! ### The host's reads -/

/-- Reads of one register, and of the lower half of a pair (R9, R89). -/
theorem runs_registerRead {s : State} {addr : BitVec 28} {r : RegRow} {i : Nat} (h : s.Reaches addr.toNat)
    (ha : addr.toNat < controlEnd) (h4 : addr.toNat % 4 = 0) (hr : registerAt addr.toNat = some (r, i))
    (hh : Sparse.get? s.dev.host.hold (holdOf addr.toNat) = none) (hp : isPairLow addr.toNat = false) :
    Runs (.rcRead (.bar0 addr 1)) s (fun d =>
      let e := ((d.endHold addr.toNat).readCheck r addr.toNat).readClears r addr.toNat
      { e with host := { e.host with rdata := [d.readValue r i addr.toNat], unsupported := false } }) := by
  obtain ⟨hu, hs, ht⟩ := h
  exact runs_rcRead_bar0 hu (Dev.hostRead_control ha h4 (Dev.readRegister_single (d := s.begin.dev) hs ht hr hh hp))

theorem runs_pairLow {s : State} {addr : BitVec 28} {r r2 : RegRow} {i i2 : Nat} (h : s.Reaches addr.toNat)
    (ha : addr.toNat < controlEnd) (h4 : addr.toNat % 4 = 0) (hr : registerAt addr.toNat = some (r, i))
    (hh : Sparse.get? s.dev.host.hold (holdOf addr.toNat) = none) (hp : isPairLow addr.toNat = true)
    (hr2 : registerAt (addr.toNat + 4) = some (r2, i2)) :
    Runs (.pairLowerRead addr false) s (fun d =>
      let e := ((((d.endHold addr.toNat).readCheck r addr.toNat).readClears r addr.toNat).readCheck r2 (addr.toNat + 4)).holdUpper
        (addr.toNat + 4) (d.readValue r2 i2 (addr.toNat + 4))
      { e with host := { e.host with rdata := [d.readValue r i addr.toNat], unsupported := false } }) := by
  obtain ⟨hu, hs, ht⟩ := h
  exact runs_pairLowerRead hu (Dev.hostRead_control ha h4 (Dev.readRegister_pairLow (d := s.begin.dev) hs ht hr hh hp hr2))

/-- Both commands that read two dwords at an 8-byte-aligned address read them in one step (R88). -/
theorem runs_readPair {s : State} {addr : BitVec 28} (h : s.Up) (h8 : addr.toNat % 8 = 0) :
    ∀ c ∈ [Instr.pairLowerRead addr true, .rcRead (.bar0 addr 2)], Runs c s (fun d =>
      let x := d.readDword addr.toNat false
      let y := x.2.readDword (addr.toNat + 4) false
      { y.2 with host := { y.2.host with rdata := [x.1, y.1], unsupported := false } }) := by
  intro c hc
  rcases List.mem_pair.1 hc with rfl | rfl
  · exact runs_pairLowerRead h (Dev.hostReadPair_aligned h8)
  · exact runs_rcRead_bar0 h (Dev.hostReadPair_aligned h8)

/-- A read of an aligned dword of BAR2 answers with that dword (R84). -/
theorem runs_rcRead_bar2 {s : State} {a : BitVec 16} (h : s.Up) (h4 : a.toNat % 4 = 0) :
    Runs (.rcRead (.bar2 a)) s (Dev.answer [s.bar2 a.toNat] false) := by
  have ha : a.toNat / 4 * 4 = a.toNat := by omega
  exact runs_rcRead h (by rw [State.hostRead, ha]; rfl)

theorem runs_msixRead {s : State} (h : s.Up) {v : Fin 64} {k : Fin 4} {a : BitVec 16} (ha : a.toNat = 16 * v + 4 * k) :
    Runs (.rcRead (.bar2 a)) s (Dev.answer
      [if k.val = 3 then BitVec.ofNat 32 (bit (s.irq.masked.contains v.val)) else Sparse.getD s.irq.msix (4 * v + k) 0] false) := by
  rw [← State.bar2_table v k, ← ha]
  exact runs_rcRead_bar2 h (by omega)

theorem runs_pendingRead {s : State} (h : s.Up) (half : Fin 2) :
    ∃ w : Word, Runs (.rcRead (.bar2 (BitVec.ofNat 16 (0x8000 + 4 * half)))) s (Dev.answer [w] false) ∧
      ∀ i : Fin 32, w.getLsbD i = s.irq.pending.any (fun v => v == 32 * half.val + i.val) := by
  have ha : (BitVec.ofNat 16 (0x8000 + 4 * half.val)).toNat = 0x8000 + 4 * half := by
    rw [BitVec.toNat_ofNat, Nat.mod_eq_of_lt (by omega)]
  refine ⟨s.bar2 (0x8000 + 4 * half), ?_, s.bar2_pending half⟩
  have hr := runs_rcRead_bar2 h (a := BitVec.ofNat 16 (0x8000 + 4 * half.val)) (by omega)
  rwa [ha] at hr

/-- A BAR written keeps its base, and leaves the registers and the memories (R84). -/
theorem setBar_readsBack {s : State} (h : s.Up) (k : BitVec 10) (w : Word) :
    ∃ u : State, exec (.rcRead (.setBar k w)) s = .next u.commit ∧ u.dev.csr = s.dev.csr ∧ u.dev.mem = s.dev.mem ∧
      (k = 4 → u.dev.configDword 4 = w &&& 0xF0000000 ||| 4) ∧ (k = 6 → u.dev.configDword 6 = w &&& 0xFFFF0000 ||| 4) ∧
      (k = 5 ∨ k = 7 → u.dev.configDword k.toNat = w) := by
  refine ⟨_, runs_rcRead (f := fun d => (d.setBar k.toNat w).answer [] false) h rfl, rfl, rfl, ?_, ?_, ?_⟩
  · rintro rfl
    exact Dev.configDword_setBar_low (.inl rfl) w
  · rintro rfl
    exact Dev.configDword_setBar_low (.inr rfl) w
  · intro hk
    exact Dev.configDword_setBar_high (hk.imp (congrArg BitVec.toNat) (congrArg BitVec.toNat)) w

/-- Settles O17: each kind of request is one of the laws of reads, on the device as the command begins. -/
theorem registerReads : Obligations.RegisterReads := by
  refine ⟨fun s addr r i hreach ha h4 hr hh => ⟨?_, ?_, ?_⟩, fun s addr hu => ⟨?_, ?_, ?_, ?_, ?_, ?_, ?_⟩⟩
  · exact runs_registerRead hreach ha h4 hr hh
  · exact fun hp _ _ => runs_pairLow hreach ha h4 hr hh hp
  · exact fun d x hs ht => Dev.readRegister_held hs ht hr x
  · exact runs_readPair hu
  · exact fun n h1 h2 => runs_rcRead_bar0 hu (Dev.hostReads_many h1 h2)
  · exact fun v k a => runs_msixRead hu
  · exact runs_pendingRead hu
  · exact ⟨runs_rcRead hu rfl, runs_rcRead hu rfl, runs_rcRead hu rfl⟩
  · exact fun k w b => ⟨runs_rcRead hu rfl, runs_rcRead hu rfl, setBar_readsBack hu k w⟩
  · exact runs_rcRead hu rfl

end Sys2Proof.Machine
end

section
/-! PROOFS. The family of the manual's architecture: frames that arrive at a port in far-end loopback. -/

namespace Sys2Proof.Machine

/-! ### Far-end loopback (R138) -/

/-- A port in far-end loopback sends a segment back before it takes it. -/
theorem Dev.lineReceive_farEnd {d : Dev} {p : Nat} (start : Option (Nat × Bool)) (seg : Seg) (hf : d.farEnd p = true)
    (hl : d.flag (F.MAC_CFG_pcs_loop p) = false) :
    d.lineReceive p start seg = (d.emit (.echo p seg.bytes)).receive p start seg := by
  have hl' : (d.emit (.echo p seg.bytes)).flag (F.MAC_CFG_pcs_loop p) = false := hl
  simp only [Dev.lineReceive, hf, Dev.when_true, hl', Bool.false_eq_true, if_false]

theorem runs_frameReceive_farEnd {s : State} {p : Fin 64} (start : Option (Nat × Bool)) (seg : Seg) (h : s.Up)
    (hf : s.dev.farEnd p = true) (hl : s.dev.flag (F.MAC_CFG_pcs_loop p) = false) :
    Runs (.frameReceive p start seg) s (Dev.lineOut (fun d => (d.emit (.echo p seg.bytes)).receive p start seg)) := by
  have hr : s.begin.dev.lineReceive p start seg = (s.begin.dev.emit (.echo p seg.bytes)).receive p start seg :=
    Dev.lineReceive_farEnd start seg hf hl
  show runUp _ s = _
  rw [runUp_of_up _ h, State.onDev, State.onDev, Dev.lineOut, Dev.lineOut, hr]

/-! ### A port in far-end loopback on which a segment arrives -/

/-- A device with an image applied whose port 0, on lane 0 alone, is in far-end loopback with its recovered clock. -/
def State.farEndLooped : State :=
  State.reset.onDev (fun d => [(F.IMG_PRESENT, 0xFFFFFF), (F.IMG_REGIONS, 0x3FF), (F.IMG_STATUS_state, Img.appliedSt),
    (F.PWR_DOM_STATUS_on, 0xFFF), (F.HSL_CFG_used 0, 1), (F.HSL_CFG_port 0, 0), (F.MAC_CFG_enable 0, 1), (F.MAC_CFG_lanes 0, 1),
    (F.HSL_STATUS_pwr_state 0, Lane.l0), (F.HSL_STATUS_signal 0, 1), (F.HSL_STATUS_cdr_lock 0, 1),
    (F.HSL_CTRL_loopback 0, 2)].foldl (fun e x => e.put x.1 x.2) d)

/-- The middle of a frame. -/
def middleSegment : Seg := { bytes := List.replicate 64 0x55, last := false, codeErr := false, overRate := false }

namespace State

theorem farEndLooped_up : farEndLooped.Up := rfl

theorem farEndLooped_farEnd : farEndLooped.dev.farEnd 0 = true := by decide +kernel

theorem farEndLooped_noPcsLoop : farEndLooped.dev.flag (F.MAC_CFG_pcs_loop 0) = false := by decide +kernel

/-- The segment sent back is all that the command sends. -/
theorem farEndLooped_sends : (farEndLooped.begin.onDev (Dev.lineOut (fun d =>
    (d.emit (.echo (0 : Fin 64) middleSegment.bytes)).receive (0 : Fin 64) none middleSegment))).commit.dev.sent =
      [.echo 0 middleSegment.bytes] := by
  decide +kernel

/-- A segment taken and not sent back leaves nothing sent. -/
theorem farEndLooped_takes :
    (farEndLooped.begin.onDev (Dev.lineOut (Dev.receiveMore (0 : Fin 64) middleSegment))).commit.dev.sent = [] := by
  decide +kernel

end State

/-- Refutes O24: its first clause takes a segment on every port without PCS loopback for received and no more, but a port in far-end
loopback also sends it back on its line (R138, Table HSL-6). -/
theorem not_frameArrival : ¬ Obligations.FrameArrival := by
  unfold Obligations.FrameArrival
  rintro ⟨hports, -⟩
  obtain ⟨hline, -⟩ := hports State.farEndLooped 0 middleSegment State.farEndLooped_up
  obtain ⟨-, hclaimed⟩ := hline State.farEndLooped_noPcsLoop
  have hruns := runs_frameReceive_farEnd (p := 0) none middleSegment State.farEndLooped_up State.farEndLooped_farEnd
    State.farEndLooped_noPcsLoop
  have hend := Host.Outcome.next.inj (hruns.symm.trans hclaimed)
  have hsent := State.farEndLooped_sends
  rw [hend, State.farEndLooped_takes] at hsent
  exact List.cons_ne_nil _ _ hsent.symm

end Sys2Proof.Machine
end

section
/-! SUPPORT. Laws of host writes: what a command that writes dwords comes to, access by access. -/

namespace Sys2Proof.Machine

variable {s : State} {d : Dev}

/-! ### Commands of one device operation -/

/-- A change of the device is told by what it makes of the device it meets. -/
theorem State.onDev_congr {f g : Dev → Dev} (h : f s.dev = g s.dev) : s.onDev f = s.onDev g :=
  congrArg (fun e => { s with dev := e }) h

/-- A command of an operation on a device out of reset runs whatever that operation comes to there. -/
theorem runUp_as {f g : Dev → Dev} (h : s.Up) (hf : f s.begin.dev = g s.begin.dev) :
    runUp f s = .next (s.begin.onDev g).commit := by
  rw [runUp_of_up _ h, State.onDev_congr hf]

theorem runs_congr {c : Instr} {f g : Dev → Dev} (h : Runs c s f) (hfg : f s.begin.dev = g s.begin.dev) : Runs c s g := by
  rw [Runs, h, State.onDev_congr hfg]

/-! ### Dwords written one by one (Table HIF-3) -/

theorem State.writeEach_nil (a : Nat) (be : BitVec 4) : s.writeEach a be [] = s := rfl

/-- The first dword is written and taken, then the rest from the next address on. -/
theorem State.writeEach_cons {a : Nat} (h4 : a % 4 = 0) (be : BitVec 4) (w : Word) (ws : List Word) :
    s.writeEach a be (w :: ws) = ((s.writeDword a be w).settle).writeEach (a + 4) be ws := by
  have h : a / 4 * 4 = a := by omega
  have h' : (a + 4) / 4 * 4 = a + 4 := by omega
  simp only [State.writeEach, h, h', List.foldl_cons]

/-- Dwords are written from the aligned address on. -/
theorem State.writeEach_aligned (a : Nat) (be : BitVec 4) (ws : List Word) : s.writeEach (a / 4 * 4) be ws = s.writeEach a be ws := by
  have h : a / 4 * 4 / 4 * 4 = a / 4 * 4 := by omega
  simp only [State.writeEach, h]

/-- Two dwords at an aligned address of the control pages are one access. -/
theorem State.hostWrite_pair {a : Nat} (h8 : a % 8 < 4) (ha : a / 4 * 4 < controlEnd) (be : BitVec 4) (w0 w1 : Word) :
    s.hostWrite a be [w0, w1] = (s.writePair (a / 4 * 4) be w0 w1).settle :=
  if_pos ⟨by omega, ha⟩

/-- Any other dwords are one access each. -/
theorem State.hostWrite_each {a : Nat} {ws : List Word} (h : ws.length ≠ 2 ∨ 4 ≤ a % 8 ∨ controlEnd ≤ a / 4 * 4) (be : BitVec 4) :
    s.hostWrite a be ws = s.writeEach a be ws := by
  rw [← State.writeEach_aligned]
  match ws with
  | [] => rfl
  | [_] => rfl
  | _ :: _ :: _ :: _ => rfl
  | [w0, w1] =>
    refine if_neg fun hp => ?_
    rcases h with h | h | h
    · exact h rfl
    · omega
    · omega

theorem State.hostWrite_single {a : Nat} (h4 : a % 4 = 0) (be : BitVec 4) (w : Word) :
    s.hostWrite a be [w] = (s.writeDword a be w).settle := by
  rw [State.hostWrite_each (.inl (by simp)), State.writeEach_cons h4, State.writeEach_nil]

/-- A command that writes one dword does what the write of that dword comes to. -/
theorem runsAccess_write {c : Instr} {a : Nat} {be : BitVec 4} {w : Word} {f : Dev → Dev}
    (hc : exec c s = runHost (State.hostWrite a be [w]) s) (h : s.Up) (h4 : a % 4 = 0)
    (hw : s.begin.writeDword a be w = s.begin.onDev f) : RunsAccess c s f := by
  rw [RunsAccess, hc, runHost_of_up _ h, State.hostWrite_single h4, hw]

/-! ### One dword of a control page (R52, R71, R87, R92) -/

section
variable {a : Nat} (be : BitVec 4) (w : Word) (ha : a < controlEnd)
include ha

theorem State.writeDword_control : s.writeDword a be w = s.writeRegister a be w := if_pos ha

theorem State.writeDword_shut (hs : s.dev.shut a = true) : s.writeDword a be w = s.onDev (Dev.endHold a) := by
  simp [State.writeDword_control be w ha, State.writeRegister, hs]

theorem State.writeDword_absent (hs : s.dev.shut a = false) (ht : s.dev.there a = false) :
    s.writeDword a be w = s.onDev (fun d => (d.endHold a).absentWrite a) := by
  simp only [State.writeDword_control be w ha, State.writeRegister, State.onDev_dev, Dev.endHold_shut, Dev.endHold_there, hs, ht]
  rfl

theorem State.writeDword_undefined (hs : s.dev.shut a = false) (ht : s.dev.there a = true) (hr : registerAt a = none) :
    s.writeDword a be w = s.onDev (fun d => (d.endHold a).flagAccess 2 a) := by
  simp only [State.writeDword_control be w ha, State.writeRegister, State.onDev_dev, Dev.endHold_shut, Dev.endHold_there, hs, ht, hr]
  rfl

theorem State.writeDword_narrow (hs : s.dev.shut a = false) (ht : s.dev.there a = true) (hr : (registerAt a).isSome = true)
    (hb : be ≠ 0xF) : s.writeDword a be w = s.onDev (fun d => (d.endHold a).flagAccess 1 a) := by
  obtain ⟨x, hx⟩ := Option.isSome_iff_exists.1 hr
  simp only [State.writeDword_control be w ha, State.writeRegister, State.onDev_dev, Dev.endHold_shut, Dev.endHold_there, hs, ht, hx,
    if_pos hb]
  rfl

end

/-! ### A register with no operation of its own -/

/-- A write whose register reaches no more than the device is a write of the device alone. -/
theorem State.regWrite_onDev {r : RegRow} {i a addr : Nat} {v : Via} {w : Word} (h : reachesState a = false) :
    s.regWrite r i a v w addr = s.onDev (Dev.regWrite r i a v w addr) := by
  simp only [reachesState, Bool.or_eq_false_iff, beq_eq_false_iff_ne, ne_eq] at h
  obtain ⟨⟨⟨⟨h1, h2⟩, h3⟩, h4⟩, h5⟩ := h
  simp only [State.regWrite, h1, h2, h3, h4, h5, or_self, if_false]

/-- A write that starts nothing, with nothing to flag, is the plain write and what follows from it. -/
theorem Dev.regWrite_plain {r : RegRow} {i a addr : Nat} {w : Word} (hn : a / 0x10000 * 0x10000 + r.off ≠ R.SEC_ATT_NONCE 0)
    (hw : a / 0x10000 * 0x10000 + r.off ≠ R.TOP_WDOG_CTRL)
    (hf : d.special (a / 0x10000 * 0x10000 + r.off) i (w &&& namedBits r a) = none) (hfl : d.writeFlags r a Via.whole w = []) :
    d.regWrite r i a Via.whole w addr =
      Dev.after d (a / 0x10000 * 0x10000 + r.off) i (w &&& namedBits r a) (d.plainWrite r a Via.whole w) := by
  rw [Dev.regWrite, if_neg fun h => hn h.1.symm, hfl]
  simp only [Dev.wordSeen, show Via.whole.viaAlias = false from rfl, Bool.false_eq_true, if_false, Bool.false_and, hf, hw, false_and]
  rfl

end Sys2Proof.Machine
end

section
/-! SUPPORT. Laws of accesses that are flagged: what one leaves, and how two words of one access count once. -/

namespace Sys2Proof.Machine

variable {d old : Dev}

/-! ### Fields read back -/

theorem satAdd_lt (width n k : Nat) : satAdd width n k < 2 ^ width := by
  have : 0 < 2 ^ width := Nat.two_pow_pos width
  simp only [satAdd]
  omega

/-- A field reads a value it can hold as it was written. -/
theorem Dev.get_put_fits (f : Fld) {v : Nat} (h : f.lsb + f.width ≤ 32) (hv : v < 2 ^ f.width) : (d.put f v).get f = v := by
  rw [Dev.get_put_same _ _ _ h, Nat.mod_eq_of_lt hv]

/-- A bit of a register reads what was written to it. -/
theorem Dev.bitAt_put_same {a i : Nat} (v : Nat) (h : i < 32) : (d.put ⟨a, i, 1⟩ v).bitAt a i = v.testBit 0 := by
  rw [Dev.bitAt, Dev.put, Dev.word_setWord_same, getLsbD_setBits, if_pos ⟨h, le_rfl, Nat.lt_succ_self i⟩, Nat.sub_self]

theorem Dev.bitAt_put_ne {f : Fld} {a : Nat} (i v : Nat) (h : f.addr ≠ a) : (d.put f v).bitAt a i = d.bitAt a i := by
  rw [Dev.bitAt, Dev.word_put_ne _ _ h, Dev.bitAt]

@[simp] theorem Dev.bitAt_raise (c n a i : Nat) : (d.raise c n).bitAt a i = d.bitAt a i := (rfl)

/-! ### A flagged access (R92) -/

/-- A flagged access is four field writes and its fault. -/
theorem Dev.flagAccess_eq (i addr : Nat) : d.flagAccess i addr =
    ((((d.put ⟨R.HIF_ACC_ERR, i, 1⟩ 1).put F.HIF_ACC_ADDR addr).put F.HIF_ACC_CNT (satAdd 32 (d.get F.HIF_ACC_CNT) 1)).put
      ⟨R.HIF_EVENT, 0, 1⟩ 1).raise E.HIF_ACC_REFUSED addr := by
  have hc : ((d.put ⟨R.HIF_ACC_ERR, i, 1⟩ 1).put F.HIF_ACC_ADDR addr).get F.HIF_ACC_CNT = d.get F.HIF_ACC_CNT := by
    rw [Dev.get_put_apart _ _ (.inl (by decide)), Dev.get_put_apart _ _ (.inl (show R.HIF_ACC_ERR ≠ R.HIF_ACC_CNT by decide))]
  rw [Dev.flagAccess, Dev.fault_eq, Dev.sat_eq, Dev.setBit_eq, show bit true = 1 from rfl, hc]

theorem Dev.flagAccess_bit {i : Nat} (addr : Nat) (h : i < 32) : (d.flagAccess i addr).bitAt R.HIF_ACC_ERR i = true := by
  rw [Dev.flagAccess_eq, Dev.bitAt_raise, Dev.bitAt_put_ne _ _ (by decide), Dev.bitAt_put_ne _ _ (by decide),
    Dev.bitAt_put_ne _ _ (by decide), Dev.bitAt_put_same _ h]
  rfl

theorem Dev.flagAccess_addr (i : Nat) {addr : Nat} (h : addr < 2 ^ 28) : (d.flagAccess i addr).get F.HIF_ACC_ADDR = addr := by
  rw [Dev.flagAccess_eq, Dev.get_raise, Dev.get_put_apart _ _ (.inl (by decide)), Dev.get_put_apart _ _ (.inl (by decide)),
    Dev.get_put_fits _ (by decide) (lt_trans h (by decide))]

theorem Dev.flagAccess_count (i addr : Nat) :
    (d.flagAccess i addr).get F.HIF_ACC_CNT = satAdd F.HIF_ACC_CNT.width (d.get F.HIF_ACC_CNT) 1 := by
  rw [Dev.flagAccess_eq, Dev.get_raise, Dev.get_put_apart _ _ (.inl (by decide)), Dev.get_put_fits _ (by decide) (satAdd_lt _ _ _)]

theorem Dev.flagAccess_event (i addr : Nat) : (d.flagAccess i addr).bitAt R.HIF_EVENT 0 = true := by
  rw [Dev.flagAccess_eq, Dev.bitAt_raise, Dev.bitAt_put_same _ (by decide)]
  rfl

theorem Dev.flagAccess_raised (i addr : Nat) : (d.flagAccess i addr).raised = d.raised ++ [⟨E.HIF_ACC_REFUSED, addr⟩] := by
  rw [Dev.flagAccess_eq]
  rfl

/-- A flagged access leaves every register but its own three and HIF_EVENT. -/
theorem Dev.flagAccess_word (i addr : Nat) {a : Nat} (h1 : a ≠ R.HIF_ACC_ERR) (h2 : a ≠ R.HIF_ACC_ADDR) (h3 : a ≠ R.HIF_ACC_CNT)
    (h4 : a ≠ R.HIF_EVENT) : (d.flagAccess i addr).word a = d.word a := by
  rw [Dev.flagAccess_eq, Dev.word_raise, Dev.word_put_ne _ _ h4.symm, Dev.word_put_ne _ _ h3.symm, Dev.word_put_ne _ _ h2.symm,
    Dev.word_put_ne _ _ h1.symm]

/-! ### Two words of one access count once (Table HIF-3, R52, R92) -/

/-- An event that one of the two words at an address was given, under a code. -/
def Ev.ofAccess (code a : Nat) (e : Ev) : Bool := e.code == code && (e.inst == a || e.inst == a + 4)

section
variable {code a before : Nat} {at_ cnt : Fld}

theorem Dev.onceFor_of_any (h : d.raised.any (Ev.ofAccess code a) = true) : d.onceFor code at_ cnt a before =
    { (d.put at_ a).put cnt (satAdd cnt.width before 1) with
      raised := d.raised.filter (fun e => !e.ofAccess code a) ++ [⟨code, a⟩] } := if_pos h

/-- The count is one above what it was, and the address that of the access. -/
theorem Dev.onceFor_fields (h : d.raised.any (Ev.ofAccess code a) = true) (hc : cnt.lsb + cnt.width ≤ 32)
    (hat : at_.lsb + at_.width ≤ 32) (hap : cnt.apart at_) (ha : a < 2 ^ at_.width) :
    (d.onceFor code at_ cnt a before).get cnt = satAdd cnt.width before 1 ∧ (d.onceFor code at_ cnt a before).get at_ = a := by
  rw [Dev.onceFor_of_any h]
  exact ⟨Dev.get_put_fits (d := d.put at_ a) _ hc (satAdd_lt _ _ _),
    (Dev.get_put_apart (d.put at_ a) _ hap).trans (Dev.get_put_fits _ hat ha)⟩

/-- One event of the access is left. -/
theorem Dev.onceFor_events (h : d.raised.any (Ev.ofAccess code a) = true) :
    (d.onceFor code at_ cnt a before).raised.countP (Ev.ofAccess code a) = 1 := by
  rw [Dev.onceFor_of_any h]
  simp only [List.countP_append, List.countP_filter, Bool.and_not_self, List.countP_false, List.countP_singleton]
  simp [Ev.ofAccess]

/-- Events of other codes are not touched. -/
theorem Dev.onceFor_otherEvents {code' : Nat} (hne : code ≠ code') :
    (d.onceFor code at_ cnt a before).raised.countP (Ev.ofAccess code' a) = d.raised.countP (Ev.ofAccess code' a) := by
  have hkeep : ∀ e : Ev, (Ev.ofAccess code' a e && !e.ofAccess code a) = Ev.ofAccess code' a e := by
    intro e
    by_cases he : e.code = code'
    · have : e.code ≠ code := fun h => hne (h.symm.trans he)
      simp [Ev.ofAccess, this]
    · simp [Ev.ofAccess, he]
  by_cases h : d.raised.any (Ev.ofAccess code a) = true
  · rw [Dev.onceFor_of_any h]
    have hlast : Ev.ofAccess code' a ⟨code, a⟩ = false := by simp [Ev.ofAccess, hne]
    simp only [List.countP_append, List.countP_filter, hkeep, List.countP_singleton, hlast, Bool.false_eq_true, if_false, Nat.add_zero]
  · rw [Dev.onceFor]
    exact congrArg (fun e : Dev => e.raised.countP (Ev.ofAccess code' a)) (if_neg h)

/-- Fields apart from the two are not touched. -/
theorem Dev.onceFor_get {f : Fld} (hat : at_.apart f) (hcnt : cnt.apart f) :
    (d.onceFor code at_ cnt a before).get f = d.get f := by
  by_cases h : d.raised.any (Ev.ofAccess code a) = true
  · rw [Dev.onceFor_of_any h]
    exact (Dev.get_put_apart (d.put at_ a) _ hcnt).trans (Dev.get_put_apart d _ hat)
  · exact congrArg (Dev.get · f) (if_neg h)

end

/-- An access refused at one word or at both counts once, with its own address. -/
theorem Dev.oneAccess_refused {a : Nat} (ha : a < 2 ^ 28) (h : d.raised.any (Ev.ofAccess E.HIF_ACC_REFUSED a) = true) :
    (Dev.oneAccess a old d).get F.HIF_ACC_CNT = satAdd F.HIF_ACC_CNT.width (old.get F.HIF_ACC_CNT) 1 ∧
      (Dev.oneAccess a old d).get F.HIF_ACC_ADDR = a ∧
      (Dev.oneAccess a old d).raised.countP (Ev.ofAccess E.HIF_ACC_REFUSED a) = 1 := by
  obtain ⟨hcnt, haddr⟩ := Dev.onceFor_fields (at_ := F.HIF_ACC_ADDR) (cnt := F.HIF_ACC_CNT) (before := old.get F.HIF_ACC_CNT) h
    (by decide) (by decide) (.inl (by decide)) (lt_trans ha (by decide))
  refine ⟨?_, ?_, ?_⟩
  · rw [Dev.oneAccess, Dev.onceFor_get (.inl (by decide)) (.inl (by decide)), hcnt]
  · rw [Dev.oneAccess, Dev.onceFor_get (.inl (by decide)) (.inl (by decide)), haddr]
  · rw [Dev.oneAccess, Dev.onceFor_otherEvents (by decide), Dev.onceFor_events h]

/-- An access turned away as absent at one word or at both counts once, with its own address. -/
theorem Dev.oneAccess_absent {a : Nat} (ha : a < 2 ^ 28) (h : d.raised.any (Ev.ofAccess E.IMG_ABSENT_WRITE a) = true) :
    (Dev.oneAccess a old d).get F.IMG_ABSENT_CNT = satAdd F.IMG_ABSENT_CNT.width (old.get F.IMG_ABSENT_CNT) 1 ∧
      (Dev.oneAccess a old d).get F.IMG_ABSENT_ADDR = a ∧
      (Dev.oneAccess a old d).raised.countP (Ev.ofAccess E.IMG_ABSENT_WRITE a) = 1 := by
  have hafter : (d.onceFor E.HIF_ACC_REFUSED F.HIF_ACC_ADDR F.HIF_ACC_CNT a (old.get F.HIF_ACC_CNT)).raised.any
      (Ev.ofAccess E.IMG_ABSENT_WRITE a) = true := by
    rw [List.any_eq_true, ← List.countP_pos_iff, Dev.onceFor_otherEvents (by decide), List.countP_pos_iff, ← List.any_eq_true]
    exact h
  obtain ⟨hcnt, haddr⟩ := Dev.onceFor_fields (at_ := F.IMG_ABSENT_ADDR) (cnt := F.IMG_ABSENT_CNT)
    (before := old.get F.IMG_ABSENT_CNT) hafter (by decide) (by decide) (.inl (by decide)) (lt_trans ha (by decide))
  exact ⟨hcnt, haddr, Dev.onceFor_events hafter⟩

end Sys2Proof.Machine
end

section
/-! PROOFS. The family of the structure image, the host's writes: a register with no operation of its own, several dwords, refused
and flagged accesses, the two image windows. -/

namespace Sys2Proof.Machine

variable {s : State}

/-! ### Registers and several dwords -/

/-- A host write of one whole dword to a register that starts nothing of its own (R87, R89). -/
theorem writeDword_plain {a i : Nat} {r : RegRow} {w : Word} (h : s.Reaches a) (ha : a < controlEnd)
    (hr : registerAt a = some (r, i)) (hs : reachesState a = false) (hn : a / 0x10000 * 0x10000 + r.off ≠ R.SEC_ATT_NONCE 0)
    (hw : a / 0x10000 * 0x10000 + r.off ≠ R.TOP_WDOG_CTRL)
    (hf : ∀ d : Dev, d.special (a / 0x10000 * 0x10000 + r.off) i (w &&& namedBits r a) = none)
    (hfl : s.dev.writeFlags r a Via.whole w = []) :
    s.begin.writeDword a 0xF w = s.begin.onDev (fun d => Dev.after (d.endHold a) (a / 0x10000 * 0x10000 + r.off) i
      (w &&& namedBits r a) ((d.endHold a).plainWrite r a Via.whole w)) := by
  obtain ⟨-, hsh, hth⟩ := h
  have hdev := Dev.regWrite_plain (d := s.begin.dev.endHold a) (addr := a) hn hw (hf _) hfl
  rw [State.writeDword_at s.begin _ ha hr hsh hth, State.regWrite_onDev hs]
  exact State.onDev_congr (f := fun d => Dev.regWrite r i a Via.whole w a (d.endHold a)) hdev

/-- Settles O15: a dword to a plain register is the plain write through the register's row; several dwords split by their number and
their address; what two words were given for is counted by one pass for each event code. -/
theorem registerWriteRuns : Obligations.RegisterWriteRuns := by
  refine ⟨fun s addr r i w h ha h4 hr hs hn hw hf hfl => ?_, fun s addr be ws hu => ⟨?_, ?_⟩, fun t a be w ws h4 => ?_,
    fun old d a ha => ?_⟩
  · have hwrite := writeDword_plain h ha hr hs hn hw hf hfl
    exact ⟨runsAccess_write rfl h.1 h4 hwrite, runsAccess_write rfl h.1 h4 hwrite⟩
  · rintro w0 w1 rfl h8 hc
    exact (runHost_of_up _ hu).trans (by rw [State.hostWrite_pair h8 hc])
  · intro h
    refine ⟨(runHost_of_up _ hu).trans (by rw [State.hostWrite_each h]), ?_⟩
    rintro rfl
    exact (runHost_of_up _ hu).trans (by rw [State.hostWrite_each h])
  · exact ⟨State.writeEach_nil a be, State.writeEach_cons h4 be w ws⟩
  · exact ⟨Dev.oneAccess_refused ha, Dev.oneAccess_absent ha⟩

/-- Settles O16: each outcome is a law of the write of one dword to a control page, and a flagged access is four field writes and its
fault. -/
theorem refusedWrites : Obligations.RefusedWrites := by
  refine ⟨fun s addr be w hu ha h4 => ⟨fun hs => ?_, fun hs ht => ?_, ?_, ?_⟩, fun d i addr hi ha => ⟨?_, ?_, ?_, ?_, ?_, ?_⟩⟩
  · exact runsAccess_write rfl hu h4 (State.writeDword_shut (s := s.begin) be w ha hs)
  · exact runsAccess_write rfl hu h4 (State.writeDword_absent (s := s.begin) be w ha hs ht)
  · rintro ⟨-, hs, ht⟩ hr
    exact runsAccess_write rfl hu h4 (State.writeDword_undefined (s := s.begin) be w ha hs ht hr)
  · rintro ⟨-, hs, ht⟩ hr hb
    exact runsAccess_write rfl hu h4 (State.writeDword_narrow (s := s.begin) be w ha hs ht hr hb)
  · exact Dev.flagAccess_bit addr (lt_trans hi (by decide))
  · exact Dev.flagAccess_addr i ha
  · exact Dev.flagAccess_count i addr
  · exact Dev.flagAccess_event i addr
  · exact Dev.flagAccess_raised i addr
  · exact fun a => Dev.flagAccess_word i addr

/-! ### The image windows (R47, R54) -/

/-- The staging window lies above the control pages and below the group store and the single bits. -/
theorem staging_bounds {n : Nat} (h : n < 2 ^ 20) : (stagingBase + 4 * n) % 4 = 0 ∧ controlEnd ≤ stagingBase + 4 * n ∧
    stagingBase + 4 * n < aliasBase ∧ stagingBase + 4 * n < storeBase := by
  simp only [stagingBase, controlEnd, aliasBase, storeBase]
  omega

/-- The pending window lies above the group store and below the single bits. -/
theorem pending_bounds {n : Nat} (h : n < 2 ^ 15) : (pendingBase + 4 * n) % 4 = 0 ∧ controlEnd ≤ pendingBase + 4 * n ∧
    pendingBase + 4 * n < aliasBase ∧ ¬ pendingBase + 4 * n < storeBase := by
  simp only [pendingBase, controlEnd, aliasBase, storeBase]
  omega

/-- A dword of the staging window is an entry of that memory. -/
theorem cellAt_staging {n : Nat} (h : n < 2 ^ 20) : ∃ c, cellAt (stagingBase + 4 * n) = some c ∧ c.area = .staging := by
  have hmgt : ¬ (mgtBase ≤ stagingBase + 4 * n ∧ stagingBase + 4 * n < mgtBase + 0x20000) := by
    simp only [mgtBase, stagingBase]
    omega
  have hgate : ¬ (gateBase ≤ stagingBase + 4 * n ∧ stagingBase + 4 * n < gateBase + 0x1000 * 81) := by
    simp only [gateBase, stagingBase]
    omega
  have hin : stagingBase + 4 * n < stagingBase + 4 * 0x100000 := by omega
  simp only [cellAt, if_neg hmgt, if_neg hgate, flatAreas, List.find?_cons, Nat.le_add_right, hin, decide_true, Bool.and_self]
  exact ⟨_, rfl, rfl⟩

/-- A dword of the pending window is an entry of that memory. -/
theorem cellAt_pending {n : Nat} (h : n < 2 ^ 15) : ∃ c, cellAt (pendingBase + 4 * n) = some c ∧ c.area = .pendingWin := by
  have hmgt : ¬ (mgtBase ≤ pendingBase + 4 * n ∧ pendingBase + 4 * n < mgtBase + 0x20000) := by
    simp only [mgtBase, pendingBase]
    omega
  have hgate : ¬ (gateBase ≤ pendingBase + 4 * n ∧ pendingBase + 4 * n < gateBase + 0x1000 * 81) := by
    simp only [gateBase, pendingBase]
    omega
  have hstaging : ¬ pendingBase + 4 * n < stagingBase + 4 * 0x100000 := by
    simp only [pendingBase, stagingBase]
    omega
  have hstore : ¬ pendingBase + 4 * n < storeBase + 4 * 0x40000 := by
    simp only [pendingBase, storeBase]
    omega
  have hin : pendingBase + 4 * n < pendingBase + 4 * 0x8000 := by omega
  simp only [cellAt, if_neg hmgt, if_neg hgate, flatAreas, List.find?_cons, Nat.le_add_right, hstaging, hstore, hin, decide_true,
    decide_false, Bool.and_false, Bool.and_self]
  exact ⟨_, rfl, rfl⟩

/-- A dword above the control pages and below the single bits goes to the memories. -/
theorem State.writeDword_table {a : Nat} (h1 : controlEnd ≤ a) (h2 : a < aliasBase) (be : BitVec 4) (w : Word) :
    s.writeDword a be w = s.onDev (fun d => (d.endHold a).tableDword a be w) := by
  rw [State.writeDword, if_neg (by omega), if_neg (by omega)]

/-- The host's dword to an open window, while no warm reset runs, stores its enabled bytes there. -/
theorem State.writeDword_window {a : Nat} {c : Cellref} (hc : cellAt a = some c) (hw : c.area = .staging ∨ c.area = .pendingWin)
    (h1 : controlEnd ≤ a) (h2 : a < aliasBase) (hb : s.dev.busy = false)
    (ho : (if a < storeBase then s.dev.stagingOpen else s.dev.pendingOpen) = true) (be : BitVec 4) (w : Word) :
    s.writeDword a be w = s.onDev (fun d => enabledBytes a be w (d.endHold a)) := by
  have hb' : (s.dev.endHold a).busy = false := hb
  rw [State.writeDword_table h1 h2]
  refine State.onDev_congr ?_
  simp only [Dev.tableDword, hc, hb', Bool.false_eq_true, false_and, if_false, if_pos hw]
  exact if_pos ho

/-- A byte of a memory after one was stored there, or elsewhere. -/
theorem Dev.byte_store_one (d : Dev) (a x : Nat) (b : Byte) : (d.store a [b]).byte x = if a = x then b else d.byte x := by
  rw [Dev.byte, Dev.store, Memory.write, Memory.write]
  split
  · next h => rw [h, Memory.get_put_same]
  · next h => rw [Memory.get_put_ne _ _ h, Dev.byte]

/-- The bytes of a dword stored by their enables, in any order. -/
theorem Dev.byte_storeEach (a : Nat) (f : Nat → Byte) (l : List Nat) (d : Dev) (x : Nat) :
    (Dev.each l (fun i e => e.store (a + i) [f i]) d).byte x = if a ≤ x ∧ x - a ∈ l then f (x - a) else d.byte x := by
  induction l generalizing d with
  | nil => simp
  | cons i l ih =>
    rw [Dev.each_cons, ih, Dev.byte_store_one]
    by_cases hl : a ≤ x ∧ x - a ∈ l
    · rw [if_pos hl, if_pos ⟨hl.1, List.mem_cons_of_mem _ hl.2⟩]
    · rw [if_neg hl]
      by_cases hi : a + i = x
      · have : x - a = i := by omega
        rw [if_pos hi, if_pos ⟨by omega, this ▸ List.mem_cons_self⟩, this]
      · rw [if_neg hi, if_neg]
        rintro ⟨hx, hm⟩
        rcases List.mem_cons.1 hm with h | h
        · omega
        · exact hl ⟨hx, h⟩

theorem enabledBytes_byte (a : Nat) (be : BitVec 4) (w : Word) (d : Dev) (x : Nat) : (enabledBytes a be w d).byte x =
    if a ≤ x ∧ x - a < 4 ∧ be.getLsbD (x - a) = true then BitVec.ofNat 8 (w.toNat / 256 ^ (x - a)) else d.byte x := by
  rw [enabledBytes, Dev.byte_storeEach a (fun i => BitVec.ofNat 8 (w.toNat / 256 ^ i))]
  simp only [List.mem_filter, List.mem_range]

/-- Settles O12: a dword of a window is an entry of that window's memory, and the enabled bytes are stored each at its own address. -/
theorem imageWindows : Obligations.ImageWindows := by
  intro s be data hu hb
  refine ⟨fun index hopen => ?_, fun index hopen => ?_, fun a d => ⟨fun x hx => ?_, fun i hi => ?_⟩⟩
  · obtain ⟨c, hc, hca⟩ := cellAt_staging index.isLt
    obtain ⟨h4, h1, h2, hst⟩ := staging_bounds index.isLt
    exact runsAccess_write rfl hu h4
      (State.writeDword_window (s := s.begin) hc (.inl hca) h1 h2 hb ((if_pos hst).trans hopen) be data)
  · obtain ⟨c, hc, hca⟩ := cellAt_pending index.isLt
    obtain ⟨h4, h1, h2, hst⟩ := pending_bounds index.isLt
    exact runsAccess_write rfl hu h4
      (State.writeDword_window (s := s.begin) hc (.inr hca) h1 h2 hb ((if_neg hst).trans hopen) be data)
  · rw [enabledBytes_byte, if_neg (by omega)]
  · rw [enabledBytes_byte, Nat.add_sub_cancel_left, if_pos ⟨Nat.le_add_right _ _, i.isLt, hi⟩]

end Sys2Proof.Machine
end

section
/-! PROOFS. The family of the structure image, block resets and port resets: their requests, their refusals, their ends. -/

namespace Sys2Proof.Machine

variable {s : State}

/-! ### The bits a write names -/

/-- The bits of a word, from the lowest on. -/
theorem bitList_toNat (n : Nat) (w : Word) : bitList n w.toNat = (List.range n).filter (fun i => w.getLsbD i) :=
  List.filter_congr fun _ _ => BitVec.testBit_toNat w

/-- A word with no bit outside a mask is what the mask lets through. -/
theorem and_mask_of_named {w m : Word} (h : w &&& ~~~m = 0#32) : w &&& m = w := by
  refine BitVec.eq_of_getLsbD_eq fun i hi => ?_
  have hbit : (w.getLsbD i && !m.getLsbD i) = false := by simpa [hi] using congrArg (fun x : Word => x.getLsbD i) h
  rw [BitVec.getLsbD_and]
  cases hw : w.getLsbD i with
  | false => rfl
  | true => simpa [hw] using hbit

/-- A word below 2^24 has no bit that TOP_BLK_RST does not name. -/
theorem blockBits_named {w : Word} (h : w.toNat < 2 ^ 24) : w &&& ~~~(namedAt R.TOP_BLK_RST) = 0#32 := by
  have hn : namedAt R.TOP_BLK_RST = fieldMask 0 24 := by decide
  refine BitVec.eq_of_getLsbD_eq fun i hi => ?_
  rw [hn, BitVec.getLsbD_and, BitVec.getLsbD_not, getLsbD_fieldMask, BitVec.getLsbD_zero]
  by_cases h24 : i < 24
  · simp [h24, hi]
  · have hw : w.getLsbD i = false := Nat.testBit_lt_two_pow (lt_of_lt_of_le h (Nat.pow_le_pow_right (by decide) (by omega)))
    simp [hw]

/-- Every bit of the two port reset registers is named. -/
theorem portBits_named (w : Word) (high : Bool) :
    w &&& ~~~(namedAt (if high then R.TOP_PORT_RST_1 else R.TOP_PORT_RST_0)) = 0#32 := by
  have hn : namedAt (if high then R.TOP_PORT_RST_1 else R.TOP_PORT_RST_0) = BitVec.allOnes 32 := by
    cases high <;> decide
  rw [hn, BitVec.not_allOnes, BitVec.and_zero]

/-! ### Requests -/

/-- A write of TOP_BLK_RST is the request of each block it names (R74). -/
theorem runs_blockReset {blocks : Word} (h : s.Reaches R.TOP_BLK_RST) (hw : blocks.toNat < 2 ^ 24) :
    Runs (.blockReset blocks) s (fun d => (d.touched R.TOP_BLK_RST).writeBlockReset blocks) := by
  have hn := blockBits_named hw
  refine runHost_starts (b := R.TOP_BLK_RST) (i := 0) h (by decide) ?_ fun d => ?_
  · rw [BitVec.ofNat_toNat, BitVec.setWidth_eq]
    exact hn
  · rw [BitVec.ofNat_toNat, BitVec.setWidth_eq, and_mask_of_named hn]
    rfl

/-- A write of a port reset register is the request of each port it names (R74). -/
theorem runs_portReset {high : Bool} {ports : Word} (h : s.Reaches (if high then R.TOP_PORT_RST_1 else R.TOP_PORT_RST_0)) :
    Runs (.portReset high ports) s (fun d =>
      (d.touched (if high then R.TOP_PORT_RST_1 else R.TOP_PORT_RST_0)).writePortReset high ports) := by
  have hn := portBits_named ports high
  refine runHost_starts (b := if high then R.TOP_PORT_RST_1 else R.TOP_PORT_RST_0) (i := 0) h (by cases high <;> decide) ?_
    fun d => ?_
  · rw [BitVec.ofNat_toNat, BitVec.setWidth_eq]
    exact hn
  · rw [BitVec.ofNat_toNat, BitVec.setWidth_eq, and_mask_of_named hn]
    cases high <;> rfl

/-- A word with the bit of one block alone names that block alone. -/
theorem bitList_block (pg : Fin 24) : bitList 24 (BitVec.ofNat 32 (2 ^ pg.val)).toNat = [pg.val] := by
  revert pg
  decide

/-- A word with one bit alone names that bit alone. -/
theorem bitList_port (i : Fin 32) : bitList 32 (BitVec.ofNat 32 (2 ^ i.val)).toNat = [i.val] := by
  revert i
  decide

theorem blockBit_lt (pg : Fin 24) : (BitVec.ofNat 32 (2 ^ pg.val)).toNat < 2 ^ 24 := by
  revert pg
  decide

theorem Dev.writeBlockReset_one (d : Dev) (pg : Fin 24) : d.writeBlockReset (BitVec.ofNat 32 (2 ^ pg.val)) =
    if !blockResettable pg then d.put F.TOP_RST_CTRL_refused 1
    else if !d.blockPresent pg then d.absentWrite R.TOP_BLK_RST
    else d.blockRequest pg := by
  rw [Dev.writeBlockReset, bitList_block]
  rfl

theorem Dev.writePortReset_one (d : Dev) (p : Fin 64) :
    d.writePortReset (decide (32 ≤ p.val)) (BitVec.ofNat 32 (2 ^ (p.val % 32))) =
      if d.portPresent p then d.portRequest p else d.absentWrite (portRstReg p) := by
  have hp : p.val % 32 + 32 * bit (decide (32 ≤ p.val)) = p.val := by
    by_cases h : 32 ≤ p.val
    · simp only [h, decide_true, bit, if_true]
      omega
    · simp only [h, decide_false, bit, Bool.false_eq_true, if_false]
      omega
  rw [Dev.writePortReset, bitList_port ⟨p.val % 32, Nat.mod_lt _ (by decide)⟩, List.map_singleton, hp]
  rfl

/-- A block that nothing holds starts its reset at once (R58, R75). -/
theorem Dev.blockRequest_start {d : Dev} {pg : Nat} (hu : d.held = false) (hb : d.busy = false)
    (hr : d.bitAt R.TOP_BLK_RST pg = false) (hw : d.blockWaits pg = false) : d.blockRequest pg = d.blockStart pg := by
  simp [Dev.blockRequest, hu, hb, hr, hw]

/-- A port that nothing holds starts its reset at once (R58, R76). -/
theorem Dev.portRequest_start {d : Dev} {p : Nat} (hu : d.held = false) (hb : d.busy = false)
    (hr : d.bitAt (portRstReg p) (p % 32) = false) (hpr : d.prRunning = false) : d.portRequest p = d.portStart p := by
  simp [Dev.portRequest, hu, hb, hr, hpr]

/-- The port reset register of a port is that of its half. -/
theorem portRstReg_half (p : Nat) : (if decide (32 ≤ p) then R.TOP_PORT_RST_1 else R.TOP_PORT_RST_0) = portRstReg p := by
  by_cases h : 32 ≤ p
  · simp [portRstReg, h]
  · simp [portRstReg, h, Nat.lt_of_not_le h]

/-! ### Ends -/

/-- A block reset that runs ends (R68, R504). -/
theorem State.blockDone_runs {pg : Nat} (h : s.dev.blockInReset pg = true) :
    s.blockDone pg = (((s.onDev (Dev.blockEnd pg)).completed (.block pg)).onDev Dev.haltNow).fltSync := by
  simp [State.blockDone, h]

/-- A port reset that is not held ends: its bit clears and the port starts again (R76). -/
theorem Dev.portEnd_runs {d : Dev} {p : Nat} (hb : d.bitAt (portRstReg p) (p % 32) = true) (hh : d.rst.heldPorts.contains p = false) :
    d.portEnd p = (d.setBit (portRstReg p) (p % 32) false).portRestart true p := by
  refine if_neg ?_
  rw [hb, hh]
  decide

/-- Settles O9: a write names the blocks or ports by its bits, each is requested by itself, and a request that nothing holds starts. -/
theorem partResets : Obligations.PartResets := by
  intro s
  refine ⟨fun blocks h hw => ?_, fun high ports h => ?_, fun pg h hr hp hb hbit hwait => ?_, fun pg h hr => ?_,
    fun p h hp hb hbit hpr => ?_, fun pg hu hr => ?_, fun p hu hb hh => ?_⟩
  · refine runs_congr (runs_blockReset h hw) ?_
    simp only [Dev.writeBlockReset, bitList_toNat, Bool.not_eq_true']
  · refine runs_congr (runs_portReset h) ?_
    rw [Dev.writePortReset, bitList_toNat]
    cases high <;> rfl
  · refine runs_congr (runs_blockReset h (blockBit_lt pg)) ?_
    have hpres : (s.begin.dev.touched R.TOP_BLK_RST).blockPresent pg = true := hp
    rw [Dev.writeBlockReset_one, hr, hpres]
    exact Dev.blockRequest_start h.1 hb hbit hwait
  · refine runs_congr (runs_blockReset h (blockBit_lt pg)) ?_
    rw [Dev.writeBlockReset_one, hr]
    rfl
  · rw [← portRstReg_half] at h
    refine runs_congr (runs_portReset h) ?_
    rw [portRstReg_half, Dev.writePortReset_one]
    exact (if_pos hp).trans (Dev.portRequest_start h.1 hb hbit hpr)
  · exact (runHost_of_up _ hu).trans (by rw [State.blockDone_runs (s := s.begin) hr])
  · exact runUp_as hu (congrArg Dev.haltNow (Dev.portEnd_runs (d := s.begin.dev) hb hh))

end Sys2Proof.Machine
end

section
/-! PROOFS. The family of the structure image, admission: what leaves the queues alone, the frames taken up, the copies created. -/

namespace Sys2Proof.Machine

variable {s : State} {d : Dev}

/-! ### What leaves the queues, the transmissions and the gates alone -/

/-- What each of some changes keeps, all of them in turn keep. -/
theorem Dev.each_keeps {α β : Type} (g : Dev → β) (f : α → Dev → Dev) (hf : ∀ x d, g (f x d) = g d) (l : List α) (d : Dev) :
    g (Dev.each l f d) = g d := by
  induction l generalizing d with
  | nil => rfl
  | cons x l ih => rw [Dev.each_cons, ih, hf]

/-- What a change keeps, the change under a condition keeps. -/
theorem Dev.when_keeps {β : Type} (g : Dev → β) {f : Dev → Dev} {d : Dev} (hf : g (f d) = g d) (c : Bool) : g (d.when c f) = g d := by
  cases c with
  | false => rfl
  | true => exact hf

@[simp] theorem Dev.bump_qsc (i n : Nat) : (d.bump i n).qsc = d.qsc := by
  simp only [Dev.bump]
  split <;> rfl

@[simp] theorem Dev.count_qsc (i n : Nat) : (d.count i n).qsc = d.qsc := by
  simp only [Dev.count]
  split
  · rfl
  · split
    · exact Dev.bump_qsc _ _
    · split
      · exact (Dev.draw_qsc _).trans (Dev.bump_qsc _ _)
      · exact Dev.bump_qsc _ _

@[simp] theorem Dev.countDrop_qsc (p r : Nat) : (d.countDrop p r).qsc = d.qsc := by
  simp only [Dev.countDrop]
  split
  · exact (Dev.when_keeps Dev.qsc (Dev.count_qsc _ _) _).trans (Dev.count_qsc _ _)
  · rfl

@[simp] theorem Dev.sample_qsc (j : Nat) : (d.sample j).1.qsc = d.qsc := by
  simp only [Dev.sample]
  split
  · split <;> rfl
  · rfl

@[simp] theorem Dev.trigger_qsc : d.trigger.qsc = d.qsc := (rfl)

@[simp] theorem Dev.capture_qsc (c : Candidate) (rule : Nat) (trig : Bool) : (d.capture c rule trig).qsc = d.qsc := by
  simp only [Dev.capture]
  split
  · rfl
  · split
    · exact (Dev.when_keeps Dev.qsc rfl _).trans (Dev.count_qsc _ _)
    · exact (Dev.when_keeps Dev.qsc rfl _).trans (Dev.count_qsc _ _)

@[simp] theorem Dev.candidate_qsc (c : Candidate) : (d.candidate c).qsc = d.qsc := by
  simp only [Dev.candidate]
  split
  · rfl
  · split
    · rfl
    · next j _ =>
      split
      · exact (Dev.capture_qsc _ _ _).trans (Dev.trigger_qsc.trans (Dev.sample_qsc j))
      · split
        · exact (Dev.capture_qsc _ _ _).trans (Dev.sample_qsc j)
        · exact Dev.sample_qsc j

@[simp] theorem Dev.syncTxq_qsc : d.syncTxq.qsc = d.qsc := by
  simp only [Dev.syncTxq]
  split <;> rfl

@[simp] theorem Dev.pushStamp_qsc (e : TxStamp) : (d.pushStamp e).qsc = d.qsc := by
  simp only [Dev.pushStamp]
  split
  · split <;> rfl
  · exact Dev.syncTxq_qsc.trans <| (Dev.when_keeps Dev.qsc rfl _).trans (Dev.when_keeps Dev.qsc rfl _)

@[simp] theorem Dev.unsentStamp_qsc (f : Frame) (p : Nat) : (d.unsentStamp f p).qsc = d.qsc :=
  Dev.when_keeps Dev.qsc (Dev.pushStamp_qsc _) _

@[simp] theorem Dev.retag_qsc (f : Frame) (tag : Nat) (mcast : Bool) : (d.retag f tag mcast).qsc = d.qsc := by
  simp only [Dev.retag]
  split <;> split <;> rfl

@[simp] theorem Dev.enqueueAction_qsc (i : Nat) : (d.enqueueAction i).qsc = d.qsc := by
  simp only [Dev.enqueueAction]
  split
  · rfl
  · refine (Dev.each_keeps Dev.qsc _ (fun p e => ?_) _ _).trans (Dev.retag_qsc _ _ _)
    rw [Dev.unsentStamp_qsc, Dev.candidate_qsc, Dev.countDrop_qsc]

@[simp] theorem Dev.setFrame_qsc (i : Nat) (f : Frame) : (d.setFrame i f).qsc = d.qsc := (rfl)
@[simp] theorem Dev.addCells_qsc (p q : Nat) (n : Int) : (d.addCells p q n).qsc = d.qsc := (rfl)

@[simp] theorem Dev.leaveState_qsc (i : Nat) : (d.leaveState i).qsc = d.qsc := by
  simp only [Dev.leaveState]
  split
  · exact Dev.count_qsc _ _
  · rfl

@[simp] theorem Dev.enterState_qsc (i : Nat) : (d.enterState i).qsc = d.qsc := by
  simp only [Dev.enterState]
  split
  · rfl
  · exact Dev.count_qsc _ _

@[simp] theorem Dev.setLaneState_qsc (l x : Nat) : (d.setLaneState l x).qsc = d.qsc := by
  simp only [Dev.setLaneState]
  split
  · rfl
  · exact (Dev.when_keeps Dev.qsc (Dev.enterState_qsc _) _).trans (Dev.when_keeps Dev.qsc (Dev.leaveState_qsc _) _)

@[simp] theorem Dev.leaveL1_qsc (p : Nat) : (d.leaveL1 p).qsc = d.qsc := by
  simp only [Dev.leaveL1]
  split
  · rfl
  · refine Dev.each_keeps Dev.qsc _ (fun l e => ?_) _ _
    split
    · exact Dev.setLaneState_qsc _ _
    · rfl

@[simp] theorem Dev.setFlowWord_qsc (n k v : Nat) : (d.setFlowWord n k v).qsc = d.qsc := (rfl)

@[simp] theorem Dev.setSkState_qsc (n x : Nat) : (d.setSkState n x).qsc = d.qsc := by
  simp only [Dev.setSkState, Dev.put_qsc, Dev.setFlowWord_qsc]

@[simp] theorem Dev.setSkDue_qsc (n t : Nat) : (d.setSkDue n t).qsc = d.qsc := by
  simp only [Dev.setSkDue, Dev.setFlowWord_qsc]

@[simp] theorem Dev.skEvent_qsc (k n : Nat) : (d.skEvent k n).qsc = d.qsc := (rfl)

@[simp] theorem Dev.skReal_qsc (n p q : Nat) (f : Frame) : (d.skReal n p q f).qsc = d.qsc := by
  simp only [Dev.skReal]
  split
  · rfl
  · rw [Dev.setSkState_qsc, Dev.when_keeps Dev.qsc (Dev.skEvent_qsc 2 n)]
    split <;> rw [Dev.setFlowWord_qsc, Dev.setSkDue_qsc]

/-- A preemption moves the copy in transmission; the queues stay (R252). -/
theorem Dev.preemptCheck_queue (p a b : Nat) : (d.preemptCheck p).queue a b = d.queue a b := by
  refine Dev.when_keeps (fun e : Dev => e.queue a b) ?_ _
  simp only [Dev.preempt]
  split
  · rfl
  · split <;> rfl

/-! ### Queues -/

theorem Dev.queue_congr {d e : Dev} (h : d.qsc = e.qsc) (p q : Nat) : d.queue p q = e.queue p q := by
  rw [Dev.queue, Dev.queue, h]

theorem Dev.queue_setQueue (p q : Nat) (l : List Copy) : (d.setQueue p q l).queue p q = l := by
  by_cases h : l = []
  · simp [Dev.setQueue, Dev.queue, Sparse.getD, h, Sparse.get?_del_same]
  · simp [Dev.setQueue, Dev.queue, Sparse.getD, h]

/-- A copy goes to the tail of its queue. -/
theorem Dev.queue_enqueue (p q : Nat) (c : Copy) : (d.enqueue p q c).queue p q = d.queue p q ++ [c] :=
  (Dev.queue_congr (Dev.leaveL1_qsc p) p q).trans (Dev.queue_setQueue p q _)

/-- A copy goes to the tail of its queue as it stood before what leaves the queues alone. -/
theorem Dev.queue_enqueue_after {d e : Dev} (h : e.qsc = d.qsc) (p q : Nat) (c : Copy) :
    (e.enqueue p q c).queue p q = d.queue p q ++ [c] := by
  rw [Dev.queue_enqueue, Dev.queue_congr h]

/-! ### Frames taken up (R183, R232) -/

theorem Dev.admitNext_takes {i : Nat} {rest : List Nat} {f : Frame} (hq : d.flag F.TOP_READY_qsc = true) (hf : d.frame? i = some f)
    (hc : d.bpm.creating = []) (hh : d.bpm.handed = i :: rest) (hb : f.bad ≠ chainFailed) :
    d.admitNext = ({ d with bpm := { d.bpm with handed := rest } }).createCopies i := by
  have hf' : ({ d with bpm := { d.bpm with handed := rest } } : Dev).frame? i = some f := hf
  have hb' : ({ d with bpm := { d.bpm with handed := rest } } : Dev).frame i = f := by rw [Dev.frame, hf', Option.getD_some]
  rw [Dev.admitNext, if_neg (by simp [hq, hc]), hh]
  refine (if_neg ?_).trans (if_neg ?_)
  · rw [hf']
    exact Bool.false_ne_true
  · rw [hb']
    exact hb

theorem Dev.admitNext_waits (hc : d.bpm.creating ≠ []) : d.admitNext = d := if_pos (.inr hc)

theorem Dev.createMore_goesOn {i : Nat} {rest : List Nat} {f : Frame} (hq : d.flag F.TOP_READY_qsc = true) (hf : d.frame? i = some f)
    (hc : d.bpm.creating = i :: rest) : d.createMore = d.createCopies i := by
  simp [Dev.createMore, hq, hc, hf]

/-! ### Copies created (R235–R237, R254, R259, R407) -/

/-- A launch time beyond the horizon, in the terms of the registers (R259). -/
theorem Dev.beyondHorizon_iff (p : Nat) (launch : Option Nat) : d.beyondHorizon p launch = true ↔
    ∃ t, launch = some t ∧ p ≠ 64 ∧ d.get (F.QSC_LAUNCH_horizon p) ≠ 0 ∧ d.timeReady = true ∧
      d.now + d.get (F.QSC_LAUNCH_horizon p) * 8000 * 65536 < t := by
  cases launch with
  | none => simp [Dev.beyondHorizon]
  | some t => simp [Dev.beyondHorizon, and_assoc]

/-- A launch time within the horizon, or to which none applies. -/
theorem Dev.beyondHorizon_eq_false {p : Nat} {launch : Option Nat} (h : ∀ t, launch = some t →
    p = 64 ∨ d.get (F.QSC_LAUNCH_horizon p) = 0 ∨ d.timeReady = false ∨ t ≤ d.now + d.get (F.QSC_LAUNCH_horizon p) * 8000 * 65536) :
    d.beyondHorizon p launch = false := by
  rw [Bool.eq_false_iff, ne_eq, Dev.beyondHorizon_iff]
  rintro ⟨t, hl, hp, hz, ht, hlt⟩
  rcases h t hl with h | h | h | h
  · exact hp h
  · exact hz h
  · simp [ht] at h
  · omega

section
variable {i : Nat} {c : CopyRef}

theorem Dev.createCopy_quiescing (h : d.quiescing (portGroup c.port) = true) :
    d.createCopy i c = (d.enqueueAction i).dropCopy i c.port c.queue 0x24 0 false := if_pos h

variable (hq : d.quiescing (portGroup c.port) = false)
include hq

theorem Dev.createCopy_overLimit (h : d.queueLimit c.port c.queue < d.get (F.BPM_QCELLS c.port c.queue) + (d.frame i).cells) :
    d.createCopy i c = d.refuse i c.port c.queue := by
  simp only [Dev.createCopy, hq, Bool.false_eq_true, if_false, if_pos h]

variable (hl : d.get (F.BPM_QCELLS c.port c.queue) + (d.frame i).cells ≤ d.queueLimit c.port c.queue)
include hl

theorem Dev.createCopy_notReady (hr : d.portReady c.port = false) : d.createCopy i c =
    (d.enqueueAction i).dropCopy i c.port c.queue (if c.port = 64 then 0x27 else 0x25) 0 false := by
  simp only [Dev.createCopy, hq, Bool.false_eq_true, if_false, if_neg (Nat.not_lt.2 hl), hr, Bool.not_false, if_true]

variable (hr : d.portReady c.port = true)
include hr

theorem Dev.createCopy_standsBy (hs : d.standsBy c.port = true) :
    d.createCopy i c = (d.enqueueAction i).dropCopy i c.port c.queue 0x38 0 false := by
  simp only [Dev.createCopy, hq, Bool.false_eq_true, if_false, if_neg (Nat.not_lt.2 hl), hr, Bool.not_true, hs, if_true]

variable (hs : d.standsBy c.port = false)
include hs

theorem Dev.createCopy_beyond (hb : d.beyondHorizon c.port ((d.frame i).act.getD {}).launch = true) :
    d.createCopy i c = (d.enqueueAction i).dropCopy i c.port c.queue 0x31 0 false := by
  simp only [Dev.createCopy, hq, Bool.false_eq_true, if_false, if_neg (Nat.not_lt.2 hl), hr, Bool.not_true, hs, hb, if_true]

variable (hb : d.beyondHorizon c.port ((d.frame i).act.getD {}).launch = false)
include hb

theorem Dev.createCopy_bad (h : (d.frame i).bad ≠ 0) :
    d.createCopy i c = (d.enqueueAction i).dropCopy i c.port c.queue (d.frame i).bad 0 false := by
  simp only [Dev.createCopy, hq, Bool.false_eq_true, if_false, if_neg (Nat.not_lt.2 hl), hr, Bool.not_true, hs, hb, if_pos h]

/-- A copy that nothing stops goes to the tail of its queue (R236, R253). -/
theorem Dev.createCopy_admitted (h : (d.frame i).bad = 0) : ∃ x : Copy,
    (d.createCopy i c).queue c.port c.queue = d.queue c.port c.queue ++ [x] ∧ x.frame = i ∧ x.holder = none ∧
      x.launch = ((d.frame i).act.getD {}).launch := by
  have hqsc := Dev.enqueueAction_qsc (d := d) i
  simp only [Dev.createCopy, hq, Bool.false_eq_true, if_false, if_neg (Nat.not_lt.2 hl), hr, Bool.not_true, hs, hb, h, ne_eq,
    not_true_eq_false, Dev.preemptCheck_queue]
  cases ((d.frame i).act.getD {}).ctx with
  | none => exact ⟨_, Dev.queue_enqueue_after (by rw [Dev.addCells_qsc, Dev.setFrame_qsc, hqsc]) _ _ _, rfl, rfl, rfl⟩
  | some n =>
    exact ⟨_, (Dev.queue_congr (Dev.skReal_qsc n _ _ _) _ _).trans
      (Dev.queue_enqueue_after (by rw [Dev.addCells_qsc, Dev.setFrame_qsc, hqsc]) _ _ _), rfl, rfl, rfl⟩

end

/-- Settles O33: admission takes up the oldest frame or waits, and each reason that stops a copy is one branch of its creation. -/
theorem copyAdmission : Obligations.CopyAdmission := by
  refine ⟨fun s i rest f hu hq hf => ⟨fun hc hh hb => ?_, fun hc => ?_, fun hc => ?_⟩, fun d i c => ⟨Dev.createCopy_quiescing,
    fun hg => ⟨Dev.createCopy_overLimit hg, fun hl => ⟨Dev.createCopy_notReady hg hl, Dev.createCopy_standsBy hg hl,
      fun hr hs => ⟨fun hbeyond => ?_, fun hwithin => ?_⟩⟩⟩⟩⟩
  · exact runUp_as hu (Dev.admitNext_takes (d := s.begin.dev) hq hf hc hh hb)
  · exact runUp_as hu (Dev.admitNext_waits (d := s.begin.dev) hc)
  · exact runUp_as hu (Dev.createMore_goesOn (d := s.begin.dev) hq hf hc)
  · exact Dev.createCopy_beyond hg hl hr hs ((Dev.beyondHorizon_iff _ _).2 hbeyond)
  · have hb := Dev.beyondHorizon_eq_false hwithin
    exact ⟨Dev.createCopy_bad hg hl hr hs hb, Dev.createCopy_admitted hg hl hr hs hb⟩

end Sys2Proof.Machine
end

section
/-! PROOFS. The family of the structure image: full loads from flash and from the host, the lock, partial re-structures. -/

namespace Sys2Proof.Machine

variable {s : State} {d : Dev}

/-! ### Fields read back -/

/-- A one-bit field written 1 is set. -/
theorem Dev.flag_put_one {f : Fld} (hw : f.width = 1) (h : f.lsb + f.width ≤ 32) : (d.put f 1).flag f = true := by
  rw [Dev.flag_put_same _ _ _ h, hw]
  rfl

/-! ### Writes of IMG_CTRL -/

/-- The options of a partial re-structure as a write of IMG_CTRL leaves them. -/
def Dev.prOptions (g flush loss : Nat) (d : Dev) : Dev :=
  ((d.put F.IMG_CTRL_pr_group g).put F.IMG_CTRL_pr_flush flush).put F.IMG_CTRL_allow_ref_loss loss

theorem Dev.writeImgCtrl_startFull {w : Word} (h0 : w.getLsbD 0 = true) (h1 : w.getLsbD 1 = false) (h5 : w.getLsbD 5 = false) :
    d.writeImgCtrl w = (d.prOptions (bits w 2 3) (bits w 6 1) (bits w 7 1)).startFull := by
  simp only [Dev.writeImgCtrl, h0, h1, h5, Bool.false_eq_true, if_false, if_true, Dev.prOptions]

theorem Dev.writeImgCtrl_lock {w : Word} (h0 : w.getLsbD 0 = false) (h1 : w.getLsbD 1 = true) (h5 : w.getLsbD 5 = false) :
    d.writeImgCtrl w = (d.prOptions (bits w 2 3) (bits w 6 1) (bits w 7 1)).setLock := by
  simp only [Dev.writeImgCtrl, h0, h1, h5, Bool.false_eq_true, if_false, if_true, Dev.prOptions]

theorem Dev.writeImgCtrl_prStart {w : Word} (h0 : w.getLsbD 0 = false) (h1 : w.getLsbD 1 = false) (h5 : w.getLsbD 5 = true) :
    d.writeImgCtrl w = (d.prOptions (bits w 2 3) (bits w 6 1) (bits w 7 1)).prStart (bits w 2 3) (w.getLsbD 6) (w.getLsbD 7) := by
  simp only [Dev.writeImgCtrl, h0, h1, h5, Bool.false_eq_true, if_false, if_true, Dev.prOptions]

theorem Dev.prOptions_word (g flush loss : Nat) {a : Nat} (h : R.IMG_CTRL ≠ a) : (d.prOptions g flush loss).word a = d.word a := by
  rw [Dev.prOptions, Dev.word_put_ne _ _ h, Dev.word_put_ne _ _ h, Dev.word_put_ne _ _ h]

theorem Dev.prOptions_get (g flush loss : Nat) {f : Fld} (h : R.IMG_CTRL ≠ f.addr) : (d.prOptions g flush loss).get f = d.get f := by
  rw [Dev.get, Dev.prOptions_word _ _ _ h, Dev.get]

theorem namedAt_imgCtrl : namedAt R.IMG_CTRL = 0xFF#32 := by decide

/-- The bits of IMG_CTRL that a host reads back and writes as it found them: the options (R60). -/
theorem Dev.settableBits_imgCtrl : d.settableBits R.IMG_CTRL = d.word R.IMG_CTRL &&& 0xDC#32 :=
  Dev.settableBits_of (i := (0, 0)) (by rfl) (by decide)

/-- A write of one strobe of IMG_CTRL: the options as they stand and the bit written. -/
def strobeWord (d : Dev) (k : Nat) : Word := setBits (d.settableBits R.IMG_CTRL) k 1 1

theorem strobeWord_bit (k i : Nat) (hi : i < 32) : (strobeWord d k).getLsbD i =
    if i = k then true else (d.word R.IMG_CTRL).getLsbD i && (0xDC#32).getLsbD i := by
  rw [strobeWord, getLsbD_setBits, Dev.settableBits_imgCtrl, BitVec.getLsbD_and]
  by_cases h : i = k
  · subst h
    simp [hi]
  · rw [if_neg h, if_neg (by omega)]

theorem strobeWord_named {k : Nat} (hk : k < 8) : strobeWord d k &&& ~~~(namedAt R.IMG_CTRL) = 0#32 := by
  refine BitVec.eq_of_getLsbD_eq fun i hi => ?_
  have hout : ∀ j : Fin 32, 8 ≤ j.val → (0xDC#32).getLsbD j.val = false := by decide
  have hin : ∀ j : Fin 32, j.val < 8 → (0xFF#32).getLsbD j.val = true := by decide
  rw [namedAt_imgCtrl, BitVec.getLsbD_and, BitVec.getLsbD_not, strobeWord_bit k i hi, BitVec.getLsbD_zero]
  by_cases h : i < 8
  · simp [hin ⟨i, hi⟩ h]
  · have := hout ⟨i, hi⟩ (by simpa using h)
    rw [if_neg (by omega), this]
    simp

/-- A command that writes one strobe of IMG_CTRL does what the write of that strobe does. -/
theorem runHost_strobe {k : Nat} (h : s.Reaches R.IMG_CTRL) (hk : k < 8) : runHost (State.writeField ⟨R.IMG_CTRL, k, 1⟩ 1) s =
    .next (s.begin.onDev (fun d => (d.touched R.IMG_CTRL).writeImgCtrl (strobeWord s.begin.dev k))).commit := by
  have hn := strobeWord_named (d := s.begin.dev) hk
  rw [runHost_field _ _ h.1]
  refine runHost_starts (b := R.IMG_CTRL) (i := 0) h (show startsOp R.IMG_CTRL R.IMG_CTRL 0 = true by decide) ?_ fun d => ?_
  · rw [BitVec.ofNat_toNat, BitVec.setWidth_eq]
    exact hn
  · rw [BitVec.ofNat_toNat, BitVec.setWidth_eq]
    exact (congrArg (Dev.special d R.IMG_CTRL 0) (and_mask_of_named hn)).trans rfl


/-! ### What ends a load (R42, R45, R47) -/

theorem Dev.loadFails_fields {r : Nat} (hr : r < 256) : (d.loadFails r).get F.IMG_STATUS_reason = r ∧
    (d.loadFails r).get F.IMG_STATUS_state = Img.failed ∧ (d.loadFails r).img = d.img ∧
      (d.loadFails r).flag ⟨R.IMG_EVENT, 1, 1⟩ = true := by
  refine ⟨?_, ?_, rfl, ?_⟩
  · rw [Dev.loadFails, Dev.fault_eq, Dev.get_raise, Dev.get_put_apart _ _ (by decide), Dev.get_put_apart _ _ (by decide),
      Dev.get_put_fits _ (by decide) hr]
  · rw [Dev.loadFails, Dev.fault_eq, Dev.get_raise, Dev.get_put_apart _ _ (by decide), Dev.get_put_apart _ _ (by decide),
      Dev.get_put_apart _ _ (by decide), Dev.get_put_fits _ (by decide) (by decide)]
  · rw [Dev.loadFails, Dev.fault_eq, Dev.flag_raise, Dev.flag_put_one rfl (by decide)]

/-- Slot A that fails leaves its reason, and slot B is read. -/
theorem Dev.flashSlotFails_first {r : Nat} (hr : r < 256) : (d.flashSlotFails r 0).get F.IMG_STATUS_reason = r ∧
    (d.flashSlotFails r 0).get F.IMG_STATUS_state = Img.loading ∧ (d.flashSlotFails r 0).img.reading = some 1 := by
  refine ⟨?_, ?_, rfl⟩
  · refine (Dev.get_put_apart _ _ (by decide)).trans ((Dev.get_put_apart _ _ (by decide)).trans ?_)
    exact Dev.get_put_fits _ (by decide) hr
  · exact (Dev.get_put_apart _ _ (by decide)).trans (Dev.get_put_fits _ (by decide) (by decide))

/-- Slot B that fails ends the load. -/
theorem Dev.flashSlotFails_last {slot : Nat} (h : slot ≠ 0) (r : Nat) :
    d.flashSlotFails r slot = ({ d with img := { d.img with reading := none } }).loadFails r := if_neg h

theorem Dev.flashTimeout_reading {slot : Nat} (h : d.img.reading = some slot) : d.flashTimeout = d.flashSlotFails 0x11 slot := by
  rw [Dev.flashTimeout, h]

/-! ### A slot read (R45) -/

/-- The device with what was read of a slot in the staging memory. -/
def Dev.slotStaged (image : List Byte) (d : Dev) : Dev :=
  (d.clearMem stagingBase storeBase).store stagingBase (if (checkHeader image).isSome then image.take 256 else image.take 4194304)

section
variable {slot : Nat} {image : List Byte} (h : d.img.reading = some slot)
include h

theorem Dev.slotRead_applies (hr : (d.slotStaged image).fullReason = none) : d.slotRead image =
    ({ d.slotStaged image with img := { (d.slotStaged image).img with reading := none } }).applyFull (d.slotStaged image).staged := by
  rw [Dev.slotStaged] at hr
  simp only [Dev.slotRead, h, hr, Dev.slotStaged]

theorem Dev.slotRead_fails {r : Nat} (hr : (d.slotStaged image).fullReason = some r) : d.slotRead image =
    if (d.slotStaged image).refusesImages then
      ({ d.slotStaged image with img := { (d.slotStaged image).img with reading := none } }).loadFails r
    else (d.slotStaged image).flashSlotFails r slot := by
  rw [Dev.slotStaged] at hr
  simp only [Dev.slotRead, h, hr]
  rfl

end

/-! ### A load from the host (R47) -/

section
variable (h : d.get F.IMG_STATUS_state = Img.empty ∨ d.get F.IMG_STATUS_state = Img.failed)
include h

theorem Dev.startFull_applies (hr : (d.put F.IMG_STATUS_source 2).fullReason = none) :
    d.startFull = (d.put F.IMG_STATUS_source 2).applyFull (d.put F.IMG_STATUS_source 2).staged := by
  simp only [Dev.startFull, if_pos h, hr]

theorem Dev.startFull_fails {r : Nat} (hr : (d.put F.IMG_STATUS_source 2).fullReason = some r) :
    d.startFull = (d.put F.IMG_STATUS_source 2).loadFails r := by
  simp only [Dev.startFull, if_pos h, hr]

end

/-- Over an applied image or a load a start is refused (R47). -/
theorem Dev.startFull_refused (h : d.get F.IMG_STATUS_state ≠ Img.empty) (h' : d.get F.IMG_STATUS_state ≠ Img.failed) :
    d.startFull = (d.put F.IMG_STATUS_reason (if d.get F.IMG_STATUS_state = Img.appliedSt then 0x12 else 0x0E)).fault R.IMG_EVENT 1
      E.IMG_FAIL 0 := if_neg (not_or.2 ⟨h, h'⟩)

/-- What a refused start leaves: its reason, the event and the fault. -/
theorem Dev.startRefused_fields {r : Nat} (hr : r < 256) :
    ((d.put F.IMG_STATUS_reason r).fault R.IMG_EVENT 1 E.IMG_FAIL 0).get F.IMG_STATUS_reason = r ∧
      ((d.put F.IMG_STATUS_reason r).fault R.IMG_EVENT 1 E.IMG_FAIL 0).get F.IMG_STATUS_state = d.get F.IMG_STATUS_state ∧
        ((d.put F.IMG_STATUS_reason r).fault R.IMG_EVENT 1 E.IMG_FAIL 0).flag ⟨R.IMG_EVENT, 1, 1⟩ = true := by
  rw [Dev.fault_eq]
  refine ⟨?_, ?_, ?_⟩
  · rw [Dev.get_raise, Dev.get_put_apart _ _ (by decide), Dev.get_put_fits _ (by decide) hr]
  · rw [Dev.get_raise, Dev.get_put_apart _ _ (by decide), Dev.get_put_apart _ _ (by decide)]
  · rw [Dev.flag_raise, Dev.flag_put_one rfl (by decide)]

theorem runs_startFull (h : s.Reaches R.IMG_CTRL) : ∃ g flush loss, Runs .startFull s (fun d =>
    ((d.touched R.IMG_CTRL).prOptions g flush loss).startFull) := by
  refine ⟨_, _, _, runs_congr (runHost_strobe (k := 0) h (by decide)) (Dev.writeImgCtrl_startFull ?_ ?_ ?_)⟩
  · exact strobeWord_bit 0 0 (by decide)
  · rw [strobeWord_bit 0 1 (by decide)]
    exact Bool.and_false _
  · rw [strobeWord_bit 0 5 (by decide)]
    exact Bool.and_false _

theorem runs_imgLock (h : s.Reaches R.IMG_CTRL) : ∃ g flush loss, Runs .imgLock s (fun d =>
    ((d.touched R.IMG_CTRL).prOptions g flush loss).setLock) := by
  refine ⟨_, _, _, runs_congr (runHost_strobe (k := 1) h (by decide)) (Dev.writeImgCtrl_lock ?_ ?_ ?_)⟩
  · rw [strobeWord_bit 1 0 (by decide)]
    exact Bool.and_false _
  · exact strobeWord_bit 1 1 (by decide)
  · rw [strobeWord_bit 1 5 (by decide)]
    exact Bool.and_false _

theorem Dev.setLock_fields : d.setLock.locked = true ∧ d.setLock.flag F.IMG_CTRL_lock = true ∧
    d.setLock.get F.IMG_STATUS_state = d.get F.IMG_STATUS_state := by
  refine ⟨Dev.flag_put_one rfl (by decide), ?_, ?_⟩
  · exact (Dev.flag_put_apart _ _ (by decide)).trans (Dev.flag_put_one rfl (by decide))
  · exact (Dev.get_put_apart _ _ (by decide)).trans (Dev.get_put_apart _ _ (by decide))

/-- Settles O11: a slot read or a flash that does not answer, by the slot; a start, by the state; the lock is two field writes. -/
theorem imageLoad : Obligations.ImageLoad := by
  refine ⟨fun s slot hu hs => ⟨fun image => ⟨s.begin.dev.slotStaged image, rfl, ?_⟩, ?_, fun h => ?_⟩,
    fun s h => ⟨fun hst => ?_, fun h1 h2 => ?_, ?_⟩⟩
  · refine runUp_as hu ?_
    split
    · next hr => exact Dev.slotRead_applies (d := s.begin.dev) hs hr
    · next r hr => exact Dev.slotRead_fails (d := s.begin.dev) hs hr
  · rintro rfl
    refine ⟨_, runUp_as (g := Dev.flashSlotFails 0x11 0) hu (Dev.flashTimeout_reading (d := s.begin.dev) hs), ?_⟩
    exact Dev.flashSlotFails_first (by decide)
  · refine ⟨_, runUp_as (g := fun d => ({ d with img := { d.img with reading := none } }).loadFails 0x11) hu
      ((Dev.flashTimeout_reading (d := s.begin.dev) hs).trans (Dev.flashSlotFails_last h _)), ?_⟩
    obtain ⟨hreason, hstate, himg, hevent⟩ :=
      Dev.loadFails_fields (d := { s.begin.dev with img := { s.begin.dev.img with reading := none } }) (r := 0x11) (by decide)
    exact ⟨hreason, hstate, congrArg Img.reading himg, hevent⟩
  · obtain ⟨g, flush, loss, hruns⟩ := runs_startFull h
    have hst' : ((s.begin.dev.touched R.IMG_CTRL).prOptions g flush loss).get F.IMG_STATUS_state = Img.empty ∨
        ((s.begin.dev.touched R.IMG_CTRL).prOptions g flush loss).get F.IMG_STATUS_state = Img.failed := by
      rwa [Dev.prOptions_get _ _ _ (by decide)]
    refine ⟨((s.begin.dev.touched R.IMG_CTRL).prOptions g flush loss).put F.IMG_STATUS_source 2, rfl,
      Dev.get_put_fits _ (by decide) (by decide), rfl, runs_congr hruns ?_⟩
    split
    · next hr => exact Dev.startFull_applies hst' hr
    · next r hr => exact Dev.startFull_fails hst' hr
  · obtain ⟨g, flush, loss, hruns⟩ := runs_startFull h
    have hst : ((s.begin.dev.touched R.IMG_CTRL).prOptions g flush loss).get F.IMG_STATUS_state = s.dev.get F.IMG_STATUS_state :=
      Dev.prOptions_get _ _ _ (by decide)
    have hlt : (if s.dev.get F.IMG_STATUS_state = Img.appliedSt then 0x12 else 0x0E) < 256 := by split <;> decide
    obtain ⟨hreason, hstate, hevent⟩ := Dev.startRefused_fields (d := (s.begin.dev.touched R.IMG_CTRL).prOptions g flush loss) hlt
    refine ⟨_, hruns, ?_⟩
    rw [State.onDev_dev, Dev.startFull_refused (hst ▸ h1) (hst ▸ h2), hst]
    exact ⟨hreason, hstate.trans hst, hevent, rfl, rfl⟩
  · obtain ⟨g, flush, loss, hruns⟩ := runs_imgLock h
    obtain ⟨hlocked, hlock, hstate⟩ := Dev.setLock_fields (d := (s.begin.dev.touched R.IMG_CTRL).prOptions g flush loss)
    exact ⟨_, hruns, hlocked, hlock, rfl, hstate.trans (Dev.prOptions_get _ _ _ (by decide))⟩

end Sys2Proof.Machine
end

section
/-! PROOFS. The family of the structure image, partial re-structures: the start and its refusals, the verification, the drain, the
end. -/

namespace Sys2Proof.Machine

variable {s : State} {d : Dev}

/-! ### The start (R53–R56) -/

/-- A lane that the partial image of group `g` changes carries a selected reference (R55). -/
def Dev.prCarries (d : Dev) (g : Nat) : Bool :=
  (d.prLanes g d.pendingImage).any (fun l => d.refPorts.any (fun p => (d.portLanes p).contains l))

theorem Dev.prCarries_iff (g : Nat) :
    d.prCarries g = true ↔ ∃ l ∈ d.prLanes g d.pendingImage, ∃ p ∈ d.refPorts, l ∈ d.portLanes p := by
  simp only [Dev.prCarries, List.any_eq_true, List.contains_iff_mem]

/-- What speaks against a start, in the order in which it is looked at. -/
def Dev.prRefusal (d : Dev) (g : Nat) (loss : Bool) : Option Nat :=
  let st := d.get F.IMG_STATUS_state
  if (1 ≤ st ∧ st ≤ 3) ∨ (5 ≤ st ∧ st ≤ 7) then some 0x0E
  else if st ≠ Img.appliedSt then some 0x0C
  else if d.refusesImages then some 0x13
  else if d.prCarries g ∧ !loss then some 0x0F
  else if d.locked ∧ !d.policyBit Policy.prAfterLock then some 0x10
  else none

/-- A start that nothing speaks against: the group and the state pr_verifying. -/
def Dev.prBegun (g : Nat) (d : Dev) : Dev :=
  { (d.put F.IMG_STATUS_state Img.prVerifying).put F.IMG_CTRL_pr_start 1 with img := { d.img with prGroup := g } }

theorem elim_ite {α β : Type} (c : Prop) [Decidable c] (x y : Option α) (b : β) (f : α → β) :
    (if c then x else y).elim b f = if c then x.elim b f else y.elim b f :=
  apply_ite (fun z : Option α => z.elim b f) c x y

/-- A start sets the options, and then is refused or begins; the domains it needs power on (R467). -/
theorem Dev.prStart_eq (g : Nat) (flush loss : Bool) : d.prStart g flush loss =
    ((d.prOptions g (bit flush) (bit loss)).prRefusal g loss).elim
      (Dev.each [3, 4 + g / 2] Dev.startPower ((d.prOptions g (bit flush) (bit loss)).prBegun g))
      (fun r => (d.prOptions g (bit flush) (bit loss)).prFails r false) := by
  simp only [Dev.prRefusal, elim_ite, Option.elim_some, Option.elim_none]
  rfl

/-! ### The options speak neither for nor against a start -/

section
variable (g flush loss : Nat)

theorem Dev.followsCand_prOptions (x : Nat) : (d.prOptions g flush loss).followsCand x = d.followsCand x := by
  have hword : (d.prOptions g flush loss).word (R.DPL_STATUS x) = d.word (R.DPL_STATUS x) :=
    Dev.prOptions_word g flush loss (Nat.ne_of_lt (Nat.lt_add_right _ (by decide)))
  have hslot : ∀ n, (d.prOptions g flush loss).word (R.REF_SLOT_CFG n) = d.word (R.REF_SLOT_CFG n) := fun n =>
    Dev.prOptions_word g flush loss (Nat.ne_of_lt (Nat.lt_add_right _ (by decide)))
  have hvalid : (d.prOptions g flush loss).flag (F.DPL_STATUS_slot_valid x) = d.flag (F.DPL_STATUS_slot_valid x) := by
    rw [Dev.flag, Dev.get, hword, Dev.flag, Dev.get]
  have hfollows : (d.prOptions g flush loss).dpllFollows x = d.dpllFollows x := by
    simp only [Dev.dpllFollows, Dev.get, hword]
  have hcand : (d.prOptions g flush loss).get (F.REF_SLOT_CFG_cand ((d.prOptions g flush loss).get (F.DPL_STATUS_slot x))) =
      d.get (F.REF_SLOT_CFG_cand (d.get (F.DPL_STATUS_slot x))) := by
    simp only [Dev.get, hword, hslot]
  rw [Dev.followsCand, hvalid, hfollows, hcand, Dev.followsCand]

theorem Dev.portLanes_prOptions (p : Nat) : (d.prOptions g flush loss).portLanes p = d.portLanes p := by
  have hlanes : (d.prOptions g flush loss).get (F.MAC_CFG_lanes p) = d.get (F.MAC_CFG_lanes p) :=
    Dev.prOptions_get g flush loss (Nat.ne_of_lt (Nat.lt_add_right _ (by decide)))
  rw [Dev.portLanes, hlanes, Dev.portLanes]

theorem Dev.prCarries_prOptions (k : Nat) : (d.prOptions g flush loss).prCarries k = d.prCarries k := by
  have hports : (d.prOptions g flush loss).refPorts = d.refPorts := by
    simp only [Dev.refPorts, funext (Dev.followsCand_prOptions (d := d) g flush loss)]
  simp only [Dev.prCarries, hports, Dev.portLanes_prOptions]
  rfl

theorem Dev.prRefusal_prOptions (k : Nat) (b : Bool) : (d.prOptions g flush loss).prRefusal k b = d.prRefusal k b := by
  have hst : (d.prOptions g flush loss).get F.IMG_STATUS_state = d.get F.IMG_STATUS_state := Dev.prOptions_get _ _ _ (by decide)
  have hlock : (d.prOptions g flush loss).locked = d.locked :=
    congrArg (· == 1) (Dev.prOptions_get (f := F.IMG_STATUS_locked) _ _ _ (by decide))
  have hpolicy : (d.prOptions g flush loss).policyBit Policy.prAfterLock = d.policyBit Policy.prAfterLock := rfl
  have hrefuses : (d.prOptions g flush loss).refusesImages = d.refusesImages := rfl
  simp only [Dev.prRefusal, hst, hlock, hpolicy, hrefuses, Dev.prCarries_prOptions]

end

/-! ### What a start leaves -/

section
variable {g flush loss : Nat}

theorem Dev.prOptions_group (h : g < 8) : (d.prOptions g flush loss).get F.IMG_CTRL_pr_group = g :=
  (Dev.get_put_apart _ _ (by decide)).trans ((Dev.get_put_apart _ _ (by decide)).trans (Dev.get_put_fits _ (by decide) h))

theorem Dev.prOptions_flush (h : flush < 2) : (d.prOptions g flush loss).get F.IMG_CTRL_pr_flush = flush :=
  (Dev.get_put_apart _ _ (by decide)).trans (Dev.get_put_fits _ (by decide) h)

end

theorem Dev.startPower_word (k : Nat) {a : Nat} (h : R.PWR_DOM_STATUS ≠ a) : (d.startPower k).word a = d.word a := by
  rw [Dev.startPower]
  split
  · rfl
  · exact Dev.word_put_ne _ _ h

/-- Domains that start to power on change their own register alone. -/
theorem Dev.startPowers_keep (l : List Nat) : (Dev.each l Dev.startPower d).img = d.img ∧
    (Dev.each l Dev.startPower d).mem = d.mem ∧
      ∀ f : Fld, R.PWR_DOM_STATUS ≠ f.addr → (Dev.each l Dev.startPower d).get f = d.get f := by
  refine ⟨Dev.each_keeps Dev.img _ (fun k e => ?_) l d, Dev.each_keeps Dev.mem _ (fun k e => ?_) l d,
    fun f hf => Dev.each_keeps (Dev.get · f) _ (fun k e => ?_) l d⟩
  · rw [Dev.startPower]
    split <;> rfl
  · rw [Dev.startPower]
    split <;> rfl
  · rw [Dev.get, Dev.startPower_word k hf, Dev.get]

/-- A begun re-structure: its state, its strobe and its group, with the options as they were. -/
theorem Dev.prBegun_fields (g : Nat) : (d.prBegun g).get F.IMG_STATUS_state = Img.prVerifying ∧
    (d.prBegun g).get F.IMG_CTRL_pr_start = 1 ∧ (d.prBegun g).get F.IMG_CTRL_pr_group = d.get F.IMG_CTRL_pr_group ∧
      (d.prBegun g).get F.IMG_CTRL_pr_flush = d.get F.IMG_CTRL_pr_flush := by
  refine ⟨?_, ?_, ?_, ?_⟩
  · exact (Dev.get_put_apart _ _ (by decide)).trans (Dev.get_put_fits _ (by decide) (by decide))
  · exact Dev.get_put_fits _ (by decide) (by decide)
  · exact (Dev.get_put_apart _ _ (by decide)).trans (Dev.get_put_apart _ _ (by decide))
  · exact (Dev.get_put_apart _ _ (by decide)).trans (Dev.get_put_apart _ _ (by decide))

/-- A refused re-structure: its reason, in the state it met. -/
theorem Dev.prFails_refused {r : Nat} (hr : r < 256) : (d.prFails r false).get F.IMG_STATUS_state = d.get F.IMG_STATUS_state ∧
    (d.prFails r false).get F.IMG_STATUS_reason = r := by
  refine ⟨?_, ?_⟩
  · exact (Dev.get_put_apart _ _ (by decide)).trans (Dev.get_put_apart _ _ (by decide))
  · exact (Dev.get_put_apart _ _ (by decide)).trans (Dev.get_put_fits _ (by decide) hr)

theorem bit_lt (b : Bool) : bit b < 2 := by cases b <;> decide

/-- A start that nothing speaks against enters pr_verifying with its options (R53, R56). -/
theorem Dev.prStart_begun {g : Nat} {flush loss : Bool} (hg : g < 8) (h : d.prRefusal g loss = none) :
    (d.prStart g flush loss).get F.IMG_STATUS_state = Img.prVerifying ∧ (d.prStart g flush loss).get F.IMG_CTRL_pr_start = 1 ∧
      (d.prStart g flush loss).get F.IMG_CTRL_pr_group = g ∧ (d.prStart g flush loss).get F.IMG_CTRL_pr_flush = bit flush ∧
        (d.prStart g flush loss).img.prGroup = g ∧ (d.prStart g flush loss).mem = d.mem := by
  rw [Dev.prStart_eq, Dev.prRefusal_prOptions, h, Option.elim_none]
  obtain ⟨himg, hmem, hget⟩ := Dev.startPowers_keep (d := (d.prOptions g (bit flush) (bit loss)).prBegun g) [3, 4 + g / 2]
  obtain ⟨hstate, hstrobe, hgroup, hflush⟩ := Dev.prBegun_fields (d := d.prOptions g (bit flush) (bit loss)) g
  rw [himg, hmem, hget _ (by decide), hget _ (by decide), hget _ (by decide), hget _ (by decide), hgroup, hflush,
    Dev.prOptions_group hg, Dev.prOptions_flush (bit_lt flush)]
  exact ⟨hstate, hstrobe, rfl, rfl, rfl, rfl⟩

/-- A start that something speaks against leaves its reason and the state as it was (R53, R55). -/
theorem Dev.prStart_refused {g r : Nat} {flush loss : Bool} (hr : r < 256) (h : d.prRefusal g loss = some r) :
    (d.prStart g flush loss).get F.IMG_STATUS_state = d.get F.IMG_STATUS_state ∧
      (d.prStart g flush loss).get F.IMG_STATUS_reason = r ∧ (d.prStart g flush loss).img = d.img ∧
        (d.prStart g flush loss).mem = d.mem := by
  rw [Dev.prStart_eq, Dev.prRefusal_prOptions, h, Option.elim_some]
  obtain ⟨hstate, hreason⟩ := Dev.prFails_refused (d := d.prOptions g (bit flush) (bit loss)) hr
  exact ⟨hstate.trans (Dev.prOptions_get _ _ _ (by decide)), hreason, rfl, rfl⟩

/-- The word that starts a partial re-structure. -/
def prStartWord (g : Nat) (flush loss : Bool) : Word := BitVec.ofNat 32 (32 + 4 * g + 64 * bit flush + 128 * bit loss)

theorem prStartWord_fields : ∀ (g : Fin 8) (flush loss : Bool), prStartWord g flush loss &&& ~~~0xFF#32 = 0#32 ∧
    (prStartWord g flush loss).getLsbD 0 = false ∧ (prStartWord g flush loss).getLsbD 1 = false ∧
    (prStartWord g flush loss).getLsbD 5 = true ∧ bits (prStartWord g flush loss) 2 3 = g ∧
    (prStartWord g flush loss).getLsbD 6 = flush ∧ (prStartWord g flush loss).getLsbD 7 = loss := by
  decide

/-- A start command sets the options with the write and again as the start does, and then is refused or begins. -/
theorem runs_prStart (h : s.Reaches R.IMG_CTRL) (group : Fin 8) (flush loss : Bool) : ∃ fl lo, Runs (.prStart group flush loss) s
    (fun d => ((d.touched R.IMG_CTRL).prOptions group fl lo).prStart group flush loss) := by
  obtain ⟨hn, h0, h1, h5, hg, h6, h7⟩ := prStartWord_fields group flush loss
  rw [← namedAt_imgCtrl] at hn
  have hwrite := fun d : Dev => Dev.writeImgCtrl_prStart (d := d) h0 h1 h5
  rw [hg, h6, h7] at hwrite
  refine ⟨_, _, runs_congr (runHost_starts (b := R.IMG_CTRL) (i := 0) (f := Dev.writeImgCtrl (prStartWord group flush loss)) h
    (show startsOp R.IMG_CTRL R.IMG_CTRL 0 = true by decide) hn fun d => ?_) (hwrite _)⟩
  exact (congrArg (Dev.special d R.IMG_CTRL 0) (and_mask_of_named hn)).trans rfl

/-- Nothing speaks against a start on an applied image that loses no reference and no lock. -/
theorem Dev.prRefusal_eq_none {g : Nat} {loss : Bool} (hst : d.get F.IMG_STATUS_state = Img.appliedSt)
    (hi : d.refusesImages = false) (hl : loss = true ∨ d.prCarries g = false)
    (hk : d.locked = false ∨ d.policyBit Policy.prAfterLock = true) : d.prRefusal g loss = none := by
  have hcarries : ¬ (d.prCarries g = true ∧ (!loss) = true) := by rcases hl with h | h <;> simp [h]
  have hlock : ¬ (d.locked = true ∧ (!d.policyBit Policy.prAfterLock) = true) := by rcases hk with h | h <;> simp [h]
  simp only [Dev.prRefusal, hst, hi, if_neg hcarries, if_neg hlock]
  decide

/-- During a load or a re-structure a start is refused (R53). -/
theorem Dev.prRefusal_busy {g : Nat} {loss : Bool} (h : 1 ≤ d.get F.IMG_STATUS_state ∧ d.get F.IMG_STATUS_state ≤ 3 ∨
    5 ≤ d.get F.IMG_STATUS_state ∧ d.get F.IMG_STATUS_state ≤ 7) : d.prRefusal g loss = some 0x0E := if_pos h

/-- Without an applied image a start is refused (R53). -/
theorem Dev.prRefusal_noImage {g : Nat} {loss : Bool} (h : d.get F.IMG_STATUS_state = 0 ∨ 8 ≤ d.get F.IMG_STATUS_state) :
    d.prRefusal g loss = some 0x0C :=
  (if_neg (by omega)).trans (if_pos (by simp only [Img.appliedSt]; omega))

section
variable {g : Nat} {loss : Bool} (hst : d.get F.IMG_STATUS_state = Img.appliedSt)
include hst

theorem Dev.prRefusal_applied : d.prRefusal g loss =
    if d.refusesImages then some 0x13
    else if d.prCarries g ∧ !loss then some 0x0F
    else if d.locked ∧ !d.policyBit Policy.prAfterLock then some 0x10
    else none := by
  simp only [Dev.prRefusal, hst]
  rfl

theorem Dev.prRefusal_abandoned (h : d.refusesImages = true) : d.prRefusal g loss = some 0x13 := by
  rw [Dev.prRefusal_applied hst, if_pos h]

theorem Dev.prRefusal_reference (hi : d.refusesImages = false) (hl : loss = false) (hc : d.prCarries g = true) :
    d.prRefusal g loss = some 0x0F := by
  simp [Dev.prRefusal_applied hst, hi, hl, hc]

theorem Dev.prRefusal_locked (hi : d.refusesImages = false) (hl : loss = true ∨ d.prCarries g = false) (hk : d.locked = true)
    (hp : d.policyBit Policy.prAfterLock = false) : d.prRefusal g loss = some 0x10 := by
  have hcarries : ¬ (d.prCarries g = true ∧ (!loss) = true) := by rcases hl with h | h <;> simp [h]
  rw [Dev.prRefusal_applied hst, hi, if_neg hcarries, hk, hp]
  rfl

end

/-! ### The verification, the drain and the end (R56, R57) -/

theorem Dev.afterPr_congr {f g : Dev → Dev} (h : f d = g d) : Dev.afterPr f d = Dev.afterPr g d := by
  simp only [Dev.afterPr, h]

/-- Where nothing changes no re-structure ends, and no held reset runs. -/
theorem Dev.afterPr_id {f : Dev → Dev} (h : f d = d) : Dev.afterPr f d = d := by
  simp only [Dev.afterPr, h, Bool.and_not_self, Bool.false_eq_true, if_false]

theorem Dev.prVerifyDone_waits (h : d.prPowerWaits = true) : d.prVerifyDone = d := if_pos (.inr h)

/-- What speaks against a partial image, if anything (R56). -/
def Dev.prReason (bs : List Byte) (d : Dev) : Option Nat :=
  match checkHeader bs with
  | some r => some r
  | none => if !isPartial bs then some 0x14 else d.verify bs (some d.img.prGroup)

/-- The group enters pr_quiescing for a partial image, with its queues flushed where the start asked for it. -/
def Dev.prQuiesce (bs : List Byte) (d : Dev) : Dev :=
  let d1 := d.put F.IMG_STATUS_state Img.prQuiescing
  let d2 := { d1 with img := { d1.img with prLen := imageLen bs } }
  if d2.flag F.IMG_CTRL_pr_flush then d2.prFlush else d2

section
variable {bs : List Byte} (hst : d.get F.IMG_STATUS_state = Img.prVerifying) (hw : d.prPowerWaits = false) (hbs : d.pendingImage = bs)
include hst hw hbs

theorem Dev.prVerifyDone_eq : d.prVerifyDone = (d.prReason bs).elim (d.prQuiesce bs) (fun r => d.prFails r true) := by
  have hgo : ¬ (d.get F.IMG_STATUS_state ≠ Img.prVerifying ∨ d.prPowerWaits = true) := by simp [hst, hw]
  rw [Dev.prVerifyDone, if_neg hgo, hbs]
  change (match d.prReason bs with | some r => d.prFails r true | none => d.prQuiesce bs) = _
  cases d.prReason bs <;> rfl

theorem Dev.prVerifyDone_fails {r : Nat} (hr : d.prReason bs = some r) : d.prVerifyDone = d.prFails r true := by
  rw [Dev.prVerifyDone_eq hst hw hbs, hr, Option.elim_some]

theorem Dev.prVerifyDone_quiesces (hr : d.prReason bs = none) : d.prVerifyDone = d.prQuiesce bs := by
  rw [Dev.prVerifyDone_eq hst hw hbs, hr, Option.elim_none]

end

theorem Dev.prDrainTimeout_flushes (h : d.get F.IMG_STATUS_state = Img.prQuiescing) : d.prDrainTimeout = d.prFlush := if_pos h

/-- The last writes of a re-structure: the group's version, the strobe, the state and the event. -/
def Dev.prFinal (g v : Nat) (d : Dev) : Dev :=
  (((d.put (F.IMG_GROUP_VER g) v).put F.IMG_CTRL_pr_start 0).put F.IMG_STATUS_state Img.appliedSt).event R.IMG_EVENT 2

theorem Dev.prFinal_fields (g : Nat) {v : Nat} (hv : v < 2 ^ 32) : (d.prFinal g v).get F.IMG_STATUS_state = Img.appliedSt ∧
    (d.prFinal g v).get F.IMG_CTRL_pr_start = 0 ∧ (d.prFinal g v).get (F.IMG_GROUP_VER g) = v ∧
      (d.prFinal g v).flag ⟨R.IMG_EVENT, 2, 1⟩ = true := by
  have hlow : ∀ a, a < R.IMG_GROUP_VER 0 → a ≠ R.IMG_GROUP_VER g := fun a h => Nat.ne_of_lt (Nat.lt_add_right _ h)
  rw [Dev.prFinal, Dev.event_eq]
  refine ⟨?_, ?_, ?_, Dev.flag_put_one rfl (by decide)⟩
  · rw [Dev.get_put_apart _ _ (by decide), Dev.get_put_fits _ (by decide) (by decide)]
  · rw [Dev.get_put_apart _ _ (by decide), Dev.get_put_apart _ _ (by decide), Dev.get_put_fits _ (by decide) (by decide)]
  · rw [Dev.get_put_apart _ _ (.inl (hlow _ (by decide))), Dev.get_put_apart _ _ (.inl (hlow _ (by decide))),
      Dev.get_put_apart _ _ (.inl (hlow _ (by decide))), Dev.get_put_fits _ le_rfl hv]

theorem leNat_lt (bs : List Byte) : leNat bs < 256 ^ bs.length := by
  induction bs with
  | nil => exact Nat.one_pos
  | cons b bs ih =>
    have hb := b.isLt
    rw [leNat, List.length_cons, Nat.pow_succ]
    omega

theorem numAt_lt (bs : List Byte) (o n : Nat) : numAt bs o n < 256 ^ n :=
  lt_of_lt_of_le (leNat_lt _) (Nat.pow_le_pow_right (by decide) (List.length_take_le _ _))

/-- With the group quiet its image goes to the group store and its version shows (R56, R57). -/
theorem Dev.prQuiesced_done (hst : d.get F.IMG_STATUS_state = Img.prQuiescing) (hq : d.prQuiet = true) :
    ∃ x : Dev, Sparse.get? x.img.groups d.img.prGroup = some d.img.prLen ∧
      d.prQuiesced = (x.prFinal d.img.prGroup (numAt (d.bytes pendingBase d.img.prLen) 0x14 4)).rdnEval := by
  have hgo : ¬ (d.get F.IMG_STATUS_state ≠ Img.prQuiescing ∨ (!d.prQuiet) = true) := by simp [hst, hq]
  exact ⟨_, Sparse.get?_put_same _ _ _, if_neg hgo⟩

/-- Settles O13: a start is what its refusal says, none or one; the verification, the drain and the end are branches of their
definitions, and the last writes of the end give its registers. -/
theorem partialRestructure : Obligations.PartialRestructure := by
  refine fun s => ⟨fun group flush loss h hst hi hk hl => ?_, fun group flush loss r h hr => ?_, fun hu hst hw => ?_,
    fun hu hst hw => ?_, fun hu hst => ?_, fun hu hst hq => ?_⟩
  · obtain ⟨fl, lo, hruns⟩ := runs_prStart h group flush loss
    have hcarries : loss = true ∨ s.begin.dev.prCarries group = false := hl.imp_right fun hl => by
      rw [Bool.eq_false_iff, ne_eq, Dev.prCarries_iff]
      exact fun ⟨l, hl', p, hp, hlp⟩ => hl l hl' p hp hlp
    exact ⟨_, hruns, Dev.prStart_begun group.isLt ((Dev.prRefusal_prOptions _ _ _ _ _).trans
      (Dev.prRefusal_eq_none (d := s.begin.dev.touched R.IMG_CTRL) hst hi hcarries hk))⟩
  · obtain ⟨fl, lo, hruns⟩ := runs_prStart h group flush loss
    have hcarries : s.begin.dev.prCarries group = true ↔ ∃ l ∈ s.dev.prLanes group s.dev.pendingImage, ∃ p ∈ s.dev.refPorts,
        l ∈ s.dev.portLanes p := Dev.prCarries_iff _
    obtain ⟨hlt, hrefusal⟩ : r < 256 ∧ (s.begin.dev.touched R.IMG_CTRL).prRefusal group loss = some r := by
      rcases hr with ⟨rfl, hst⟩ | ⟨rfl, hst⟩ | ⟨hst, ⟨rfl, hi⟩ | ⟨hi, ⟨rfl, hl, hc⟩ | ⟨rfl, hl, hk, hp⟩⟩⟩
      · exact ⟨by decide, Dev.prRefusal_busy hst⟩
      · exact ⟨by decide, Dev.prRefusal_noImage hst⟩
      · exact ⟨by decide, Dev.prRefusal_abandoned hst hi⟩
      · exact ⟨by decide, Dev.prRefusal_reference hst hi hl (hcarries.2 hc)⟩
      · exact ⟨by decide, Dev.prRefusal_locked hst hi (hl.imp_right fun hc => Bool.eq_false_iff.2 (hc ∘ hcarries.1)) hk hp⟩
    obtain ⟨hstate, hreason, himg, hmem⟩ := Dev.prStart_refused (flush := flush) hlt
      ((Dev.prRefusal_prOptions (d := s.begin.dev.touched R.IMG_CTRL) group fl lo _ _).trans hrefusal)
    exact ⟨_, hruns, hstate.trans (Dev.prOptions_get _ _ _ (by decide)), hreason, himg, hmem⟩
  · exact runUp_as hu (Dev.afterPr_id (Dev.prVerifyDone_waits (d := s.begin.dev) hw))
  · refine runUp_as hu (Dev.afterPr_congr ?_)
    generalize hbs : s.begin.dev.pendingImage = bs
    split
    · next r hr => exact Dev.prVerifyDone_fails (d := s.begin.dev) hst hw hbs hr
    · next hr => exact Dev.prVerifyDone_quiesces (d := s.begin.dev) hst hw hbs hr
  · exact runUp_as hu (Dev.prDrainTimeout_flushes (d := s.begin.dev) hst)
  · obtain ⟨x, hgroup, hx⟩ := Dev.prQuiesced_done (d := s.begin.dev) hst hq
    obtain ⟨hstate, hstrobe, hver, hevent⟩ := Dev.prFinal_fields (d := x) s.begin.dev.img.prGroup
      (numAt_lt (s.begin.dev.bytes pendingBase s.begin.dev.img.prLen) 0x14 4)
    exact ⟨_, runUp_as hu (Dev.afterPr_congr hx), hstate, hstrobe, hver, hevent, hgroup⟩

end Sys2Proof.Machine
end

section
/-! PROOFS. The family of start and reset, the device held in reset: what it takes, and what leaves it as it is. -/

namespace Sys2Proof.Machine

variable {s : State}

/-- A device that is held does nothing under a command of the device. -/
theorem runUp_of_held (f : Dev → Dev) (h : s.dev.held = true) : runUp f s = .next s.begin.commit := by
  rw [runUp, h]
  rfl

/-- A device that is held does nothing under a command of the whole state, as a host access is. -/
theorem runHost_of_held (f : State → State) (h : s.dev.held = true) : runHost f s = .next s.begin.commit := by
  rw [runHost, runState, if_pos h]
  rfl

/-- A command that does not act on a held device is one of a device, or of a whole state, out of reset (R61, R68, R79): the host's
accesses, the ends of warm and block resets, the watchdog and the windows are of the whole state. -/
theorem exec_needsUp {c : Instr} (h : actsHeld c = false) (s : State) :
    (∃ f, exec c s = runUp f s) ∨ ∃ f, exec c s = runHost f s := by
  cases c
  case powerOnReset | resetnRelease | coldReset | powerDown | hostReset | perstNRelease | pcieDlDown | bypass | idcode |
      samplePreload | extest | extestPulse | extestTrain =>
    exact Bool.noConfusion h
  case warmReset | warmResetDone | watchdogReset | watchdogArm | watchdogKick | blockReset | blockResetDone | portReset |
      stagingWindowWrite | startFull | pendingWindowWrite | prStart | imgLock | registerWrite | rcRead | tableEntryWrite |
      bitAliasWrite | shadowWrite | ugStrobe | armSlotArm | vectorEoi | vectorUnmask | txRingTail | portEnable | prbsInject |
      rlkRestart | mgtSendWrite | mgtPop | stealRecall | engineRetire | engineUnretire | hostFree | queueFlush | tbsSnap |
      tdcTrimRequest | txStampPop | phxCalStart | ptpPost | refPhaseWrite | refForce | learnClear | synRelock | synRetarget |
      sscAuxWrite | sscCoreWrite | outPark | outDelayWrite | switchover | clearFault | resyncWalk | otpProgramSlot |
      otpRevokeSlot | otpRaiseFloor | otpRaiseDebug | attestationRequest | domainOffReq | latencyToleranceWrite | timeOnlyEntry |
      timeOnlyExit | counterValueWrite | counterConfigWrite | counterFreeze | harvestNow | crgArm | crgModeWrite |
      crgHostTrigger | bufferSweep | engineBist | tdcSelfTest | eyeScan | ringBist | tableBist | tstAbort | logPop |
      windowClose | fltRelease | endCoast | fltReactWrite =>
    exact .inr ⟨_, rfl⟩
  all_goals exact .inl ⟨_, rfl⟩

/-- Settles O4: a command that does not act on a held device runs only on one out of reset. -/
theorem heldDevice : Obligations.HeldDevice := by
  intro c s hh hc
  rcases exec_needsUp hc s with ⟨f, hf⟩ | ⟨f, hf⟩
  · exact hf.trans (runUp_of_held f hh)
  · exact hf.trans (runHost_of_held f hh)

end Sys2Proof.Machine
end

section
/-! PROOFS. The family of start and reset, the watchdog: its kick, its arming, its end. -/

namespace Sys2Proof.Machine

variable {s : State} {d : Dev}

/-! ### Fields after a plain write -/

/-- A whole field that a plain write may set reads what was written to it (Table TOP-4). -/
theorem Dev.bits_plainActive {r : RegRow} {f : FieldRow} {a : Nat} {w : Word} (hf : f ∈ r.fields) (hr : r.apart)
    (h32 : f.lsb + f.width ≤ 32) (hty : f.ty ≠ .w1c ∧ f.ty ≠ .w1s) (hw : d.writable a Via.whole f = true) (hi : f.upd = .i) :
    bits (d.plainActive r a Via.whole w) f.lsb f.width = bits w f.lsb f.width := by
  refine Nat.eq_of_testBit_eq fun k => ?_
  simp only [bits, BitVec.testBit_toNat, BitVec.getLsbD_extractLsb']
  by_cases hk : k < f.width
  · have hall : ∀ j, j < 32 → Via.whole.touched.getLsbD j = true := by decide
    have hat : Via.whole.at_ f (f.lsb + k) := ⟨⟨by omega, by omega, by omega⟩, hall _ (by omega)⟩
    have hset : ∀ x y : Bool, plainBit f.ty true x y = y := by
      intro x y
      cases hc : f.ty with
      | w1c => exact absurd hc hty.1
      | w1s => exact absurd hc hty.2
      | _ => rfl
    rw [d.plainActive_bit a Via.whole w hf hr hat, hw, hi, show (Upd.i == Upd.i) = true from rfl, Bool.and_self, hset]
  · simp [hk]

theorem mem_addOnce (x : Nat) (l : List Nat) : x ∈ addOnce x l := by
  rw [addOnce]
  split
  · assumption
  · exact List.mem_append_right _ List.mem_cons_self

/-! ### The count (R78) -/

/-- The count starts anew with its full period. -/
def Dev.watchdogFull (d : Dev) : Dev :=
  let e := d.put F.TOP_WDOG_COUNT (max 1 (d.get F.TOP_WDOG_CTRL_period))
  { e with rst := { e.rst with watchdogEdges := 0 } }

/-- An enabled watchdog starts anew while no warm reset runs. -/
theorem Dev.watchdogStart_runs (he : d.flag F.TOP_WDOG_CTRL_enable = true) (hb : d.busy = false) :
    d.watchdogStart = d.watchdogFull :=
  if_neg (by simp [he, hb])

theorem runs_watchdogKick (h : s.Reaches R.TOP_WDOG_KICK) :
    Runs .watchdogKick s (fun d => (d.touched R.TOP_WDOG_KICK).watchdogStart) :=
  runHost_starts (b := R.TOP_WDOG_KICK) (i := 0) (f := Dev.watchdogStart) h (by decide) (by decide) fun _ => rfl

/-! ### Arming (R78, R93) -/

/-- The row of TOP_WDOG_CTRL: an enable and a period, both write-once (R81). -/
def watchdogRow : RegRow := ⟨0x40, 1, 0, 1, 0, .none, [⟨0, 1, .wo, .num 0, .i, .w⟩, ⟨16, 16, .wo, .num 0, .i, .w⟩]⟩

theorem registerAt_watchdog : registerAt R.TOP_WDOG_CTRL = some (watchdogRow, 0) := by rfl

theorem watchdogRow_apart : watchdogRow.apart := by
  simp [RegRow.apart, watchdogRow]

/-- The word that arms the watchdog with a period. -/
def watchdogWord (period : BitVec 16) : Word := BitVec.ofNat 32 (1 + 65536 * period.toNat)

theorem watchdogWord_enable (period : BitVec 16) : bits (watchdogWord period) 0 1 = 1 := by
  have h := period.isLt
  simp only [bits, watchdogWord, BitVec.extractLsb'_toNat, BitVec.toNat_ofNat, Nat.shiftRight_eq_div_pow]
  omega

theorem watchdogWord_period (period : BitVec 16) : bits (watchdogWord period) 16 16 = period.toNat := by
  have h := period.isLt
  simp only [bits, watchdogWord, BitVec.extractLsb'_toNat, BitVec.toNat_ofNat, Nat.shiftRight_eq_div_pow]
  omega

/-- That word has no bit that TOP_WDOG_CTRL does not name. -/
theorem watchdogWord_named (period : BitVec 16) : watchdogWord period &&& ~~~(namedBits watchdogRow R.TOP_WDOG_CTRL) = 0#32 := by
  have hmask : ∀ i, i < 32 → (namedBits watchdogRow R.TOP_WDOG_CTRL).getLsbD i = (decide (i = 0) || decide (16 ≤ i)) := by decide
  have hone : ∀ i, i < 16 → Nat.testBit 1 i = decide (i = 0) := by decide
  refine BitVec.eq_of_getLsbD_eq fun i hi => ?_
  rw [BitVec.getLsbD_and, BitVec.getLsbD_not, hmask i hi, BitVec.getLsbD_zero, watchdogWord, BitVec.getLsbD_ofNat, Nat.add_comm,
    Nat.testBit_two_pow_mul_add (i := 16) _ (by decide)]
  by_cases h : i < 16
  · by_cases h0 : i = 0 <;> simp [h, h0, hone]
  · simp [Nat.le_of_not_lt h]

/-- The device as the write of a word that may still be written leaves TOP_WDOG_CTRL, before the watchdog starts. -/
def Dev.watchdogWritten (w : Word) (d : Dev) : Dev :=
  let e := d.setWord R.TOP_WDOG_CTRL (d.plainActive watchdogRow R.TOP_WDOG_CTRL Via.whole w)
  { e with parity := e.parity.filter (· != R.TOP_WDOG_CTRL)
           rst := { e.rst with written := addOnce R.TOP_WDOG_CTRL e.rst.written } }

section
variable (h : d.onceWritten R.TOP_WDOG_CTRL = false)
include h

theorem Dev.writable_watchdog {f : FieldRow} (hf : f ∈ watchdogRow.fields) :
    d.writable R.TOP_WDOG_CTRL Via.whole f = true ∧ f.ty = .wo ∧ f.upd = .i := by
  have hall : ∀ f ∈ watchdogRow.fields, Via.whole.has f = true ∧ f.ty = .wo ∧ f.upd = .i := by decide
  obtain ⟨hhas, hty, hupd⟩ := hall f hf
  simp only [Dev.writable, hhas, hty, hupd, h, show Via.whole.viaAlias = false from rfl]
  decide

theorem Dev.plainWrite_watchdog {w : Word} (hw : w &&& namedBits watchdogRow R.TOP_WDOG_CTRL = w) :
    d.plainWrite watchdogRow R.TOP_WDOG_CTRL Via.whole w = d.watchdogWritten w := by
  obtain ⟨he, -, -⟩ := d.writable_watchdog h (f := ⟨0, 1, .wo, .num 0, .i, .w⟩) (by decide)
  obtain ⟨hp, -, -⟩ := d.writable_watchdog h (f := ⟨16, 16, .wo, .num 0, .i, .w⟩) (by decide)
  simp only [Dev.plainWrite, hw]
  simp only [watchdogRow, List.any_cons, List.filter_cons, he, hp]
  rfl

/-- The write stores both fields, and they are written once (R93). -/
theorem Dev.watchdogWritten_fields (period : BitVec 16) :
    (d.watchdogWritten (watchdogWord period)).get F.TOP_WDOG_CTRL_enable = 1 ∧
      (d.watchdogWritten (watchdogWord period)).get F.TOP_WDOG_CTRL_period = period.toNat := by
  have hfield : ∀ f ∈ watchdogRow.fields, f.lsb + f.width ≤ 32 →
      (d.watchdogWritten (watchdogWord period)).get ⟨R.TOP_WDOG_CTRL, f.lsb, f.width⟩ =
        bits (watchdogWord period) f.lsb f.width := by
    intro f hf h32
    obtain ⟨hw, hty, hi⟩ := d.writable_watchdog h hf
    have hword : (d.watchdogWritten (watchdogWord period)).word R.TOP_WDOG_CTRL =
        d.plainActive watchdogRow R.TOP_WDOG_CTRL Via.whole (watchdogWord period) := Dev.word_setWord_same _ _ _
    rw [Dev.get, hword]
    exact Dev.bits_plainActive hf watchdogRow_apart h32 (by simp [hty]) hw hi
  refine ⟨?_, ?_⟩
  · exact (hfield ⟨0, 1, .wo, .num 0, .i, .w⟩ (by decide) (by decide)).trans (watchdogWord_enable period)
  · exact (hfield ⟨16, 16, .wo, .num 0, .i, .w⟩ (by decide) (by decide)).trans (watchdogWord_period period)

/-- A first write of TOP_WDOG_CTRL stores its word and starts the watchdog. -/
theorem Dev.regWrite_watchdog (period : BitVec 16) :
    d.regWrite watchdogRow 0 R.TOP_WDOG_CTRL Via.whole (watchdogWord period) R.TOP_WDOG_CTRL =
      (d.watchdogWritten (watchdogWord period)).watchdogStart := by
  have hnamed := watchdogWord_named period
  have hflags : d.writeFlags watchdogRow R.TOP_WDOG_CTRL Via.whole (watchdogWord period) = [] := by
    have hall : watchdogWord period &&& Via.whole.touched = watchdogWord period := BitVec.and_allOnes
    have hlock : watchdogRow.fields.any (fun f => f.ty == .wl && Via.whole.has f) = false := by decide
    simp [Dev.writeFlags, hall, hnamed, hlock, h, show Via.whole.viaAlias = false from rfl]
  rw [Dev.regWrite, hflags, d.plainWrite_watchdog h (and_mask_of_named hnamed)]
  simp only [Dev.wordSeen, h]
  rfl

end

theorem exec_watchdogArm (period : BitVec 16) (h : s.Reaches R.TOP_WDOG_CTRL) (ho : s.dev.onceWritten R.TOP_WDOG_CTRL = false) :
    Runs (.watchdogArm period) s (fun d =>
      ((d.endHold R.TOP_WDOG_CTRL).watchdogWritten (watchdogWord period)).watchdogStart) := by
  obtain ⟨hu, hs, ht⟩ := h
  refine (runHost_of_up _ hu).trans ?_
  rw [State.writeReg, State.writeDword_at s.begin _ (by decide) registerAt_watchdog hs ht, State.regWrite_onDev (by decide)]
  exact congrArg (fun e : Dev => Host.Outcome.next ({ s.begin with dev := e } : State).commit)
    (Dev.regWrite_watchdog (d := s.begin.dev.endHold R.TOP_WDOG_CTRL) ho period)

/-- The count as it is armed: every field of the watchdog (R78). -/
theorem Dev.watchdogArmed_fields (period : BitVec 16) (h : d.onceWritten R.TOP_WDOG_CTRL = false) (hb : d.busy = false) :
    let e := (d.watchdogWritten (watchdogWord period)).watchdogStart
    e.get F.TOP_WDOG_CTRL_enable = 1 ∧ e.get F.TOP_WDOG_CTRL_period = period.toNat ∧
      e.get F.TOP_WDOG_COUNT = max 1 period.toNat ∧ e.rst.watchdogEdges = 0 ∧ e.onceWritten R.TOP_WDOG_CTRL = true := by
  obtain ⟨henable, hperiod⟩ := Dev.watchdogWritten_fields h period
  have hb' : (d.watchdogWritten (watchdogWord period)).busy = false := by
    rw [← hb]
    exact congrArg (fun w => bits w 31 1 == 1) (Dev.word_setWord_ne d _ (by decide))
  rw [Dev.watchdogStart_runs (by rw [Dev.flag, henable]; rfl) hb']
  refine ⟨(Dev.get_put_apart _ _ (by decide)).trans henable, (Dev.get_put_apart _ _ (by decide)).trans hperiod, ?_, rfl, ?_⟩
  · refine (Dev.get_put_fits _ (by decide) ?_).trans (by rw [hperiod])
    rw [hperiod]
    exact max_lt (by decide) period.isLt
  · exact List.contains_iff_mem.2 (mem_addOnce _ _)

/-! ### The end of the count (R78, R501) -/

theorem State.watchdogZero_runs (he : s.dev.flag F.TOP_WDOG_CTRL_enable = true) (hc : s.dev.get F.TOP_WDOG_COUNT = 1)
    (hb : s.dev.busy = false) : s.watchdogZero =
      ((s.onDev (fun d => (d.put F.TOP_WDOG_COUNT 0).fault R.TOP_EVENT 2 E.TOP_WDOG 0)).warmRequest 3 false).1 :=
  if_pos ⟨he, hc, by rw [hb]; rfl⟩

/-- Settles O5: a kick and an arming are writes that start the count anew, and the count at 1 with the next millisecond is its end. -/
theorem watchdogActs : Obligations.WatchdogActs := by
  refine fun s => ⟨fun h he hb => ?_, fun period h ho hb => ?_, fun hu he hc hb => ?_⟩
  · exact runs_congr (runs_watchdogKick h) (Dev.watchdogStart_runs (d := s.begin.dev.touched R.TOP_WDOG_KICK) he hb)
  · exact ⟨_, exec_watchdogArm period h ho, Dev.watchdogArmed_fields (d := s.begin.dev.endHold R.TOP_WDOG_CTRL) period ho hb⟩
  · exact (runHost_of_up _ hu).trans (by rw [State.watchdogZero_runs (s := s.begin) he hc hb])

end Sys2Proof.Machine
end

section
/-! PROOFS. The family of start and reset, the resets of the whole device: power-on, the cold reset, the supply that fails, the
release. -/

namespace Sys2Proof.Machine

variable {s : State} {d : Dev}

/-! ### The registers of the fault unit -/

/-- Bringing the fault unit's registers up to date changes registers of its page alone. -/
theorem State.fltSync_frame (s : State) : (∃ m, s.fltSync.dev = { s.dev with csr := m }) ∧
    ∀ a, a / 0x10000 ≠ 5 → s.fltSync.dev.word a = s.dev.word a := by
  have hpage : ∀ {a b : Nat}, a / 0x10000 ≠ 5 → b / 0x10000 = 5 → b ≠ a := fun ha hb h => ha (h ▸ hb)
  refine ⟨⟨s.fltSync.dev.csr, ?_⟩, fun a ha => ?_⟩
  · simp only [State.fltSync]
    split <;> rfl
  · rw [State.fltSync, Dev.word_put_ne _ _ (hpage ha (by decide)), Dev.word_put_ne _ _ (hpage ha (by decide))]
    split <;>
      rw [Dev.word_setWord_ne _ _ (hpage ha (by decide)), Dev.word_setWord_ne _ _ (hpage ha (by decide)),
        Dev.word_setWord_ne _ _ (hpage ha (by decide)), Dev.word_setWord_ne _ _ (hpage ha (by decide))]

@[simp] theorem State.fltSync_rst (s : State) : s.fltSync.dev.rst = s.dev.rst := by
  obtain ⟨⟨m, h⟩, -⟩ := s.fltSync_frame
  rw [h]

@[simp] theorem State.fltSync_img (s : State) : s.fltSync.dev.img = s.dev.img := by
  obtain ⟨⟨m, h⟩, -⟩ := s.fltSync_frame
  rw [h]

@[simp] theorem State.fltSync_mem (s : State) : s.fltSync.dev.mem = s.dev.mem := by
  obtain ⟨⟨m, h⟩, -⟩ := s.fltSync_frame
  rw [h]

/-! ### The release of a power-on or cold reset (R61, R372, R44) -/

theorem Dev.boot_frame (flash mramOk : Bool) : (d.boot flash mramOk).held = false ∧ (d.boot flash mramOk).img.fromFlash = flash ∧
    (d.boot flash mramOk).mem = d.mem := by
  cases flash <;> cases mramOk <;> exact ⟨rfl, rfl, rfl⟩

theorem State.release_frame (flash mramOk : Bool) : (s.release flash mramOk).Up ∧
    (s.release flash mramOk).dev.img.fromFlash = flash ∧ (s.release flash mramOk).dev.mem = s.dev.mem ∧
      (s.release flash mramOk).flt.log = s.flt.log ∧ (s.release flash mramOk).irq = s.irq ∧
        (s.release flash mramOk).pending = s.pending := by
  obtain ⟨hheld, hflash, hmem⟩ := Dev.boot_frame (d := s.dev) flash mramOk
  refine ⟨?_, ?_, ?_, rfl, rfl, rfl⟩
  · rw [State.Up, Dev.held, State.release, State.fltSync_rst]
    exact hheld
  · rw [State.release, State.fltSync_img]
    exact hflash
  · rw [State.release, State.fltSync_mem]
    exact hmem

/-! ### What holds the device (R68, R523) -/

/-- A cold reset of a device out of reset. -/
theorem State.coldReset_of_up (h : s.Up) : s.coldReset = (s.coldUnits.onDev Dev.coldBegin).fltSync :=
  if_neg (ne_true_of_eq_false h)

/-- The cold reset leaves its cause, and nothing in the memories, the frames and the queues. -/
theorem Dev.coldBegin_frame : d.coldBegin.rst.phase = .cold ∧ d.coldBegin.bitAt R.TOP_RST_CAUSE 1 = true ∧ d.coldBegin.mem = [] ∧
    d.coldBegin.fwd = {} ∧ d.coldBegin.qsc = {} :=
  ⟨rfl, (Dev.bitAt_put_same _ (by decide)).trans (by decide), rfl, rfl, rfl⟩

/-- Settles O6: the state each command leaves is a device wiped, booted or both, with the fault unit's registers brought up to date. -/
theorem deviceResets : Obligations.DeviceResets := by
  refine fun s flash mramOk => ⟨?_, fun hheld => ?_, fun hu => ?_, ?_⟩
  · obtain ⟨hup, hflash, hmem, hlog, hirq, hpend⟩ := State.release_frame (s := s.begin.powerOff) flash mramOk
    exact ⟨_, rfl, hup, hflash, hmem.trans (State.fltSync_mem _), hlog, hirq, hpend⟩
  · obtain ⟨hup, hflash, -, hlog, hirq, hpend⟩ := State.release_frame (s := s.begin) flash mramOk
    refine ⟨s.begin.release flash mramOk, ?_, hup, hflash, hlog, hirq, hpend⟩
    exact congrArg (fun t : State => Host.Outcome.next t.commit) (if_pos hheld)
  · obtain ⟨hphase, hcause, hmem, hfwd, hqsc⟩ := Dev.coldBegin_frame (d := s.begin.coldUnits.dev)
    obtain ⟨⟨m, hdev⟩, hword⟩ := (s.begin.coldUnits.onDev Dev.coldBegin).fltSync_frame
    refine ⟨(s.begin.coldUnits.onDev Dev.coldBegin).fltSync, ?_, ?_, ?_, ?_, ?_, ?_, rfl, rfl, rfl⟩
    · exact congrArg (fun t : State => Host.Outcome.next t.commit) (State.coldReset_of_up (s := s.begin) hu)
    · exact (congrArg (fun e : Dev => e.rst.phase) hdev).trans hphase
    · exact (congrArg (fun w : Word => w.getLsbD 1) (hword _ (by decide))).trans hcause
    · exact (congrArg Dev.mem hdev).trans hmem
    · exact (congrArg Dev.fwd hdev).trans hfwd
    · exact (congrArg Dev.qsc hdev).trans hqsc
  · exact ⟨_, rfl, rfl, rfl, rfl, rfl, rfl, rfl, rfl, rfl, rfl⟩

end Sys2Proof.Machine
end

section
/-! PROOFS. The family of start and reset, the warm reset: its start, what it becomes, its end. -/

namespace Sys2Proof.Machine

variable {s : State} {d : Dev}

/-! ### The write of TOP_RST_CTRL (R70) -/

/-- The row of TOP_RST_CTRL: the request, the mark of a refused one, the running reset (R81). -/
def resetCtrlRow : RegRow :=
  ⟨0x20, 1, 0, 1, 0, .none, [⟨0, 1, .w1s, .num 0, .i, .n⟩, ⟨1, 1, .w1c, .num 0, .i, .w⟩, ⟨31, 1, .ro, .num 0, .i, .n⟩]⟩

theorem registerAt_resetCtrl : registerAt R.TOP_RST_CTRL = some (resetCtrlRow, 0) := by rfl

/-- A write of TOP_RST_CTRL.warm alone is a request of software, with the cause of a warm reset. -/
theorem State.regWrite_resetCtrl (addr : Nat) :
    s.regWrite resetCtrlRow 0 R.TOP_RST_CTRL Via.whole 1#32 addr = (s.warmRequest 2 true).1 := by
  have hflags : s.dev.writeFlags resetCtrlRow R.TOP_RST_CTRL Via.whole 1#32 = [] :=
    Dev.writeFlags_plain _ (by decide) (by decide)
  have hseen : s.dev.wordSeen resetCtrlRow R.TOP_RST_CTRL Via.whole 1#32 = 1#32 := rfl
  rw [State.regWrite, hflags, hseen]
  rfl

theorem exec_warmReset (h : s.Reaches R.TOP_RST_CTRL) :
    exec .warmReset s = .next ((s.begin.onDev (Dev.endHold R.TOP_RST_CTRL)).warmRequest 2 true).1.commit := by
  obtain ⟨hu, hs, ht⟩ := h
  refine (runHost_of_up _ hu).trans ?_
  rw [State.writeReg, State.writeDword_at s.begin _ (by decide) registerAt_resetCtrl hs ht, State.regWrite_resetCtrl]

/-! ### A request, by what it meets (R70, R72, R79) -/

/-- While a warm reset runs a request sets its cause, and one of software its bit, and goes no deeper. -/
theorem State.warmRequest_busy {cause : Nat} {soft : Bool} (hb : s.dev.busy = true) : (s.warmRequest cause soft).1 =
    s.onDev (fun d => (d.cause cause).when soft (Dev.put F.TOP_RST_CTRL_warm 1)) := by
  have hdev : (s.dev.cause cause).when (soft && s.dev.busy) (Dev.put F.TOP_RST_CTRL_warm 1) =
      (s.dev.cause cause).when soft (Dev.put F.TOP_RST_CTRL_warm 1) := by
    rw [hb, Bool.and_true]
  rw [State.warmRequest, if_pos (.inl hb)]
  exact State.onDev_congr (f := fun e => (e.cause cause).when (soft && e.busy) (Dev.put F.TOP_RST_CTRL_warm 1)) hdev

/-- What windows wait for once a warm reset begins: block resets, and a halt that has taken effect, end with it. -/
def Await.inWarm (halted : Bool) (a : Await) : Await :=
  match a with
  | .block _ => .warm
  | .halt => if halted then .warm else .halt
  | x => x

theorem Await.inWarm_ne_block (halted : Bool) (a : Await) (pg : Nat) : a.inWarm halted ≠ .block pg := by
  cases a <;> cases halted <;> simp [Await.inWarm]

section
variable (hu : s.Up) (hb : s.dev.busy = false)
include hu hb

/-- Where no full image stands, or the staging memory is spoiled, it acts as a cold reset. -/
theorem State.warmRequest_cold {cause : Nat} {soft : Bool} (h : s.dev.applied = false ∨ s.dev.img.spoiled = true) :
    (s.warmRequest cause soft).1 = ((s.coldUnits.onDev (Dev.coldInstead cause)).completed .halt).fltSync := by
  rw [State.warmRequest, if_neg (by simp [hb, show s.dev.held = false from hu]), if_pos (by simpa using h)]

/-- Over a full image and an unspoiled staging memory it runs. -/
theorem State.warmRequest_runs {cause : Nat} {soft : Bool} (ha : s.dev.applied = true) (hs : s.dev.img.spoiled = false) :
    (s.warmRequest cause soft).1 =
      ((s.onDev (fun d => (d.cause cause).warmBegin soft)).onDev (Dev.put F.FLT_STATUS_halted 0)).rewait
        (Await.inWarm s.dev.halted) := by
  rw [State.warmRequest, if_neg (by simp [hb, show s.dev.held = false from hu]), if_neg (by simp [ha, hs])]
  rfl

end

@[simp] theorem State.rewait_irq (f : Await → Await) : (s.rewait f).irq = s.irq := (rfl)

/-- A window after all windows were given something else to wait for. -/
theorem State.rewait_windows (f : Await → Await) (k : Nat) : Sparse.get? (s.rewait f).flt.windows k =
    (Sparse.get? s.flt.windows k).map (fun w => { w with await := f w.await }) := by
  simp only [State.rewait]
  induction s.flt.windows with
  | nil => rfl
  | cons p m ih => by_cases h : p.1 = k <;> simp [Sparse.get?, h, ih]

/-! ### The end (Table TOP-4) -/

theorem State.warmDone_runs (hb : s.dev.busy = true) :
    s.warmDone = (((s.onDev Dev.warmEnd).completed .warm).onDev Dev.haltNow).fltSync :=
  if_neg (by rw [hb]; decide)

/-- Settles O7: the write is a request of software; what it meets decides among three outcomes, and the end is its own command. -/
theorem warmResetRuns : Obligations.WarmResetRuns := by
  refine fun s => ⟨fun h hb ha hs => ?_, fun h hb hi => ?_, fun h hb => ?_, fun hu hb => ?_⟩
  · have hruns := State.warmRequest_runs (s := s.begin.onDev (Dev.endHold R.TOP_RST_CTRL)) (cause := 2) (soft := true) h.1 hb ha hs
    refine ⟨_, exec_warmReset h, ?_, ?_, ?_, ?_, fun k w hw pg => ?_⟩
    · rw [hruns, State.rewait_dev, State.onDev_dev, State.onDev_dev, State.onDev_dev]
    · rw [hruns, State.rewait_log, State.onDev_flt, State.onDev_flt, State.onDev_flt, State.begin_flt]
    · rw [hruns, State.rewait_irq, State.onDev_irq, State.onDev_irq, State.onDev_irq, State.begin_irq]
    · rw [hruns, State.rewait_pending, State.onDev_pending, State.onDev_pending, State.onDev_pending, State.begin_pending]
    · rw [hruns, State.rewait_windows] at hw
      obtain ⟨w', -, rfl⟩ := Option.map_eq_some_iff.1 hw
      exact Await.inWarm_ne_block _ _ pg
  · rw [exec_warmReset h, State.warmRequest_cold (s := s.begin.onDev (Dev.endHold R.TOP_RST_CTRL)) h.1 hb hi]
  · rw [Runs, exec_warmReset h, State.warmRequest_busy (s := s.begin.onDev (Dev.endHold R.TOP_RST_CTRL)) hb]
    rfl
  · exact (runHost_of_up _ hu).trans (by rw [State.warmDone_runs (s := s.begin) hb])

end Sys2Proof.Machine
end

section
/-! PROOFS. The family of start and reset, what a running warm reset shuts: registers, single bits, memories. -/

namespace Sys2Proof.Machine

variable {s : State} {d : Dev}

/-! ### One dword read from what is shut -/

/-- A read whose dword gives 0 and only ends what its page holds answers 0. -/
theorem Dev.hostRead_zero {a : Nat} (h4 : a % 4 = 0) (h : d.readDword a true = (0, d.endHold a)) : d.hostRead a =
    { d.endHold a with host := { (d.endHold a).host with rdata := [0], unsupported := false } } := by
  have ha : a / 4 * 4 = a := by omega
  rw [Dev.hostRead, ha, h]

theorem Dev.readRegister_shut {a : Nat} (alone : Bool) (h : d.shut a = true) : d.readRegister a alone = (0, d.endHold a) := by
  simp [Dev.readRegister, h]

theorem Dev.readDword_control {a : Nat} (alone : Bool) (ha : a < controlEnd) : d.readDword a alone = d.readRegister a alone :=
  if_pos ha

/-- The single bits lie above the control pages. -/
theorem Dev.readDword_bit {a : Nat} (alone : Bool) (h1 : aliasBase ≤ a) (h2 : a < aliasEnd) :
    d.readDword a alone = d.readAlias a := by
  have hc : ¬ a < controlEnd := by
    simp only [aliasBase, controlEnd] at h1 ⊢
    omega
  rw [Dev.readDword, if_neg hc, if_pos ⟨h1, h2⟩]

theorem Dev.readAlias_shut {a : Nat} (h : d.shut ((a - aliasBase) / 128 * 4) = true) : d.readAlias a = (0, d.endHold a) :=
  if_pos (.inr (.inl h))

theorem Dev.readDword_memory {a : Nat} (alone : Bool) (h1 : controlEnd ≤ a) (h2 : ¬ (aliasBase ≤ a ∧ a < aliasEnd)) :
    d.readDword a alone = d.readCell a alone := by
  rw [Dev.readDword, if_neg (Nat.not_lt.2 h1), if_neg h2]

/-- A memory outside the time region is closed while a warm reset runs. -/
theorem Dev.cellOpen_busy {c : Cellref} (hb : d.busy = true) (hr : c.region ≠ Region.time) : d.cellOpen c = false := by
  simp [Dev.cellOpen, hb, hr]

theorem Dev.readCell_closed {a : Nat} {c : Cellref} (alone : Bool) (hc : cellAt a = some c) (ho : d.cellOpen c = false) :
    d.readCell a alone = (0, d.endHold a) := by
  simp [Dev.readCell, hc, ho]

/-! ### One dword written to what is shut -/

theorem State.writeDword_bitShut {a : Nat} (be : BitVec 4) (w : Word) (h1 : aliasBase ≤ a) (h2 : a < aliasEnd)
    (ho : (a - aliasBase) / 128 * 4 < controlEnd) (hs : s.dev.shut ((a - aliasBase) / 128 * 4) = true) :
    s.writeDword a be w = s.onDev (Dev.endHold a) := by
  have hc : ¬ a < controlEnd := by
    simp only [aliasBase, controlEnd] at h1 ⊢
    omega
  rw [State.writeDword, if_neg hc, if_pos ⟨h1, h2⟩]
  exact (if_neg (Nat.not_le.2 ho)).trans (if_pos hs)

theorem State.writeDword_memoryShut {a : Nat} {c : Cellref} (be : BitVec 4) (w : Word) (h1 : controlEnd ≤ a)
    (h2 : ¬ (aliasBase ≤ a ∧ a < aliasEnd)) (hc : cellAt a = some c) (hb : s.dev.busy = true) (hr : c.region ≠ Region.time) :
    s.writeDword a be w = s.onDev (Dev.endHold a) := by
  have hdev : (s.dev.endHold a).tableDword a be w = s.dev.endHold a := by
    rw [Dev.tableDword, hc]
    exact if_pos ⟨hb, hr⟩
  rw [State.writeDword, if_neg (Nat.not_lt.2 h1), if_neg h2]
  exact State.onDev_congr (f := fun d => (d.endHold a).tableDword a be w) hdev

/-! ### What answers as without the reset (R71) -/

theorem Dev.shut_eq_false {a : Nat} (h : controlRegion a = Region.time ∨ a = R.TOP_RST_CTRL ∨ a = R.TOP_RST_CAUSE ∨
    a = R.TOP_READY) : d.shut a = false := by
  rcases h with h | h | h | h <;> simp [Dev.shut, answersInReset, h]

theorem Dev.shut_eq_true {a : Nat} (hb : d.busy = true) (hr : controlRegion a ≠ Region.time) (h1 : a ≠ R.TOP_RST_CTRL)
    (h2 : a ≠ R.TOP_RST_CAUSE) (h3 : a ≠ R.TOP_READY) : d.shut a = true := by
  simp [Dev.shut, answersInReset, hb, hr, h1, h2, h3]

section
variable {a i : Nat} {r : RegRow} (hs : d.shut a = false) (ht : d.there a = true) (hr : registerAt a = some (r, i))
include hs ht hr

/-- A register that is open gives its value, whatever its pair. -/
theorem Dev.readRegister_value (hh : Sparse.get? d.host.hold (holdOf a) = none) :
    (d.readRegister a true).1 = d.readValue r i a := by
  simp [Dev.readRegister, hs, ht, hr, hh]

end

theorem State.writeRegister_open {a i : Nat} {r : RegRow} (w : Word) (hs : s.dev.shut a = false) (ht : s.dev.there a = true)
    (hr : registerAt a = some (r, i)) :
    s.writeRegister a 0xF w = (s.onDev (Dev.endHold a)).regWrite r i a Via.whole w a := by
  simp [State.writeRegister, hs, ht, hr]

/-- What every shut dword does under the host's accesses: a read gives 0, a write is discarded, and the page's holding register is
emptied. -/
theorem runs_shut {addr : BitVec 28} (hu : s.Up) (h4 : addr.toNat % 4 = 0)
    (hread : s.begin.dev.readDword addr.toNat true = (0, s.begin.dev.endHold addr.toNat))
    (hwrite : ∀ be w, s.begin.writeDword addr.toNat be w = s.begin.onDev (Dev.endHold addr.toNat)) :
    Runs (.rcRead (.bar0 addr 1)) s (fun d =>
      { d.endHold addr.toNat with host := { (d.endHold addr.toNat).host with rdata := [0], unsupported := false } }) ∧
    ∀ be w, RunsAccess (.registerWrite addr be [w]) s (Dev.endHold addr.toNat) :=
  ⟨runs_rcRead_bar0 hu (Dev.hostRead_zero h4 hread), fun be w => runsAccess_write rfl hu h4 (hwrite be w)⟩

/-- Settles O8: a shut dword, of whichever kind, reads 0 and drops its write; the four exceptions are not shut. -/
theorem warmResetShuts : Obligations.WarmResetShuts := by
  refine ⟨fun s addr hu hb h1 h2 h4 ho hs => ?_, fun s addr c hu hb h1 h2 h4 hc => ⟨fun hr => ?_, fun ha => ?_⟩,
    fun s addr hu hb ha h4 => ⟨fun hr h1 h2 h3 => ?_, Dev.shut_eq_false, fun r i hopen ht hr hh => ⟨?_, fun w => ?_⟩⟩⟩
  · refine runs_shut hu h4 ?_ fun be w => State.writeDword_bitShut (s := s.begin) be w h1 h2 ho hs
    rw [Dev.readDword_bit true h1 h2, Dev.readAlias_shut (d := s.begin.dev) hs]
  · refine runs_shut hu h4 ?_ fun be w => State.writeDword_memoryShut (s := s.begin) be w h1 h2 hc hb hr
    rw [Dev.readDword_memory true h1 h2, Dev.readCell_closed true hc (Dev.cellOpen_busy (d := s.begin.dev) hb hr)]
  · rcases ha with ha | ha <;> simp [Dev.cellOpen, Cellref.region, Area.page, ha]
  · have hs := Dev.shut_eq_true (d := s.begin.dev) hb hr h1 h2 h3
    refine runs_shut hu h4 ?_ fun be w => State.writeDword_shut (s := s.begin) be w ha hs
    rw [Dev.readDword_control true ha, Dev.readRegister_shut true hs]
  · exact Dev.readRegister_value (Dev.shut_eq_false hopen) ht hr hh
  · exact State.writeRegister_open w (Dev.shut_eq_false hopen) ht hr

end Sys2Proof.Machine
end

section
/-! PROOFS. The family of start and reset, the host's side: host reset, PERST_N, the data link up and down. -/

namespace Sys2Proof.Machine

variable {s : State} {d : Dev}

/-! ### Host reset (R68, R77) -/

theorem State.hostReset_runs {flr : Bool} (hu : s.Up) (hr : s.dev.host.hostReset = false) :
    s.hostReset flr = { s.onDev (Dev.hostReset flr) with irq := {} } :=
  if_neg (by simp [show s.dev.held = false from hu, hr])

/-- The device's part: the link ends, D0, the BARs and bus mastering return, the rings are dropped. -/
theorem Dev.hostReset_fields {flr : Bool} (hu : d.held = false) (hr : d.host.hostReset = false) :
    let h := (d.hostReset flr).host
    h.hostReset = true ∧ h.dlUp = false ∧ h.linkRate = 0 ∧ h.linkWidth = 0 ∧ h.descs = [] ∧ h.done = [] ∧ h.d3hot = false ∧
      h.busMaster = false ∧ h.bars = [] := by
  have hgo : ¬ (d.held = true ∨ d.host.hostReset = true) := by simp [hu, hr]
  rw [Dev.hostReset, if_neg hgo]
  exact ⟨rfl, rfl, rfl, rfl, rfl, rfl, rfl, rfl, rfl⟩

/-- A hot reset, and one of the function alone. -/
theorem exec_hostReset {kind : HostReset} (h : kind ≠ .perst) :
    ∃ flr, exec (.hostReset kind) s = .next (s.begin.hostReset flr).commit := by
  cases kind with
  | hot => exact ⟨false, rfl⟩
  | flr => exact ⟨true, rfl⟩
  | perst => exact absurd rfl h

/-! ### The data link (R64, R82, R113) -/

/-- The device with its link up, trained to a rate and a width. -/
def Dev.linkUpAt (rate width : Nat) (d : Dev) : Dev :=
  (({ d.draw with host := { d.host with
      dlUp := true, hostReset := false, training := false, linkRate := rate, linkWidth := width } }).put F.TOP_READY_hif 1).put
    (readyBit 64) 1

theorem Dev.dlUp_trains (hu : d.held = false) (hp : d.host.perstN = true) (he : d.sec.extest = false) :
    d.dlUp = d.linkUpAt (Config.linkRate d.fresh % 4 + 1) (2 ^ (Config.linkWidth d.fresh % 3)) :=
  if_neg (by simp [hu, hp, he])

/-- With PERST_N low, or in EXTEST, no link comes up. -/
theorem Dev.dlUp_stays (h : d.host.perstN = false ∨ d.sec.extest = true) : d.dlUp = d :=
  if_pos (by rcases h with h | h <;> simp [h])

theorem linkRate_mem (n : Nat) : n % 4 + 1 ∈ [1, 2, 3, 4] := by
  have := Nat.mod_lt n (show 0 < 4 by decide)
  simp only [List.mem_cons, List.not_mem_nil, or_false]
  omega

theorem linkWidth_mem (n : Nat) : 2 ^ (n % 3) ∈ [1, 2, 4] := by
  have hall : ∀ k, k < 3 → 2 ^ k ∈ [1, 2, 4] := by decide
  exact hall _ (Nat.mod_lt n (by decide))

/-- The link down: a fault of a ready interface that neither a host reset nor PERST_N explains (R113). -/
theorem Dev.dlDown_eq : d.dlDown =
    let e := { d with host := { d.host with dlUp := false, training := d.host.perstN, linkRate := 0, linkWidth := 0 } }
    ((if d.flag F.TOP_READY_hif = true ∧ d.host.hostReset = false ∧ d.host.perstN = true then
      e.fault R.HIF_EVENT 4 E.HIF_LINK_DOWN 0 else e).put F.TOP_READY_hif 0).portDown 64 := by
  have hlost : (d.flag F.TOP_READY_hif && !d.host.hostReset && d.host.perstN) = true ↔
      d.flag F.TOP_READY_hif = true ∧ d.host.hostReset = false ∧ d.host.perstN = true := by
    simp [and_assoc]
  simp only [Dev.dlDown, Dev.when, hlost]
  rfl

/-- Settles O10: a host reset by its two kinds, PERST_N and the link by the definitions of their commands. -/
theorem hostLink : Obligations.HostLink := by
  refine fun s => ⟨fun kind hk hu hr => ?_, rfl, rfl, fun hu => ⟨fun hp he => ?_, fun h => ?_⟩, ?_⟩
  · obtain ⟨flr, hexec⟩ := exec_hostReset (s := s) hk
    rw [State.hostReset_runs (s := s.begin) hu hr] at hexec
    obtain ⟨h1, h2, h3, h4, h5, h6, h7, h8, h9⟩ := Dev.hostReset_fields (d := s.begin.dev) (flr := flr) hu hr
    exact ⟨_, hexec, rfl, h1, h2, h3, h4, h5, h6, h7, h8, h9, rfl⟩
  · exact ⟨_, linkRate_mem _, _, linkWidth_mem _, runUp_as hu (congrArg Dev.haltNow (Dev.dlUp_trains (d := s.begin.dev) hu hp he))⟩
  · exact runUp_as hu (congrArg Dev.haltNow (Dev.dlUp_stays (d := s.begin.dev) h))
  · exact congrArg (fun e : Dev => Host.Outcome.next ({ s.begin with dev := e } : State).commit) (Dev.dlDown_eq (d := s.begin.dev))

end Sys2Proof.Machine
end

section
/-! PROOFS. The family of start and reset, the outputs: spread spectrum, parking, delays, pulses, delay-locked lines. -/

namespace Sys2Proof.Machine

variable {s : State} {d : Dev}

/-! ### Bits of a register -/

/-- A bit of a register is that bit of the field it lies in. -/
theorem Dev.hasBit_get (f : Fld) {j : Nat} (h : j < f.width) : hasBit (d.get f) j = d.bitAt f.addr (f.lsb + j) := by
  rw [hasBit, Dev.get, bits, BitVec.testBit_toNat, BitVec.getLsbD_extractLsb', Dev.bitAt, decide_eq_true h, Bool.true_and]

/-- A bit of a register reads as before after another of its bits was written. -/
theorem Dev.bitAt_setBit_other {a i j : Nat} (b : Bool) (h : i ≠ j) : (d.setBit a i b).bitAt a j = d.bitAt a j := by
  rw [Dev.setBit_eq, Dev.bitAt, Dev.put, Dev.word_setWord_same, getLsbD_setBits, if_neg (show ¬ (j < 32 ∧ i ≤ j ∧ j < i + 1) by omega),
    Dev.bitAt]

theorem Dev.bitAt_setBit_same {a i : Nat} (b : Bool) (h : i < 32) : (d.setBit a i b).bitAt a i = b := by
  rw [Dev.setBit_eq, Dev.bitAt_put_same _ h]
  cases b <;> rfl

/-! ### Writes that name no reserved bit -/

/-- A command that writes such a word to a register whose write starts an operation runs that operation on the word. -/
theorem runHost_startsNamed {a b i : Nat} {w : Word} {f : Dev → Dev} (h : s.Reaches a) (hc : startsOp a b i = true)
    (hw : w &&& ~~~(namedAt a) = 0) (hf : ∀ d : Dev, d.special b i w = some f) :
    runHost (State.writeReg a w.toNat) s = .next (s.begin.onDev (fun d => f (d.touched a))).commit := by
  have hword : BitVec.ofNat 32 w.toNat = w := by rw [BitVec.ofNat_toNat, BitVec.setWidth_eq]
  refine runHost_starts h hc ?_ fun d => ?_
  · rw [hword, hw]
  · rw [hword, and_mask_of_named hw, hf]

/-! ### Spread spectrum (R390, R392) -/

theorem runs_sscAuxWrite {w : Word} (h : s.Reaches R.SYN_SSC_AUX) (hw : w &&& ~~~(namedAt R.SYN_SSC_AUX) = 0) :
    Runs (.sscAuxWrite w) s (fun d => (d.touched R.SYN_SSC_AUX).writeSscAux w) :=
  runHost_startsNamed (b := R.SYN_SSC_AUX) (i := 0) h (by decide) hw fun _ => rfl

theorem runs_sscCoreWrite {w : Word} (h : s.Reaches R.SYN_SSC_CORE) (hw : w &&& ~~~(namedAt R.SYN_SSC_CORE) = 0) :
    Runs (.sscCoreWrite w) s (fun d => (d.touched R.SYN_SSC_CORE).writeSscCore w) :=
  runHost_startsNamed (b := R.SYN_SSC_CORE) (i := 0) h (by decide) hw fun _ => rfl

/-! ### Parking (R75, R397) -/

/-- The word with the outputs to park in its low half. -/
theorem setWidth_named (park : BitVec 16) : park.setWidth 32 &&& ~~~(namedAt R.OUT_CTRL) = 0#32 := by
  have hmask : ∀ i, i < 32 → (namedAt R.OUT_CTRL).getLsbD i = decide (i < 16) := by decide
  refine BitVec.eq_of_getLsbD_eq fun i hi => ?_
  rw [BitVec.getLsbD_and, BitVec.getLsbD_not, hmask i hi, BitVec.getLsbD_zero, BitVec.getLsbD_setWidth]
  by_cases h : i < 16
  · simp [h]
  · rw [BitVec.getLsbD_of_ge park i (by omega), Bool.and_false, Bool.false_and]

theorem bits_setWidth (park : BitVec 16) : bits (park.setWidth 32) 0 16 = park.toNat := by
  have h := park.isLt
  rw [bits, BitVec.extractLsb'_toNat, BitVec.toNat_setWidth, Nat.shiftRight_zero]
  omega

/-- Without a retarget every output is parked and unparked as the write says (R387). -/
theorem Dev.writePark_free {v : Nat} (h : d.retargeting = false) : d.writePark v = (d.put F.OUT_CTRL_park v).syncParked := by
  have hkept : (List.range 16).filter (fun j =>
      d.retargeting && d.outEnabled j && hasBit (d.get F.OUT_CTRL_park) j && !hasBit v j) = [] :=
    List.filter_eq_nil_iff.2 fun j _ => by simp [h]
  simp only [Dev.writePark, hkept, Dev.each_nil, List.foldl_nil]

theorem runs_outPark {park : BitVec 16} (h : s.Reaches R.OUT_CTRL) :
    Runs (.outPark park) s (fun d => (d.touched R.OUT_CTRL).writePark park.toNat) := by
  have hv : (park.setWidth 32).toNat = park.toNat := by
    have := park.isLt
    rw [BitVec.toNat_setWidth]
    omega
  refine (congrArg (fun v => runHost (State.writeReg R.OUT_CTRL v) s) hv.symm).trans ?_
  refine runHost_startsNamed (b := R.OUT_CTRL) (i := 0) h (by decide) (setWidth_named park) fun d => ?_
  exact (show d.special R.OUT_CTRL 0 (park.setWidth 32) = some (Dev.writePark (bits (park.setWidth 32) 0 16)) from rfl).trans
    (by rw [bits_setWidth])

/-- One output's part of the parked bits. -/
def Dev.syncOne (j : Nat) (d : Dev) : Dev := d.when (d.parkWanted j && !d.outHigh j) (Dev.setBit R.OUT_STATUS j true)

theorem Dev.syncParked_eq : d.syncParked = Dev.each (List.range 16) Dev.syncOne d := rfl

theorem Dev.syncOne_frame (i : Nat) : (d.syncOne i).pps = d.pps ∧ (d.syncOne i).outs = d.outs ∧ (d.syncOne i).rst = d.rst ∧
    ∀ a, R.OUT_STATUS ≠ a → (d.syncOne i).word a = d.word a := by
  rw [Dev.syncOne]
  cases d.parkWanted i && !d.outHigh i with
  | false => exact ⟨rfl, rfl, rfl, fun _ _ => rfl⟩
  | true => exact ⟨rfl, rfl, rfl, fun a ha => Dev.word_put_ne _ _ ha⟩

/-- What an output is to be does not hang on the parked bits. -/
theorem Dev.parkWanted_congr {e : Dev} (hp : e.pps = d.pps) (hr : e.rst = d.rst)
    (hw : ∀ a, R.OUT_STATUS ≠ a → e.word a = d.word a) (j : Nat) : e.parkWanted j = d.parkWanted j := by
  have hcfg : R.OUT_STATUS ≠ R.OUT_CLK_CFG j := Nat.ne_of_lt (Nat.lt_add_right _ (by decide))
  have hstatus : R.OUT_STATUS ≠ R.OUT_CLK_STATUS j := Nat.ne_of_lt (Nat.lt_add_right _ (by decide))
  simp only [Dev.parkWanted, Dev.outEnabled, Dev.dllDown, Dev.blockInReset, Dev.flag, Dev.get, Dev.bitAt, Dev.ppsOf, hp, hr,
    hw _ hcfg, hw _ hstatus, hw R.OUT_CTRL (by decide), hw R.TOP_BLK_RST (by decide)]

/-- Whether it is in a high phase or a pulse hangs on its own parked bit alone. -/
theorem Dev.outHigh_congr {e : Dev} {j : Nat} (hj : j < 16) (hp : e.pps = d.pps) (ho : e.outs = d.outs)
    (hb : e.bitAt R.OUT_STATUS j = d.bitAt R.OUT_STATUS j) : e.outHigh j = d.outHigh j := by
  have hbit : hasBit (e.get F.OUT_STATUS_parked) j = hasBit (d.get F.OUT_STATUS_parked) j := by
    rw [Dev.hasBit_get _ hj, Dev.hasBit_get _ hj, Nat.zero_add, hb]
  simp only [Dev.outHigh, hbit, ho, Dev.ppsOf, hp]

/-- One output's part sets its own bit where it is to park and has finished its high phase or pulse. -/
theorem Dev.syncOne_same {j : Nat} (hj : j < 16) :
    (d.syncOne j).bitAt R.OUT_STATUS j = (d.bitAt R.OUT_STATUS j || (d.parkWanted j && !d.outHigh j)) := by
  rw [Dev.syncOne]
  cases d.parkWanted j && !d.outHigh j with
  | false => rw [Dev.when_false, Bool.or_false]
  | true => rw [Dev.when_true, Dev.bitAt_setBit_same true (by omega), Bool.or_true]

theorem Dev.syncOne_other {i j : Nat} (h : i ≠ j) : (d.syncOne i).bitAt R.OUT_STATUS j = d.bitAt R.OUT_STATUS j :=
  Dev.when_keeps (fun e => e.bitAt R.OUT_STATUS j) (Dev.bitAt_setBit_other true h) _

theorem Dev.syncSome_out {j : Nat} (l : List Nat) (h : j ∉ l) :
    (Dev.each l Dev.syncOne d).bitAt R.OUT_STATUS j = d.bitAt R.OUT_STATUS j := by
  induction l generalizing d with
  | nil => rfl
  | cons i l ih =>
    obtain ⟨hi, hl⟩ := List.ne_and_not_mem_of_not_mem_cons h
    rw [Dev.each_cons, ih hl, Dev.syncOne_other hi.symm]

theorem Dev.syncSome_in {j : Nat} (l : List Nat) (hj : j < 16) (h : j ∈ l) (hd : l.Nodup) :
    (Dev.each l Dev.syncOne d).bitAt R.OUT_STATUS j = (d.bitAt R.OUT_STATUS j || (d.parkWanted j && !d.outHigh j)) := by
  induction l generalizing d with
  | nil => exact absurd h List.not_mem_nil
  | cons i l ih =>
    obtain ⟨hil, hl⟩ := List.nodup_cons.1 hd
    rw [Dev.each_cons]
    by_cases hij : i = j
    · subst hij
      rw [Dev.syncSome_out l hil, Dev.syncOne_same hj]
    · obtain ⟨hp, ho, hr, hw⟩ := d.syncOne_frame i
      have hb := d.syncOne_other hij
      rw [ih ((List.mem_cons.1 h).resolve_left (Ne.symm hij)) hl, hb, Dev.parkWanted_congr hp hr hw,
        Dev.outHigh_congr hj hp ho hb]

theorem Dev.syncParked_bit {j : Nat} (hj : j < 16) :
    d.syncParked.bitAt R.OUT_STATUS j = (d.bitAt R.OUT_STATUS j || (d.parkWanted j && !d.outHigh j)) :=
  Dev.syncSome_in _ hj (List.mem_range.2 hj) List.nodup_range

/-! ### Delays (R396) -/

theorem runs_outDelayWrite {i : Fin 12} {w : Word} (h : s.Reaches (R.OUT_CLK_DLY i)) (hw : w &&& ~~~(namedAt (R.OUT_CLK_DLY i)) = 0) :
    Runs (.outDelayWrite i w) s (fun d => (d.touched (R.OUT_CLK_DLY i)).writeDelay i w) := by
  have hstarts : ∀ i : Fin 12, startsOp (R.OUT_CLK_DLY i) (R.OUT_CLK_DLY 0) i = true := by decide
  exact runHost_startsNamed (b := R.OUT_CLK_DLY 0) (i := i) h (hstarts i) hw fun _ => rfl

/-! ### Pulses (R398–R402) -/

theorem Dev.ppsOf_setPps (k : Nat) (p : Pps) : (d.setPps k p).ppsOf k = p := by
  by_cases h : p = {}
  · simp [Dev.setPps, Dev.ppsOf, Sparse.getD, h, Sparse.get?_del_same]
  · simp [Dev.setPps, Dev.ppsOf, Sparse.getD, h]

/-- The pulse output `k` with its next edge at `t`, before it sends: its alignment, the pulses that wait, its aligned bit. -/
def Dev.ppsPlaced (k t : Nat) (a : Int) (waiting : List (Int × Nat)) (d : Dev) : Dev :=
  (d.setPps k { d.ppsOf k with from_ := t + 1, align := some a, realign := waiting }).when ((d.ppsOf k).cfg.src != 0)
    (Dev.put (F.OUT_PPS_STATUS_aligned k) 1)

/-- The pulse sent: it is busy to its end, its output is parked no more. -/
def Dev.ppsSent (k t : Nat) (a : Int) (waiting : List (Int × Nat)) (d : Dev) : Dev :=
  let p := d.ppsOf k
  let w := p.cfg.pulseWidth
  (((d.ppsPlaced k t a waiting).setPps k
    { p with from_ := t + 1, align := some a, realign := waiting, busyTo := some (t + w) }).setBit R.OUT_STATUS (12 + k) false).emit
      (.pulse k t w p.cfg.inverted)

theorem Dev.ppsPlaced_frame (k t : Nat) (a : Int) (waiting : List (Int × Nat)) :
    (d.ppsPlaced k t a waiting).sent = d.sent ∧ (d.ppsPlaced k t a waiting).sec = d.sec ∧ (d.ppsPlaced k t a waiting).rst = d.rst ∧
      (d.ppsPlaced k t a waiting).ppsOf k = { d.ppsOf k with from_ := t + 1, align := some a, realign := waiting } ∧
      ∀ x, R.OUT_PPS_STATUS k ≠ x → (d.ppsPlaced k t a waiting).word x = d.word x := by
  refine ⟨?_, ?_, ?_, ?_, fun x hx => ?_⟩
  · exact Dev.when_keeps Dev.sent rfl _
  · exact Dev.when_keeps Dev.sec rfl _
  · exact Dev.when_keeps Dev.rst rfl _
  · exact (Dev.when_keeps (fun e : Dev => e.ppsOf k) rfl _).trans (Dev.ppsOf_setPps k _)
  · exact Dev.when_keeps (fun e : Dev => e.word x) (Dev.word_put_ne _ _ hx) _

/-- The edge does not change whether the output is to be parked. -/
theorem Dev.parkWanted_ppsPlaced (k t : Nat) (a : Int) (waiting : List (Int × Nat)) :
    (d.ppsPlaced k t a waiting).parkWanted (12 + k) = d.parkWanted (12 + k) := by
  obtain ⟨-, -, hr, hp, hw⟩ := d.ppsPlaced_frame k t a waiting
  have hk : ¬ 12 + k < 12 := by omega
  have hctrl : R.OUT_PPS_STATUS k ≠ R.OUT_CTRL := Ne.symm (Nat.ne_of_lt (Nat.lt_add_right _ (by decide)))
  have hrst : R.OUT_PPS_STATUS k ≠ R.TOP_BLK_RST := Ne.symm (Nat.ne_of_lt (Nat.lt_add_right _ (by decide)))
  simp only [Dev.parkWanted, Dev.outEnabled, Dev.dllDown, Dev.blockInReset, Dev.get, Dev.bitAt, if_neg hk, Nat.add_sub_cancel_left,
    hr, hp, hw _ hctrl, hw _ hrst]

section
variable {k t : Nat} {a : Int} {waiting : List (Int × Nat)}

theorem Dev.ppsEdge_sends (hn : (d.ppsOf k).next = none) (he : (d.ppsOf k).cfg.enable = true)
    (hedge : (d.ppsOf k).cfg.edge (max (d.ppsOf k).from_ d.now) (d.ppsOf k).align (d.ppsOf k).realign = some (t, a, waiting))
    (ht : d.timeReady = true) (hpark : d.parkWanted (12 + k) = false) (hnow : t < d.now + edgeUnits)
    (hbusy : ∀ e, (d.ppsOf k).busyTo = some e → e ≤ t) (hx : d.sec.extest = false) :
    d.ppsEdge k = d.ppsSent k t a waiting := by
  have htake : d.ppsTakeOver k = d := by rw [Dev.ppsTakeOver, hn]
  have hinside : (match (d.ppsOf k).busyTo with | some e => decide (t < e) | none => false) = false := by
    cases hb : (d.ppsOf k).busyTo with
    | none => rfl
    | some e => exact decide_eq_false (Nat.not_lt.2 (hbusy e hb))
  obtain ⟨-, hsec, -, -, hw⟩ := d.ppsPlaced_frame k t a waiting
  have hready : (d.ppsPlaced k t a waiting).timeReady = true := by
    rw [← ht, Dev.timeReady, Dev.timeReady, Dev.flag, Dev.flag, Dev.get, Dev.get,
      hw _ (Ne.symm (Nat.ne_of_lt (Nat.lt_add_right _ (by decide))))]
  have hwanted := (d.parkWanted_ppsPlaced k t a waiting).trans hpark
  have hplaced : (d.setPps k { d.ppsOf k with from_ := t + 1, align := some a, realign := waiting }).when
      ((d.ppsOf k).cfg.src != 0) (Dev.put (F.OUT_PPS_STATUS_aligned k) 1) = d.ppsPlaced k t a waiting := rfl
  simp only [Dev.ppsEdge, htake, he, hedge, Bool.not_true, Bool.false_eq_true, if_false, if_neg (Nat.not_le.2 hnow), hplaced, hready,
    hwanted, Bool.or_self, hsec, hx, Bool.not_false, Dev.when_true]
  exact if_neg (ne_true_of_eq_false hinside)

theorem Dev.ppsSent_fields (hk : k < 4) (hsent : d.sent = []) :
    (d.ppsSent k t a waiting).sent = [.pulse k t (d.ppsOf k).cfg.pulseWidth (d.ppsOf k).cfg.inverted] ∧
      ((d.ppsSent k t a waiting).ppsOf k).busyTo = some (t + (d.ppsOf k).cfg.pulseWidth) ∧
      ((d.ppsSent k t a waiting).ppsOf k).from_ = t + 1 ∧ ((d.ppsSent k t a waiting).ppsOf k).align = some a ∧
      ((d.ppsSent k t a waiting).ppsOf k).realign = waiting ∧ (d.ppsSent k t a waiting).bitAt R.OUT_STATUS (12 + k) = false := by
  obtain ⟨hs, -⟩ := d.ppsPlaced_frame k t a waiting
  have hp : (d.ppsSent k t a waiting).ppsOf k = { d.ppsOf k with
      from_ := t + 1, align := some a, realign := waiting, busyTo := some (t + (d.ppsOf k).cfg.pulseWidth) } := Dev.ppsOf_setPps k _
  rw [hp]
  refine ⟨?_, rfl, rfl, rfl, rfl, Dev.bitAt_setBit_same false (by omega)⟩
  exact congrArg (· ++ _) (hs.trans hsent)

end

/-! ### Alignment lost (R400) -/

theorem Dev.ppsLost_holds {k : Nat} (hs : (d.ppsOf k).cfg.src ≠ 0) (hp : d.pulsesOf (d.ppsOf k).cfg.src ≠ [])
    (hh : d.flag (F.OUT_PPS_STATUS_holding k) = false) :
    d.ppsLost k = ((d.put (F.OUT_PPS_STATUS_holding k) 1).outEvent 1 (12 + k)).raise E.OUT_ALIGN_LOST (12 + k) :=
  if_neg (by simp [hs, hp, hh])

/-- Settles O45: the writes are the operations of their registers, an edge that nothing stops sends its pulse, and the parked bits are
set output by output. -/
theorem outputWork : Obligations.OutputWork := by
  refine ⟨fun s => ⟨fun w => runs_sscAuxWrite, fun w => runs_sscCoreWrite, fun park h hr => ?_, fun i w => runs_outDelayWrite,
    fun k t a waiting hu hn he hedge ht hpark hnow hbusy hx => ?_, fun k hu hs hp hh => ?_, fun i hu => runUp_of_up _ hu,
    fun i hu => runUp_of_up _ hu⟩, fun d j => Dev.syncParked_bit⟩
  · exact runs_congr (runs_outPark h) (Dev.writePark_free (d := s.begin.dev.touched R.OUT_CTRL) hr)
  · exact ⟨s.begin.dev.ppsSent k t a waiting,
      runUp_as hu (Dev.ppsEdge_sends (d := s.begin.dev) hn he hedge ht hpark hnow hbusy hx), Dev.ppsSent_fields k.isLt rfl⟩
  · exact runUp_as hu (Dev.ppsLost_holds (d := s.begin.dev) hs hp hh)

end Sys2Proof.Machine
end

section
/-! SUPPORT. Laws of the places of a list whose values lie nearest its median (R284). -/

namespace Sys2Proof.Machine

variable {α : Type}

/-! ### Elements put in their places -/

theorem insertBy_perm (before : α → α → Bool) (x : α) (l : List α) : (insertBy before x l).Perm (x :: l) := by
  induction l with
  | nil => exact .refl _
  | cons y l ih =>
    rw [insertBy]
    split
    · exact .refl _
    · exact (ih.cons y).trans (.swap x y l)

/-- Elements put in by rising keys stand in the order of their keys. -/
theorem insertBy_sorted {key : α → Nat} (x : α) {l : List α} (h : l.Pairwise (fun a b => key a ≤ key b)) :
    (insertBy (fun a b => decide (key a < key b)) x l).Pairwise (fun a b => key a ≤ key b) := by
  induction l with
  | nil => exact List.pairwise_singleton _ _
  | cons y l ih =>
    obtain ⟨hy, hl⟩ := List.pairwise_cons.1 h
    rw [insertBy]
    split
    · next hlt =>
      have hxy : key x < key y := of_decide_eq_true hlt
      refine List.pairwise_cons.2 ⟨fun z hz => ?_, h⟩
      rcases List.mem_cons.1 hz with rfl | hz
      · exact hxy.le
      · exact hxy.le.trans (hy z hz)
    · next hlt =>
      have hyx : key y ≤ key x := Nat.not_lt.1 fun hxy => hlt (decide_eq_true hxy)
      refine List.pairwise_cons.2 ⟨fun z hz => ?_, ih hl⟩
      rcases List.mem_cons.1 ((insertBy_perm _ x l).mem_iff.1 hz) with rfl | hz
      · exact hyx
      · exact hy z hz

theorem insertAll_perm (before : α → α → Bool) (l acc : List α) :
    (l.foldl (fun r i => insertBy before i r) acc).Perm (l ++ acc) := by
  induction l generalizing acc with
  | nil => exact .refl _
  | cons x l ih =>
    rw [List.foldl_cons]
    exact (ih _).trans (((insertBy_perm before x acc).append_left l).trans List.perm_middle)

theorem insertAll_sorted {key : α → Nat} (l : List α) {acc : List α} (h : acc.Pairwise (fun a b => key a ≤ key b)) :
    (l.foldl (fun r i => insertBy (fun a b => decide (key a < key b)) i r) acc).Pairwise (fun a b => key a ≤ key b) := by
  induction l generalizing acc with
  | nil => exact h
  | cons x l ih => exact ih (insertBy_sorted x h)

/-! ### The places with the least keys -/

/-- The first `k` numbers by rising keys. -/
def placesByKey (key : Nat → Nat) (k : Nat) : List Nat :=
  (List.range k).foldl (fun acc i => insertBy (fun a b => decide (key a < key b)) i acc) []

/-- Those `n` of the first `k` numbers whose keys are least, ascending. -/
def leastPlaces (key : Nat → Nat) (n k : Nat) : List Nat :=
  (List.range k).filter (fun i => ((placesByKey key k).take n).contains i)

section
variable (key : Nat → Nat) (n k : Nat)

theorem placesByKey_perm : (placesByKey key k).Perm (List.range k) := by
  have h := insertAll_perm (fun a b => decide (key a < key b)) (List.range k) []
  rwa [List.append_nil] at h

theorem placesByKey_sorted : (placesByKey key k).Pairwise (fun a b => key a ≤ key b) :=
  insertAll_sorted (key := key) _ List.Pairwise.nil

theorem mem_leastPlaces {i : Nat} : i ∈ leastPlaces key n k ↔ i ∈ (placesByKey key k).take n := by
  rw [leastPlaces, List.mem_filter, List.contains_iff_mem, and_iff_right_iff_imp]
  exact fun h => (placesByKey_perm key k).mem_iff.1 (List.mem_of_mem_take h)

theorem leastPlaces_perm : (leastPlaces key n k).Perm ((placesByKey key k).take n) := by
  refine (List.perm_ext_iff_of_nodup (List.nodup_range.filter _) ?_).2 fun i => mem_leastPlaces key n k
  exact ((placesByKey_perm key k).nodup_iff.2 List.nodup_range).sublist (List.take_sublist _ _)

theorem length_leastPlaces : (leastPlaces key n k).length = min n k := by
  rw [(leastPlaces_perm key n k).length_eq, List.length_take, (placesByKey_perm key k).length_eq, List.length_range]

theorem leastPlaces_ascending : (leastPlaces key n k).Pairwise (· < ·) := List.pairwise_lt_range.filter _

/-- A place chosen has no greater key than one left. -/
theorem key_le_of_mem_leastPlaces {i j : Nat} (hi : i ∈ leastPlaces key n k) (hj : j < k) (hout : j ∉ leastPlaces key n k) :
    key i ≤ key j := by
  have hsorted := placesByKey_sorted key k
  have hmem : j ∈ (placesByKey key k).take n ++ (placesByKey key k).drop n := by
    rw [List.take_append_drop]
    exact (placesByKey_perm key k).mem_iff.2 (List.mem_range.2 hj)
  rw [← List.take_append_drop n (placesByKey key k)] at hsorted
  rw [mem_leastPlaces] at hi hout
  exact (List.pairwise_append.1 hsorted).2.2 i hi j ((List.mem_append.1 hmem).resolve_left hout)

end

/-! ### The median (R284) -/

/-- Twice the median of some values: the sum of the middle two, or twice the middle one. -/
def twiceMedian (l : List Nat) : Nat := nthD l.mergeSort ((l.length - 1) / 2) 0 + nthD l.mergeSort (l.length / 2) 0

/-- Twice the distance of a place's value from the median. -/
def medianDist (l : List Nat) (i : Nat) : Nat := (2 * nthD l i 0 - twiceMedian l) + (twiceMedian l - 2 * nthD l i 0)

/-- An element of a list of numbers taken as integers is the integer of the element. -/
theorem nthD_cast (l : List Nat) (i : Nat) :
    nthD (l >>= fun a => pure (a : Int)) i 0 = ((nthD l i 0 : Nat) : Int) := by
  have hmap : (l >>= fun a => pure (a : Int)) = List.map (Nat.cast (R := Int)) l := List.flatMap_pure_eq_map _ l
  rw [hmap, nthD, nthD, List.getElem?_map]
  cases l[i]? <;> rfl

theorem medianDist_eq (l : List Nat) (i : Nat) : medianDist l i = (2 * (nthD l i 0 : Int) - twiceMedian l).natAbs := by
  rw [nthD_cast, medianDist]
  omega

theorem nearestMedian_eq (n : Nat) (l : List Nat) : nearestMedian n l = leastPlaces (medianDist l) n l.length := rfl

/-- The places chosen are as many as are asked for, ascending, and none left lies nearer the median. -/
theorem nearestMedian_spec (n : Nat) (l : List Nat) :
    (nearestMedian n l).length = min n l.length ∧ (∀ i ∈ nearestMedian n l, i < l.length) ∧ (nearestMedian n l).Pairwise (· < ·) ∧
      ∀ i ∈ nearestMedian n l, ∀ j < l.length, j ∉ nearestMedian n l →
        (2 * (nthD l i 0 : Int) - twiceMedian l).natAbs ≤ (2 * (nthD l j 0 : Int) - twiceMedian l).natAbs := by
  rw [nearestMedian_eq]
  refine ⟨length_leastPlaces _ _ _, fun i hi => List.mem_range.1 (List.mem_of_mem_filter hi), leastPlaces_ascending _ _ _,
    fun i hi j hj hout => ?_⟩
  rw [← medianDist_eq, ← medianDist_eq]
  exact key_le_of_mem_leastPlaces _ _ _ hi hj hout

end Sys2Proof.Machine
end

section
/-! SUPPORT. Laws of several fields written one after another: what each of them, and any other, reads then. -/

namespace Sys2Proof.Machine

/-- A device after some field writes, in turn. -/
def Dev.puts (l : List (Fld × Nat)) (d : Dev) : Dev := Dev.each l (fun x e => e.put x.1 x.2) d

variable {d : Dev} {l : List (Fld × Nat)}

theorem Dev.puts_cons (x : Fld × Nat) (l : List (Fld × Nat)) : d.puts (x :: l) = (d.put x.1 x.2).puts l := (rfl)

theorem Dev.puts_nil : d.puts [] = d := (rfl)

/-- A register with none of those fields reads as before. -/
theorem Dev.word_puts_ne {a : Nat} (h : ∀ g ∈ l.map Prod.fst, g.addr ≠ a) : (d.puts l).word a = d.word a := by
  induction l generalizing d with
  | nil => rfl
  | cons x l ih =>
    rw [List.map_cons, List.forall_mem_cons] at h
    rw [Dev.puts_cons, ih h.2, Dev.word_put_ne _ _ h.1]

/-- A field apart from all of those written reads as before. -/
theorem Dev.get_puts_apart {f : Fld} (h : ∀ g ∈ l.map Prod.fst, g.apart f) : (d.puts l).get f = d.get f := by
  induction l generalizing d with
  | nil => rfl
  | cons x l ih =>
    rw [List.map_cons, List.forall_mem_cons] at h
    rw [Dev.puts_cons, ih h.2, Dev.get_put_apart _ _ h.1]

/-- Each of some fields that share no bit reads the value it was given. -/
theorem Dev.get_puts_mem {f : Fld} {v : Nat} (hp : (l.map Prod.fst).Pairwise Fld.apart) (h : (f, v) ∈ l)
    (hf : f.lsb + f.width ≤ 32) : (d.puts l).get f = v % 2 ^ f.width := by
  induction l generalizing d with
  | nil => exact absurd h List.not_mem_nil
  | cons x l ih =>
    obtain ⟨hx, hl⟩ := List.pairwise_cons.1 hp
    rw [Dev.puts_cons]
    rcases List.mem_cons.1 h with rfl | h
    · rw [Dev.get_puts_apart fun g hg => (hx g hg).imp Ne.symm Or.symm, Dev.get_put_same _ _ _ hf]
    · exact ih hl h

theorem Dev.puts_raised : (d.puts l).raised = d.raised := by
  induction l generalizing d with
  | nil => rfl
  | cons x l ih => rw [Dev.puts_cons, ih, Dev.put_raised]

end Sys2Proof.Machine
end

section
/-! PROOFS. The family of start and reset, the TDC channels: results, calibration pairs, trims. -/

namespace Sys2Proof.Machine

variable {s : State} {d : Dev}

/-! ### A channel's state -/

theorem Dev.tdcOf_setTdc_ne {c k : Nat} (t : Tdc) (h : c ≠ k) : (d.setTdc c t).tdcOf k = d.tdcOf k := by
  by_cases ht : t = {}
  · simp [Dev.setTdc, Dev.tdcOf, Sparse.getD, ht, Sparse.get?_del_ne _ h]
  · simp [Dev.setTdc, Dev.tdcOf, Sparse.getD, ht, Sparse.get?_put_ne _ _ h]

theorem Dev.get_setTdc (c : Nat) (t : Tdc) (f : Fld) : (d.setTdc c t).get f = d.get f := rfl
theorem Dev.word_setTdc (c : Nat) (t : Tdc) (a : Nat) : (d.setTdc c t).word a = d.word a := rfl

/-! ### Results (R66, R282) -/

/-- The field writes of a result but its count. -/
def Dev.resultWrites (c t : Nat) (d : Dev) : List (Fld × Nat) :=
  [(F.TDC_RES_LO_frac c, fracOf t), (F.TDC_RES_LO_sec c, secOf t), (F.TDC_RES_LO_epoch c, d.get F.TBS_STATUS_epoch),
    (F.TDC_RES_HI_ns c, nsOf t), (F.TDC_RES_HI_retried c, bit (d.tdcOf c).retried),
    (F.TDC_RES_HI_valid c, bit (d.timeReady && d.flag F.TOP_READY_tdc))]

/-- The channel's state with a result. -/
def Dev.resultTdc (c t : Nat) (d : Dev) : Tdc :=
  { d.tdcOf c with retried := false, last := some t, prev := (d.tdcOf c).last, seen := some d.tbs.edges }

/-- A result is field writes of the channel's three registers and its new state. -/
theorem Dev.tdcResult_eq (c t : Nat) : d.tdcResult c t =
    ((d.puts (d.resultWrites c t)).wrap (F.TDC_RES_CNT c) 1).setTdc c (d.resultTdc c t) := by
  simp only [Dev.tdcResult, Dev.resultWrites, Dev.puts_cons, Dev.puts_nil, Dev.resultTdc]

theorem Dev.resultFields_apart (c t : Nat) : ((d.resultWrites c t).map Prod.fst).Pairwise Fld.apart := by
  simp [Dev.resultWrites, Fld.apart]

theorem Dev.resultFields_count (c t : Nat) : ∀ g ∈ (d.resultWrites c t).map Prod.fst, g.apart (F.TDC_RES_CNT c) := by
  simp [Dev.resultWrites, Fld.apart]

theorem Dev.resultFields_fit (c t : Nat) : ∀ g ∈ (d.resultWrites c t).map Prod.fst, g.lsb + g.width ≤ 32 := by
  simp [Dev.resultWrites]

theorem Dev.tdcResult_get {c t : Nat} {f : Fld} {v : Nat} (h : (f, v) ∈ d.resultWrites c t) :
    (d.tdcResult c t).get f = v % 2 ^ f.width := by
  have hmem : f ∈ (d.resultWrites c t).map Prod.fst := List.mem_map_of_mem h
  have hcount := (Dev.resultFields_count c t f hmem).imp Ne.symm Or.symm
  rw [Dev.tdcResult_eq, Dev.get_setTdc, Dev.wrap_eq, Dev.get_put_apart _ _ hcount,
    Dev.get_puts_mem (Dev.resultFields_apart c t) h (Dev.resultFields_fit c t f hmem)]

theorem Dev.tdcResult_count (c t : Nat) :
    (d.tdcResult c t).get (F.TDC_RES_CNT c) = (d.get (F.TDC_RES_CNT c) + 1) % 2 ^ 32 := by
  rw [Dev.tdcResult_eq, Dev.get_setTdc, Dev.wrap_eq, Dev.get_puts_apart (Dev.resultFields_count c t),
    Dev.get_put_same _ _ _ (show 0 + 32 ≤ 32 by decide), Nat.mod_mod]

theorem Dev.tdcResult_word {c t a : Nat} (h1 : a ≠ R.TDC_RES_LO c) (h2 : a ≠ R.TDC_RES_HI c) (h3 : a ≠ R.TDC_RES_CNT c) :
    (d.tdcResult c t).word a = d.word a := by
  rw [Dev.tdcResult_eq, Dev.word_setTdc, Dev.wrap_eq, Dev.word_put_ne _ _ h3.symm, Dev.word_puts_ne]
  simp [Dev.resultWrites, h1.symm, h2.symm]

/-- A result changes registers and its own channel's state alone. -/
theorem Dev.tdcResult_rest (c t : Nat) : { d.tdcResult c t with csr := d.csr, tdc := d.tdc } = d := rfl

theorem Dev.tdcResult_other {c t k : Nat} (h : k ≠ c) : (d.tdcResult c t).tdcOf k = d.tdcOf k := by
  rw [Dev.tdcResult_eq, Dev.tdcOf_setTdc_ne _ h.symm]
  rfl

theorem bit_mod_beq (b : Bool) : (bit b % 2 ^ 1 == 1) = b := by cases b <;> rfl

/-- The parts of an instant fit their fields, but the second, which wraps. -/
theorem Dev.tdcResult_fields (c t : Nat) :
    (d.tdcResult c t).get (F.TDC_RES_LO_frac c) = fracOf t ∧ (d.tdcResult c t).get (F.TDC_RES_LO_sec c) = secOf t % 256 ∧
      (d.tdcResult c t).get (F.TDC_RES_HI_ns c) = nsOf t ∧ (d.tdcResult c t).get (F.TDC_RES_LO_epoch c) = d.get F.TBS_STATUS_epoch ∧
      (d.tdcResult c t).flag (F.TDC_RES_HI_valid c) = (d.timeReady && d.flag F.TOP_READY_tdc) ∧
      (d.tdcResult c t).flag (F.TDC_RES_HI_retried c) = (d.tdcOf c).retried := by
  have hfrac : fracOf t < 2 ^ 16 := Nat.mod_lt _ (by decide)
  have hns : nsOf t < 2 ^ 30 := (Nat.mod_lt _ (by decide)).trans (by decide)
  have hepoch : d.get F.TBS_STATUS_epoch < 2 ^ 8 := BitVec.isLt _
  refine ⟨?_, ?_, ?_, ?_, ?_, ?_⟩
  · exact (Dev.tdcResult_get (v := fracOf t) (by simp [Dev.resultWrites])).trans (Nat.mod_eq_of_lt hfrac)
  · exact Dev.tdcResult_get (v := secOf t) (by simp [Dev.resultWrites])
  · exact (Dev.tdcResult_get (v := nsOf t) (by simp [Dev.resultWrites])).trans (Nat.mod_eq_of_lt hns)
  · exact (Dev.tdcResult_get (v := d.get F.TBS_STATUS_epoch) (by simp [Dev.resultWrites])).trans (Nat.mod_eq_of_lt hepoch)
  · rw [Dev.flag, Dev.tdcResult_get (v := bit (d.timeReady && d.flag F.TOP_READY_tdc)) (by simp [Dev.resultWrites])]
    exact bit_mod_beq _
  · rw [Dev.flag, Dev.tdcResult_get (v := bit (d.tdcOf c).retried) (by simp [Dev.resultWrites])]
    exact bit_mod_beq _

/-! ### Events on a channel (R278, R281, R283) -/

/-- The device with an event's result and its edge. -/
def Dev.tdcTaken (c cm t : Nat) (d : Dev) : Dev :=
  (d.tdcResult c t).setTdc c { (d.tdcResult c t).tdcOf c with onEdges := some (d.edgeTime c cm) }

/-- That device with what follows the result: a channel in mode 3 leaves it, an auxiliary channel tells of its event. -/
def Dev.tdcSettled (c cm t : Nat) (d : Dev) : Dev :=
  ((d.tdcTaken c cm t).when (decide (80 ≤ c) && (d.tdcTaken c cm t).tdcMode c == 3) (Dev.put (F.TDC_CFG_mode c) 0)).when
    (decide (88 ≤ c)) (Dev.tdcEvent 3 c)

section
variable {c cm t : Nat}

theorem Dev.tdcMeasure_taken (h : d.tdcAccepts c cm = (some t, false)) : d.tdcMeasure c cm = d.tdcSettled c cm t := by
  rw [Dev.tdcMeasure, h]
  rfl

/-- On a lane's channel an event only leaves its result. -/
theorem Dev.tdcMeasure_lane (hc : c < 80) (h : d.tdcAccepts c cm = (some t, false)) : d.tdcMeasure c cm = d.tdcTaken c cm t := by
  rw [Dev.tdcMeasure_taken h, Dev.tdcSettled, decide_eq_false (Nat.not_le.2 hc), decide_eq_false (by omega : ¬ 88 ≤ c)]
  rfl

theorem Dev.tdcMeasure_skips (h : d.tdcAccepts c cm = (none, true)) : d.tdcMeasure c cm = d.sat (F.TDC_SKIP_CNT c) 1 := by
  rw [Dev.tdcMeasure, h]

theorem Dev.measured_taken (h : d.tdcAccepts c cm = (some t, false)) : d.measured c cm =
    if 80 ≤ c ∧ c < 88 then (((d.tdcSettled c cm t).calSample c t).refPulse (c - 80) t).outPulse (c - 80) t
    else (d.tdcSettled c cm t).calSample c t := by
  rw [Dev.measured, h, Dev.tdcMeasure_taken h]

theorem Dev.measured_skips (h : d.tdcAccepts c cm = (none, true)) : d.measured c cm = d.sat (F.TDC_SKIP_CNT c) 1 := by
  rw [Dev.measured, h]
  exact Dev.tdcMeasure_skips h

end

/-! ### Calibration pairs (R279, R280) -/

theorem Dev.onChannel_congr {c : Nat} {f g : Dev → Dev} (h : f d = g d) : d.onChannel c f = d.onChannel c g := by
  rw [Dev.onChannel, Dev.onChannel, h]

/-- The pair shown in TDC_CAL_c. -/
def Dev.pairShown (c c1 c2 : Nat) (d : Dev) : Dev := (d.put (F.TDC_CAL_c1 c) c1).put (F.TDC_CAL_c2 c) c2

theorem Dev.get_pairShown {c c1 c2 : Nat} {f : Fld} (h : R.TDC_CAL c ≠ f.addr) : (d.pairShown c c1 c2).get f = d.get f := by
  rw [Dev.pairShown, Dev.get_put_apart _ _ (.inl h), Dev.get_put_apart _ _ (.inl h)]

/-- A pair lies within 3 of the trimmed nominals. -/
def Dev.pairNear (c c1 c2 : Nat) (d : Dev) : Prop :=
  (c1 ≤ d.get (F.TDC_TRIM_c1_nom c) + 3 ∧ d.get (F.TDC_TRIM_c1_nom c) ≤ c1 + 3) ∧
    (c2 ≤ d.get (F.TDC_TRIM_c2_nom c) + 3 ∧ d.get (F.TDC_TRIM_c2_nom c) ≤ c2 + 3)

theorem Dev.not_pairNear {c c1 c2 : Nat} (h : d.get (F.TDC_TRIM_c1_nom c) + 3 < c1 ∨ c1 + 3 < d.get (F.TDC_TRIM_c1_nom c) ∨
    d.get (F.TDC_TRIM_c2_nom c) + 3 < c2 ∨ c2 + 3 < d.get (F.TDC_TRIM_c2_nom c)) : ¬ d.pairNear c c1 c2 := by
  rw [Dev.pairNear]
  omega

section
variable {c : Nat} (c1 c2 : Nat) (hf : d.flag (F.TDC_STATUS_fault c) = false) (hp : d.tdcPresent c = true)
  (ho : d.tdcPowered c = true)
include hf hp ho

/-- What a pair does, in the terms of the device it met: the pair shown is in none of the registers compared. -/
theorem Dev.calPair_eq : d.calPair c c1 c2 =
    if (decide (c1 ≤ d.get (F.TDC_TRIM_c1_nom c) + 3) && decide (d.get (F.TDC_TRIM_c1_nom c) ≤ c1 + 3)) = true ∧
        (decide (c2 ≤ d.get (F.TDC_TRIM_c2_nom c) + 3) && decide (d.get (F.TDC_TRIM_c2_nom c) ≤ c2 + 3)) = true then
      ((d.pairShown c c1 c2).put (F.TDC_STATUS_fails c) 0).setTdc c { d.tdcOf c with c1 := c1, c2 := c2, paired := true }
    else
      ((((d.pairShown c c1 c2).sat (F.TDC_RETRY_CNT c) 1).put (F.TDC_STATUS_fails c) (d.get (F.TDC_STATUS_fails c) + 1)).setTdc c
        { d.tdcOf c with retried := true }).when (decide (3 ≤ d.get (F.TDC_STATUS_fails c) + 1)) (Dev.tdcFault c) := by
  have hgo : ¬ (d.flag (F.TDC_STATUS_fault c) = true ∨ (!d.tdcPresent c) = true ∨ (!d.tdcPowered c) = true) := by
    simp [hf, hp, ho]
  have hshown : (d.put (F.TDC_CAL_c1 c) c1).put (F.TDC_CAL_c2 c) c2 = d.pairShown c c1 c2 := rfl
  have hof : (d.pairShown c c1 c2).tdcOf c = d.tdcOf c := rfl
  have h1 : (d.pairShown c c1 c2).get (F.TDC_TRIM_c1_nom c) = d.get (F.TDC_TRIM_c1_nom c) := Dev.get_pairShown (by simp)
  have h2 : (d.pairShown c c1 c2).get (F.TDC_TRIM_c2_nom c) = d.get (F.TDC_TRIM_c2_nom c) := Dev.get_pairShown (by simp)
  have h3 : (d.pairShown c c1 c2).get (F.TDC_STATUS_fails c) = d.get (F.TDC_STATUS_fails c) := Dev.get_pairShown (by simp)
  simp only [Dev.calPair, if_neg hgo, hshown, hof, h1, h2, h3, Dev.when, decide_eq_true_eq]

variable {c1 c2}

theorem Dev.calPair_kept (h : d.pairNear c c1 c2) : d.calPair c c1 c2 =
    ((d.pairShown c c1 c2).put (F.TDC_STATUS_fails c) 0).setTdc c { d.tdcOf c with c1 := c1, c2 := c2, paired := true } := by
  rw [Dev.calPair_eq c1 c2 hf hp ho, if_pos (by simpa [Dev.pairNear] using h)]

theorem Dev.calPair_failed (h : ¬ d.pairNear c c1 c2) : d.calPair c c1 c2 =
    ((((d.pairShown c c1 c2).sat (F.TDC_RETRY_CNT c) 1).put (F.TDC_STATUS_fails c) (d.get (F.TDC_STATUS_fails c) + 1)).setTdc c
      { d.tdcOf c with retried := true }).when (decide (2 ≤ d.get (F.TDC_STATUS_fails c))) (Dev.tdcFault c) := by
  have hthird : decide (3 ≤ d.get (F.TDC_STATUS_fails c) + 1) = decide (2 ≤ d.get (F.TDC_STATUS_fails c)) :=
    decide_eq_decide.2 Nat.succ_le_succ_iff
  rw [Dev.calPair_eq c1 c2 hf hp ho, if_neg (by simpa [Dev.pairNear] using h), hthird]

end

/-! ### Trims (R284–R287) -/

theorem runs_tdcTrimRequest {i : Fin 3} {w : Word} (h : s.Reaches (R.TDC_TRIM_REQ i)) (hw : w &&& ~~~(namedAt (R.TDC_TRIM_REQ i)) = 0) :
    Runs (.tdcTrimRequest i w) s (fun d => (d.touched (R.TDC_TRIM_REQ i)).trimRequest i w) := by
  have hstarts : ∀ i : Fin 3, startsOp (R.TDC_TRIM_REQ i) (R.TDC_TRIM_REQ 0) i = true := by decide
  exact runHost_startsNamed (b := R.TDC_TRIM_REQ 0) (i := i) h (hstarts i) hw fun _ => rfl

/-- The fields that an agreeing pair of runs writes: the request ends, the selection and the nominals are applied, the channel is
trimmed, and its lane serves again where its phase measurement had come to serve (R284–R287, R318). -/
def trimFields (c : Nat) (serves : Bool) : List Fld :=
  [F.TDC_STATUS_trimming c, ⟨R.TDC_TRIM_REQ (c / 32), c % 32, 1⟩, F.TDC_TRIM_c1_nom c, F.TDC_TRIM_c2_nom c, F.TDC_TRIM_CM_LO c,
    F.TDC_TRIM_CM_HI c, F.TDC_TRIM_VM c, F.TDC_STATUS_trimmed c, F.TDC_STATUS_trim_epoch c, F.TDC_STATUS_fault c,
    F.TDC_STATUS_fails c, ⟨R.TDC_FAULT (c / 32), c % 32, 1⟩] ++
  (if serves then [F.HSL_STATUS_phase_valid c] else []) ++ [⟨R.TDC_EVENT, 1, 1⟩, F.TDC_LAST_CH]

theorem trimFields_apart : ∀ (c : Fin 92) (serves : Bool), (trimFields c serves).Pairwise Fld.apart := by
  decide +kernel

theorem trimFields_fit : ∀ (c : Fin 92) (serves : Bool), ∀ g ∈ trimFields c serves, g.lsb + g.width ≤ 32 := by
  decide +kernel

/-- Those fields with what they are given. -/
def trimWrites (c : Nat) (r : TrimResult) (epoch : Nat) (serves : Bool) : List (Fld × Nat) :=
  (trimFields c serves).zip ([0, 0, r.c1, r.c2, r.cells, r.cells / 2 ^ 32, r.steps, 1, epoch, 0, 0, 0] ++
    (if serves then [1] else []) ++ [1, c])

theorem trimWrites_fields (c : Nat) (r : TrimResult) (epoch : Nat) (serves : Bool) :
    (trimWrites c r epoch serves).map Prod.fst = trimFields c serves := by
  cases serves <;> rfl

/-- The trim epoch of the next pair applied. -/
def Dev.nextTrimEpoch (c : Nat) (d : Dev) : Nat := (d.get (F.TDC_STATUS_trim_epoch c) + 1) % 2 ^ 8

/-- The device with an agreeing pair applied. -/
def Dev.trimApplied (c : Nat) (r : TrimResult) (d : Dev) : Dev :=
  (d.setTdc c { d.tdcOf c with run1 := none, pairs := 0 }).puts
    (trimWrites c r (d.nextTrimEpoch c) (d.lanes.measured.contains c))

/-- What is written on a lane that does not come to serve is written on one that does. -/
theorem mem_trimWrites {c : Nat} {r : TrimResult} {epoch : Nat} {x : Fld × Nat} (h : x ∈ trimWrites c r epoch false) (serves : Bool) :
    x ∈ trimWrites c r epoch serves := by
  cases serves with
  | false => exact h
  | true =>
    have hsub : (trimWrites c r epoch false).Sublist (trimWrites c r epoch true) :=
      (List.sublist_cons_self (F.HSL_STATUS_phase_valid c, 1) ((trimWrites c r epoch false).drop 12)).append_left
        ((trimWrites c r epoch false).take 12)
    exact hsub.subset h

theorem Dev.trimApplied_get {c : Fin 92} {r : TrimResult} {f : Fld} {v : Nat}
    (h : (f, v) ∈ trimWrites c r (d.nextTrimEpoch c) false) :
    (d.trimApplied c r).get f = v % 2 ^ f.width := by
  have hmem : f ∈ (trimWrites c r (d.nextTrimEpoch c) false).map Prod.fst := List.mem_map_of_mem h
  rw [trimWrites_fields] at hmem
  rw [Dev.trimApplied, Dev.get_puts_mem _ (mem_trimWrites h _) (trimFields_fit c _ f hmem)]
  rw [trimWrites_fields]
  exact trimFields_apart c _

theorem Dev.trimApplied_flag {c : Fin 92} {r : TrimResult} {f : Fld} {v : Nat} (hw : f.width = 1)
    (h : (f, v) ∈ trimWrites c r (d.nextTrimEpoch c) false) : (d.trimApplied c r).flag f = (v % 2 == 1) := by
  rw [Dev.flag, Dev.trimApplied_get h, hw, pow_one]

/-- What an agreeing pair leaves: the channel trimmed with the pair's selection and nominals, its epoch counted, the event. -/
theorem Dev.trimApplied_fields (c : Fin 92) (r : TrimResult) :
    (d.trimApplied c r).flag (F.TDC_STATUS_trimmed c) = true ∧ (d.trimApplied c r).flag (F.TDC_STATUS_trimming c) = false ∧
      (d.trimApplied c r).flag (F.TDC_STATUS_fault c) = false ∧ (d.trimApplied c r).get (F.TDC_TRIM_c1_nom c) = r.c1 % 2 ^ 12 ∧
      (d.trimApplied c r).get (F.TDC_TRIM_c2_nom c) = r.c2 % 2 ^ 12 ∧
      (d.trimApplied c r).get (F.TDC_TRIM_CM_LO c) = r.cells % 2 ^ 32 ∧ (d.trimApplied c r).get (F.TDC_TRIM_VM c) = r.steps % 2 ^ 30 ∧
      (d.trimApplied c r).get (F.TDC_STATUS_trim_epoch c) = (d.get (F.TDC_STATUS_trim_epoch c) + 1) % 256 ∧
      (d.trimApplied c r).flag ⟨R.TDC_EVENT, 1, 1⟩ = true ∧ (d.trimApplied c r).raised = d.raised := by
  refine ⟨?_, ?_, ?_, ?_, ?_, ?_, ?_, ?_, ?_, Dev.puts_raised⟩
  · exact Dev.trimApplied_flag (v := 1) rfl (by simp [trimWrites, trimFields])
  · exact Dev.trimApplied_flag (v := 0) rfl (by simp [trimWrites, trimFields])
  · exact Dev.trimApplied_flag (v := 0) rfl (by simp [trimWrites, trimFields])
  · exact Dev.trimApplied_get (v := r.c1) (by simp [trimWrites, trimFields])
  · exact Dev.trimApplied_get (v := r.c2) (by simp [trimWrites, trimFields])
  · exact Dev.trimApplied_get (v := r.cells) (by simp [trimWrites, trimFields])
  · exact Dev.trimApplied_get (v := r.steps) (by simp [trimWrites, trimFields])
  · exact (Dev.trimApplied_get (v := d.nextTrimEpoch c) (by simp [trimWrites, trimFields])).trans (Nat.mod_mod _ _)
  · exact Dev.trimApplied_flag (v := 1) rfl (by simp [trimWrites, trimFields])

section
variable {c : Nat} {q : Trim} (ht : d.flag (F.TDC_STATUS_trimming c) = true) (ho : d.tdcPowered c = true)
include ht ho

/-- The first run of a pair is kept for the second. -/
theorem Dev.trimRun_first (h : (d.tdcOf c).run1 = none) :
    d.trimRun c q = d.setTdc c { d.tdcOf c with run1 := some (trimResult q) } := by
  simp [Dev.trimRun, ht, ho, h]

variable {a : TrimResult} (h : (d.tdcOf c).run1 = some a)
include h

section
variable (ha : a.agrees (trimResult q) = false)
include ha

/-- A pair that disagrees, but for the fourth, is run again (R285). -/
theorem Dev.trimRun_again (hn : (d.tdcOf c).pairs < 3) :
    d.trimRun c q = d.setTdc c { d.tdcOf c with run1 := none, pairs := (d.tdcOf c).pairs + 1 } := by
  simp [Dev.trimRun, ht, ho, h, ha, hn]

/-- The fourth faults the channel. -/
theorem Dev.trimRun_fails (hn : (d.tdcOf c).pairs = 3) : d.trimRun c q =
    ((((d.setTdc c { d.tdcOf c with run1 := none, pairs := 0 }).trimEnds c).tdcEvent 2 c).raise E.TDC_TRIM_FAIL c).tdcFault c := by
  simp [Dev.trimRun, ht, ho, h, ha, hn]

end

end

/-- None of the fields written before the trim epoch shares a bit with it. -/
theorem trimFields_epoch : ∀ (c : Fin 92), ∀ g ∈ (trimFields c false).take 8, g.apart (F.TDC_STATUS_trim_epoch c) := by
  decide +kernel

/-- A pair that agrees is applied (R285). -/
theorem Dev.trimRun_agrees {c : Fin 92} {q : Trim} {a : TrimResult} (ht : d.flag (F.TDC_STATUS_trimming c) = true)
    (ho : d.tdcPowered c = true) (h : (d.tdcOf c).run1 = some a) (ha : a.agrees (trimResult q) = true) :
    d.trimRun c q = (d.trimApplied c (trimResult q)).tdcReady := by
  have hgo : ¬ ((!d.flag (F.TDC_STATUS_trimming c)) = true ∨ (!d.tdcPowered c) = true) := by simp [ht, ho]
  have hepoch : ((d.setTdc c { d.tdcOf c with run1 := none, pairs := 0 }).puts
      ((trimFields c false).take 8 |>.zip [0, 0, (trimResult q).c1, (trimResult q).c2, (trimResult q).cells,
        (trimResult q).cells / 2 ^ 32, (trimResult q).steps, 1])).get (F.TDC_STATUS_trim_epoch c) =
      d.get (F.TDC_STATUS_trim_epoch c) := by
    rw [Dev.get_puts_apart, Dev.get_setTdc]
    exact trimFields_epoch c
  have hbit : bit false = 0 := rfl
  have hlanes : (d.setTdc c { d.tdcOf c with run1 := none, pairs := 0 }).lanes = d.lanes := rfl
  simp only [trimFields, List.cons_append, List.take_succ_cons, List.take_zero, List.zip_cons_cons,
    List.zip_nil_right, Dev.puts_cons, Dev.puts_nil] at hepoch
  simp only [Dev.trimRun, if_neg hgo, h, if_pos ha, Dev.trimEnds, Dev.tdcEvent, Dev.setBit_eq, Dev.event_eq, Dev.wrap_eq,
    Dev.put_lanes, hlanes, Dev.trimApplied, Dev.nextTrimEpoch, trimWrites, trimFields]
  cases d.lanes.measured.contains c.val <;>
    simp only [Dev.when_false, Dev.when_true, hbit, hepoch, if_true, reduceIte, Bool.false_eq_true, List.cons_append, List.nil_append,
      List.append_nil, List.zip_cons_cons, List.zip_nil_right, Dev.puts_cons, Dev.puts_nil]

/-- Settles O38: each command comes to the operation its device state selects, the median's places are chosen by their distance, and
what a result and an agreeing pair leave is read off their lists of field writes. -/
theorem tdcChannels : Obligations.TdcChannels := by
  refine ⟨fun s => ⟨fun c cm t hu h => ?_, fun c cm hu h => ?_, fun c cm t hu h => ?_, fun c cm hu h => ?_,
    fun c c1 c2 hu hf hp ho _ _ => ⟨fun h => ?_, fun h => ?_⟩, fun i w => runs_tdcTrimRequest,
    fun c q a r hu ht ho hr => ?_⟩, nearestMedian_spec, fun d c t => ?_⟩
  · exact runUp_as hu (Dev.tdcMeasure_lane (d := s.begin.dev) c.isLt h)
  · exact runUp_as hu (Dev.tdcMeasure_skips (d := s.begin.dev) h)
  · exact runUp_as hu (Dev.measured_taken (d := s.begin.dev) h)
  · exact runUp_as hu (Dev.measured_skips (d := s.begin.dev) h)
  · exact runUp_as hu (Dev.onChannel_congr (d := s.begin.dev) (Dev.calPair_kept hf hp ho ⟨⟨h.1, h.2.1⟩, h.2.2⟩))
  · exact runUp_as hu (Dev.onChannel_congr (d := s.begin.dev)
      (Dev.calPair_failed hf hp ho (Dev.not_pairNear (d := s.begin.dev) h)))
  · subst hr
    refine ⟨fun h => ?_, fun h hcells hsteps h1 h2 => ?_, fun h ha hn => ?_, fun h ha hn => ?_⟩
    · exact runUp_as hu (Dev.onChannel_congr (d := s.begin.dev) (Dev.trimRun_first ht ho h))
    · have ha : a.agrees (trimResult q) = true := by simp [TrimResult.agrees, hcells, hsteps, h1, h2]
      exact ⟨s.begin.dev.trimApplied c (trimResult q),
        runUp_as hu (Dev.onChannel_congr (d := s.begin.dev) (Dev.trimRun_agrees ht ho h ha)),
        Dev.trimApplied_fields (d := s.begin.dev) c (trimResult q)⟩
    · exact runUp_as hu (Dev.onChannel_congr (d := s.begin.dev) (Dev.trimRun_again ht ho h ha hn))
    · exact runUp_as hu (Dev.onChannel_congr (d := s.begin.dev) (Dev.trimRun_fails ht ho h ha hn))
  · obtain ⟨hfrac, hsec, hns, hepoch, hvalid, hretried⟩ := d.tdcResult_fields c t
    exact ⟨hfrac, hsec, hns, hepoch, hvalid, hretried, Dev.tdcResult_count _ _, fun _ => Dev.tdcResult_word, Dev.tdcResult_rest _ _,
      fun _ => Dev.tdcResult_other⟩

end Sys2Proof.Machine
end

section
/-! SUPPORT. Laws of the interrupt unit: what one signal of a vector changes, what several do, what the levels taken at the end of a
command come to. -/

namespace Sys2Proof.Machine

variable {s : State} {v x : Nat}

theorem mem_addOnce_iff {x y : Nat} {l : List Nat} : y ∈ addOnce x l ↔ y = x ∨ y ∈ l := by
  rw [addOnce]
  split
  · next h => exact ⟨.inr, fun hy => hy.elim (fun e => e ▸ h) id⟩
  · rw [List.mem_append, List.mem_singleton, or_comm]

theorem mem_filter_ne_iff {x y : Nat} {l : List Nat} : y ∈ l.filter (· != x) ↔ y ∈ l ∧ y ≠ x := by
  rw [List.mem_filter, bne_iff_ne]

/-! ### One signal (R111) -/

/-- A masked vector's message waits for the unmask. -/
theorem State.signal_masked (h : v ∈ s.irq.masked) :
    s.signal v = { s with irq := { s.irq with pending := addOnce v s.irq.pending } } :=
  if_pos (List.contains_iff_mem.2 h)

/-- A vector whose end of interrupt is due sends nothing. -/
theorem State.signal_inService (h : v ∉ s.irq.masked) (hs : v ∈ s.irq.inService) : s.signal v = s :=
  (if_neg (h ∘ List.contains_iff_mem.1)).trans (if_pos (List.contains_iff_mem.2 hs))

/-- Any other vector's message leaves. -/
theorem State.signal_sends (h : v ∉ s.irq.masked) (hs : v ∉ s.irq.inService) :
    s.signal v = { s with
      dev := s.dev.emit (s.irq.message v)
      irq := { s.irq with inService := addOnce v s.irq.inService, pending := s.irq.pending.filter (· != v) } } :=
  (if_neg (h ∘ List.contains_iff_mem.1)).trans (if_neg (hs ∘ List.contains_iff_mem.1))

/-- What a property holds of in each of the three outcomes, it holds of after a signal. -/
theorem State.signal_cases {P : State → Prop} (v : Nat)
    (hm : v ∈ s.irq.masked → P { s with irq := { s.irq with pending := addOnce v s.irq.pending } })
    (hs : v ∉ s.irq.masked → v ∈ s.irq.inService → P s)
    (he : v ∉ s.irq.masked → v ∉ s.irq.inService → P { s with
      dev := s.dev.emit (s.irq.message v)
      irq := { s.irq with inService := addOnce v s.irq.inService, pending := s.irq.pending.filter (· != v) } }) :
    P (s.signal v) := by
  by_cases h : v ∈ s.irq.masked
  · exact State.signal_masked h ▸ hm h
  · by_cases h' : v ∈ s.irq.inService
    · exact (State.signal_inService h h').symm ▸ hs h h'
    · exact State.signal_sends h h' ▸ he h h'

@[simp] theorem State.signal_irqMasked (v : Nat) : (s.signal v).irq.masked = s.irq.masked :=
  State.signal_cases (P := fun t => t.irq.masked = s.irq.masked) v (fun _ => rfl) (fun _ _ => rfl) (fun _ _ => rfl)

@[simp] theorem State.signal_message (v x : Nat) : (s.signal v).irq.message x = s.irq.message x :=
  State.signal_cases (P := fun t => t.irq.message x = s.irq.message x) v (fun _ => rfl) (fun _ _ => rfl) (fun _ _ => rfl)

/-- No signal ends an interrupt. -/
theorem State.mem_signal_inService (h : v ∈ s.irq.inService) (x : Nat) : v ∈ (s.signal x).irq.inService :=
  State.signal_cases (P := fun t => v ∈ t.irq.inService) x (fun _ => h) (fun _ _ => h) fun _ _ => mem_addOnce_iff.2 (.inr h)

/-- A signal puts no other vector in service. -/
theorem State.not_mem_signal_inService (h : v ∉ s.irq.inService) (hx : v ≠ x) : v ∉ (s.signal x).irq.inService :=
  State.signal_cases (P := fun t => v ∉ t.irq.inService) x (fun _ => h) (fun _ _ => h) fun _ _ hv =>
    (mem_addOnce_iff.1 hv).elim hx h

/-- A masked vector that waits goes on waiting. -/
theorem State.mem_signal_pending (hm : v ∈ s.irq.masked) (h : v ∈ s.irq.pending) (x : Nat) : v ∈ (s.signal x).irq.pending :=
  State.signal_cases (P := fun t => v ∈ t.irq.pending) x (fun _ => mem_addOnce_iff.2 (.inr h)) (fun _ _ => h) fun hx _ =>
    mem_filter_ne_iff.2 ⟨h, fun e => hx (e ▸ hm)⟩

/-- What was sent stays sent. -/
theorem State.mem_signal_sent {y : Sent} (h : y ∈ s.dev.sent) (x : Nat) : y ∈ (s.signal x).dev.sent :=
  State.signal_cases (P := fun t => y ∈ t.dev.sent) x (fun _ => h) (fun _ _ => h) fun _ _ => List.mem_append_left _ h

/-- A vector that is masked or in service, or is another than that signalled, sends no message. -/
theorem State.signal_quiet (h : v ∈ s.irq.masked ∨ v ∈ s.irq.inService ∨ v ≠ x) :
    (s.signal x).dev.sent.countP (Sent.isMessage v) = s.dev.sent.countP (Sent.isMessage v) := by
  refine State.signal_cases (P := fun t => t.dev.sent.countP (Sent.isMessage v) = s.dev.sent.countP (Sent.isMessage v)) x
    (fun _ => rfl) (fun _ _ => rfl) fun hm hs => ?_
  have hne : v ≠ x := by
    rcases h with h | h | h
    · exact fun e => hm (e ▸ h)
    · exact fun e => hs (e ▸ h)
    · exact h
  have hother : Sent.isMessage v (s.irq.message x) = false := beq_false_of_ne hne.symm
  rw [Dev.emit_sent, List.countP_append, List.countP_singleton, hother, if_neg Bool.false_ne_true, Nat.add_zero]

/-! ### Several signals -/

/-- Some vectors signalled in turn. -/
def State.signals (l : List Nat) (s : State) : State := l.foldl (fun t x => t.signal x) s

theorem State.signals_cons (x : Nat) (l : List Nat) : s.signals (x :: l) = (s.signal x).signals l := (rfl)

/-- What each signal keeps, several keep. -/
theorem State.signals_keep {P : State → Prop} (hP : ∀ t x, P t → P (t.signal x)) (l : List Nat) (h : P s) : P (s.signals l) := by
  induction l generalizing s with
  | nil => exact h
  | cons x l ih => exact ih (hP s x h)

theorem State.signals_quiet {l : List Nat} (h : v ∈ s.irq.masked ∨ v ∈ s.irq.inService ∨ v ∉ l) :
    (s.signals l).dev.sent.countP (Sent.isMessage v) = s.dev.sent.countP (Sent.isMessage v) := by
  induction l generalizing s with
  | nil => rfl
  | cons x l ih =>
    rw [State.signals_cons, ih, State.signal_quiet (h.imp_right (.imp_right List.ne_of_not_mem_cons))]
    rcases h with h | h | h
    · exact .inl (by rwa [State.signal_irqMasked])
    · exact .inr (.inl (State.mem_signal_inService h x))
    · exact .inr (.inr (List.not_mem_of_not_mem_cons h))

/-- A masked vector signalled waits afterwards. -/
theorem State.signals_pending {l : List Nat} (hm : v ∈ s.irq.masked) (hl : v ∈ l) : v ∈ (s.signals l).irq.pending := by
  induction l generalizing s with
  | nil => exact absurd hl List.not_mem_nil
  | cons x l ih =>
    rw [State.signals_cons]
    have hm' : v ∈ (s.signal x).irq.masked := by rwa [State.signal_irqMasked]
    rcases List.mem_cons.1 hl with rfl | hl
    · have hv : v ∈ (s.signal v).irq.pending := by
        rw [State.signal_masked hm]
        exact mem_addOnce v _
      exact (State.signals_keep (P := fun t => v ∈ t.irq.masked ∧ v ∈ t.irq.pending) (fun t y h =>
        ⟨by rw [State.signal_irqMasked]; exact h.1, State.mem_signal_pending h.1 h.2 y⟩) l ⟨hm', hv⟩).2
    · exact ih hm' hl

/-- A vector signalled that is neither masked nor in service sends its message, and is in service then. -/
theorem State.signals_send {l : List Nat} (hm : v ∉ s.irq.masked) (hs : v ∉ s.irq.inService) (hl : v ∈ l) :
    s.irq.message v ∈ (s.signals l).dev.sent ∧ v ∈ (s.signals l).irq.inService := by
  induction l generalizing s with
  | nil => exact absurd hl List.not_mem_nil
  | cons x l ih =>
    rw [State.signals_cons]
    by_cases hx : v = x
    · subst hx
      refine State.signals_keep (P := fun t => s.irq.message v ∈ t.dev.sent ∧ v ∈ t.irq.inService) (fun t y h =>
        ⟨State.mem_signal_sent h.1 y, State.mem_signal_inService h.2 y⟩) l ?_
      rw [State.signal_sends hm hs]
      exact ⟨List.mem_append_right _ List.mem_cons_self, mem_addOnce v _⟩
    · have hgo := ih (s := s.signal x) (by rwa [State.signal_irqMasked]) (State.not_mem_signal_inService hs hx)
        ((List.mem_cons.1 hl).resolve_left hx)
      rwa [State.signal_message] at hgo

/-! ### The levels at the end of a command (R109–R112) -/

/-- The device with its interrupt sources shown in HIF_SRC_LEVEL_0 and _1 (R109). -/
def Dev.levelled (d : Dev) : Dev :=
  (d.setWord R.HIF_SRC_LEVEL_0 (BitVec.ofNat 32 (d.sources.foldl orBit 0))).setWord R.HIF_SRC_LEVEL_1
    (BitVec.ofNat 32 (d.sources.foldl orBit 0 / 2 ^ 32))

/-- An interrupt source is enabled for INT_N (R112). -/
def Dev.intEnabled (d : Dev) (x : Nat) : Bool :=
  if x < 32 then d.bitAt R.HIF_INTN_EN_0 x else d.bitAt R.HIF_INTN_EN_1 (x - 32)

/-- An interrupt source is shown at level 1 (R109). -/
def Dev.levelShown (d : Dev) (x : Nat) : Bool :=
  if x < 32 then d.bitAt R.HIF_SRC_LEVEL_0 x else d.bitAt R.HIF_SRC_LEVEL_1 (x - 32)

/-- The vectors at level 1 after a command (R110). -/
def State.vectorsHigh (s : State) : List Nat := s.dev.levelled.vectors s.dev.sources

/-- Those of them that were not before. -/
def State.vectorsRising (s : State) : List Nat := s.vectorsHigh.filter (fun x => !s.irq.level.contains x)

/-- The state with its sources shown and the rising vectors signalled. -/
def State.signalled (s : State) : State := ({ s with dev := s.dev.levelled } : State).signals s.vectorsRising

theorem State.interrupts_eq : s.interrupts = { s.signalled with
    irq := { s.signalled.irq with
      level := s.vectorsHigh
      intN := !s.dev.sec.extest && s.dev.sources.any s.dev.levelled.intEnabled } } := (rfl)

theorem State.interrupts_unsent : s.interrupts.dev.unsent = s.dev.levelled.unsent :=
  (State.signals_frame { s with dev := s.dev.levelled } s.vectorsRising).1

theorem State.mem_vectorsRising : v ∈ s.vectorsRising ↔ v ∈ s.interrupts.irq.level ∧ v ∉ s.irq.level := by
  simp [State.vectorsRising, State.interrupts_eq]

end Sys2Proof.Machine
end

section
/-! PROOFS. The family of register access, pending vectors: every command keeps them masked or awaiting their end of interrupt. -/

namespace Sys2Proof.Machine

/-- Every vector whose message is pending is masked or awaits its end of interrupt (R111). -/
def State.Waits (s : State) : Prop := ∀ v ∈ s.irq.pending, v ∈ s.irq.masked ∨ v ∈ s.irq.inService

variable {s : State}

theorem waits_of_irq {t : State} (h : s.Waits) (hi : t.irq = s.irq) : t.Waits := by
  rw [State.Waits, hi]
  exact h

/-- An interrupt unit just reset has nothing pending. -/
theorem waits_of_reset (hi : s.irq = {}) : s.Waits := by
  rw [State.Waits, hi]
  exact fun _ hx => absurd hx List.not_mem_nil

theorem waits_ite {c : Prop} [Decidable c] {t : State} (hs : s.Waits) (ht : t.Waits) : (if c then s else t).Waits := by
  split
  · exact hs
  · exact ht

theorem waits_onDev (f : Dev → Dev) (h : s.Waits) : (s.onDev f).Waits := h

/-! ### The interrupt unit -/

/-- The rule after a signal rests on the rule for the other vectors alone: the one signalled is masked, in service or not pending. -/
theorem waits_signal_of_others {v : Nat} (h : ∀ x ∈ s.irq.pending, x ≠ v → x ∈ s.irq.masked ∨ x ∈ s.irq.inService) :
    (s.signal v).Waits := by
  refine State.signal_cases v (fun hm x hx => ?_) (fun _ hs x hx => ?_) fun _ _ x hx => ?_
  · by_cases hv : x = v
    · exact .inl (hv ▸ hm)
    · exact h x ((mem_addOnce_iff.1 hx).resolve_left hv) hv
  · by_cases hv : x = v
    · exact .inr (hv ▸ hs)
    · exact h x hx hv
  · obtain ⟨hx, hv⟩ := mem_filter_ne_iff.1 hx
    exact (h x hx hv).imp_right fun hs => mem_addOnce_iff.2 (.inr hs)

/-- A vector that loses what it waited for keeps the rule if it is signalled where its message is pending. -/
theorem waits_signal_if {v : Nat} {c : Prop} [Decidable c]
    (h : ∀ x ∈ s.irq.pending, x ≠ v → x ∈ s.irq.masked ∨ x ∈ s.irq.inService) (hc : s.irq.pending.contains v = true → c) :
    (if c then s.signal v else s).Waits := by
  split
  · exact waits_signal_of_others h
  · next hn => exact fun x hx => h x hx fun e => hn (hc (List.contains_iff_mem.2 (e ▸ hx)))

theorem waits_interrupts (h : s.Waits) : s.interrupts.Waits :=
  State.signals_keep (P := State.Waits) (fun _ _ ht => waits_signal_of_others fun x hx _ => ht x hx) s.vectorsRising
    (s := { s with dev := s.dev.levelled }) h

theorem waits_vectorEoi (h : s.Waits) (v : Nat) : (s.vectorEoi v).Waits :=
  waits_signal_if (s := { s with irq := { s.irq with inService := s.irq.inService.filter (· != v) } })
    (fun x hx hv => (h x hx).imp_right fun hs => mem_filter_ne_iff.2 ⟨hs, hv⟩) .inr

theorem waits_vectorMask (h : s.Waits) (v : Nat) (mask : Bool) : (s.vectorMask v mask).Waits := by
  cases mask with
  | true => exact fun x hx => (h x hx).imp_left fun hm => mem_addOnce_iff.2 (.inr hm)
  | false =>
    exact waits_signal_if (s := { s with irq := { s.irq with masked := s.irq.masked.filter (· != v) } })
      (fun x hx hv => (h x hx).imp_left fun hm => mem_filter_ne_iff.2 ⟨hm, hv⟩) id

theorem waits_vectorDword (h : s.Waits) (v k : Nat) (w : Word) : (s.vectorDword v k w).Waits :=
  waits_ite h (waits_vectorMask h v _)

/-! ### Resets: they leave the interrupt unit as it is, or reset it -/

theorem waits_coldReset (h : s.Waits) : s.coldReset.Waits := waits_ite h (waits_of_reset rfl)

theorem waits_powerOff : s.powerOff.Waits := waits_of_reset rfl

theorem waits_release (h : s.Waits) (flash mramOk : Bool) : (s.release flash mramOk).Waits := h

theorem waits_releaseHeld (h : s.Waits) (flash mramOk : Bool) : (s.releaseHeld flash mramOk).Waits :=
  waits_ite (waits_release h flash mramOk) h

theorem waits_hostReset (h : s.Waits) (flr : Bool) : (s.hostReset flr).Waits := waits_ite h (waits_of_reset rfl)

theorem waits_hostSide (h : s.Waits) (kind : HostReset) : (s.hostSide kind).Waits := by
  cases kind with
  | hot => exact waits_hostReset h false
  | flr => exact waits_hostReset h true
  | perst => exact h

theorem waits_warmRequest (h : s.Waits) (cause : Nat) (soft : Bool) : (s.warmRequest cause soft).1.Waits := by
  unfold State.warmRequest
  dsimp only
  split
  · exact h
  · split
    · exact waits_of_reset rfl
    · exact h

theorem waits_warmDone (h : s.Waits) : s.warmDone.Waits := waits_ite h h

theorem waits_blockDone (h : s.Waits) (pg : Nat) : (s.blockDone pg).Waits := waits_ite h h

theorem waits_watchdogZero (h : s.Waits) : s.watchdogZero.Waits :=
  waits_ite (waits_warmRequest (waits_onDev _ h) 3 false) h

/-! ### The fault unit -/

theorem State.enter_irq (x : State × List (Ev × Bool)) (e : Ev) : (State.enter x e).1.irq = x.1.irq := by
  simp only [State.enter]
  split
  · rfl
  · split <;> rfl

theorem State.enters_irq (l : List Ev) (x : State × List (Ev × Bool)) : (l.foldl State.enter x).1.irq = x.1.irq := by
  induction l generalizing x with
  | nil => rfl
  | cons e l ih => rw [List.foldl_cons, ih, State.enter_irq]

/-- Of the reactions only a warm reset that acts as a cold one reaches the interrupt unit (R503, R79). -/
theorem waits_react (h : s.Waits) (taken : Nat) (pages : List Nat) : (s.react taken pages).1.Waits := by
  unfold State.react
  split
  · exact h
  · exact waits_ite h h
  · exact h
  · exact waits_warmRequest h 6 false
  · split <;> exact h
  · exact h

/-- What opens one window after another leaves the interrupt unit alone. -/
theorem waits_opens {f : State → Ev → State} (hf : ∀ t e, (f t e).irq = t.irq) (l : List Ev) (h : s.Waits) :
    (l.foldl f s).Waits := by
  induction l generalizing s with
  | nil => exact h
  | cons e l ih => exact ih (waits_of_irq h (hf s e))

theorem waits_openAll (h : s.Waits) (halted : Bool) (taken : Nat) (await : Nat → Await) (evs : List Ev) :
    (s.openAll halted taken await evs).Waits := by
  refine waits_opens (fun t e => ?_) _ h
  dsimp only
  split
  · split <;> rfl
  · rfl

theorem waits_occurrence (h : s.Waits) (evs : List Ev) : (s.occurrence evs).Waits := by
  have hin : ((sortEvents evs).foldl State.enter (s, [])).1.Waits := waits_of_irq h (State.enters_irq _ _)
  unfold State.occurrence
  refine waits_ite hin (waits_ite (waits_react ?_ _ _) (waits_openAll (waits_react ?_ _ _) _ _ _ _))
  · exact waits_ite hin hin
  · exact waits_ite hin hin

theorem waits_settleN (n : Nat) (h : s.Waits) : (State.settleN n s).Waits := by
  induction n generalizing s with
  | zero => exact h
  | succ n ih => exact waits_ite h (ih (waits_occurrence (waits_onDev _ h) _))

theorem waits_settle (h : s.Waits) : s.settle.Waits := waits_settleN 16 h

theorem waits_commit (h : s.Waits) : s.commit.Waits := waits_interrupts (waits_settle h)

theorem waits_windowClose (h : s.Waits) (sub : Nat) : (s.windowClose sub).Waits := by
  unfold State.windowClose
  split
  · exact waits_ite h h
  · exact h

/-! ### Host accesses -/

theorem waits_vectorEois (h : s.Waits) (base : Nat) (l : List Nat) : (l.foldl (fun t k => t.vectorEoi (base + k)) s).Waits := by
  induction l generalizing s with
  | nil => exact h
  | cons k l ih => exact ih (waits_vectorEoi h (base + k))

theorem waits_regWrite (h : s.Waits) (r : RegRow) (i a : Nat) (v : Via) (w : Word) (addr : Nat) :
    (s.regWrite r i a v w addr).Waits := by
  have hcoast : ∀ c : Prop, [Decidable c] → (if c then s.endCoast else s).Waits := fun c _ => waits_ite h h
  unfold State.regWrite
  refine waits_ite ?_ (waits_ite ?_ (waits_ite ?_ (waits_ite ?_ (waits_onDev _ h))))
  · exact waits_onDev _ (waits_ite (waits_warmRequest (waits_onDev _ h) 2 true) (waits_onDev _ h))
  · exact waits_onDev _ (waits_vectorEois h _ _)
  · exact waits_onDev _ (waits_ite (waits_ite (waits_warmRequest (hcoast _) 2 false) (hcoast _)) (hcoast _))
  · exact waits_onDev _ (waits_ite h h)

theorem waits_writeRegister (h : s.Waits) (a : Nat) (be : BitVec 4) (w : Word) : (s.writeRegister a be w).Waits := by
  unfold State.writeRegister
  refine waits_ite h (waits_ite h ?_)
  split
  · exact h
  · exact waits_ite h (waits_regWrite (waits_onDev _ h) _ _ _ _ _ _)

theorem waits_writeAlias (h : s.Waits) (a : Nat) (be : BitVec 4) (w : Word) : (s.writeAlias a be w).Waits := by
  unfold State.writeAlias
  refine waits_ite h (waits_ite h (waits_ite h ?_))
  split
  · exact h
  · exact waits_ite h (waits_regWrite (waits_onDev _ h) _ _ _ _ _ _)

theorem waits_writeDword (h : s.Waits) (a : Nat) (be : BitVec 4) (w : Word) : (s.writeDword a be w).Waits :=
  waits_ite (waits_writeRegister h a be w) (waits_ite (waits_writeAlias h a be w) (waits_onDev _ h))

theorem waits_writeEach (h : s.Waits) (a : Nat) (be : BitVec 4) (ws : List Word) : (s.writeEach a be ws).Waits := by
  unfold State.writeEach
  generalize a / 4 * 4 = b
  induction ws generalizing s b with
  | nil => exact h
  | cons w ws ih => exact ih (waits_settle (waits_writeDword h b be w)) (b + 4)

theorem waits_writePair (h : s.Waits) (a : Nat) (be : BitVec 4) (w0 w1 : Word) : (s.writePair a be w0 w1).Waits :=
  waits_onDev _ (waits_writeDword (waits_writeDword (waits_onDev _ h) _ _ _) _ _ _)

theorem waits_hostWrite (h : s.Waits) (a : Nat) (be : BitVec 4) (ws : List Word) : (s.hostWrite a be ws).Waits := by
  unfold State.hostWrite
  split
  · exact waits_ite (waits_settle (waits_writePair h _ _ _ _)) (waits_writeEach h _ _ _)
  · exact waits_writeEach h _ _ _

theorem waits_writeReg (h : s.Waits) (a w : Nat) : (s.writeReg a w).Waits := waits_writeDword h _ _ _

theorem waits_writeField (h : s.Waits) (f : Fld) (v : Nat) : (s.writeField f v).Waits := waits_writeDword h _ _ _

theorem waits_otpWrite (h : s.Waits) (vpp : Bool) (w : Nat) : (s.otpWrite vpp w).Waits :=
  waits_writeReg (s := s.onDev (Dev.setVpp vpp)) h _ _

theorem waits_txTail (h : s.Waits) (n tail : Nat) (descs : List Desc) : (s.txTail n tail descs).Waits := h

theorem waits_hostRead (h : s.Waits) (what : HostRead) : (s.hostRead what).Waits := by
  cases what <;> exact h

/-! ### Commands -/

/-- A command that ends in a state that keeps the rule before the fault unit and the interrupt unit take what it left. -/
def EndsWaiting (o : Host.Outcome State Fault Refusal) : Prop := ∃ u : State, o = .next u.commit ∧ u.Waits

theorem endsWaiting_runState {f : State → State} (h : (f s.begin).Waits) : EndsWaiting (runState f s) := ⟨_, rfl, h⟩

theorem endsWaiting_run (f : Dev → Dev) (h : s.Waits) : EndsWaiting (run f s) := ⟨_, rfl, h⟩

theorem endsWaiting_runUp (f : Dev → Dev) (h : s.Waits) : EndsWaiting (runUp f s) := ⟨_, rfl, h⟩

theorem endsWaiting_runHost {f : State → State} (h : s.Waits) (hf : (f s.begin).Waits) : EndsWaiting (runHost f s) := by
  refine endsWaiting_runState ?_
  split
  · exact h
  · exact hf

/-- Every command is an operation of the device, a host access, a reset, or one of the units' own. -/
theorem endsWaiting_exec (h : s.Waits) (c : Instr) : EndsWaiting (exec c s) := by
  have hb : s.begin.Waits := h
  cases c
  case powerOnReset => exact endsWaiting_runState (f := fun t => t.powerOff.release _ _) (waits_release waits_powerOff _ _)
  case coldReset => exact endsWaiting_runState (waits_coldReset hb)
  case powerDown => exact endsWaiting_runState waits_powerOff
  case resetnRelease => exact endsWaiting_runState (waits_releaseHeld hb _ _)
  case hostReset => exact endsWaiting_runState (waits_hostSide hb _)
  case perstNRelease | pcieDlDown | bypass | idcode | samplePreload | extest | extestPulse | extestTrain =>
    exact endsWaiting_run _ h
  case warmResetDone => exact endsWaiting_runHost h (waits_warmDone hb)
  case blockResetDone => exact endsWaiting_runHost h (waits_blockDone hb _)
  case watchdogReset => exact endsWaiting_runHost h (waits_watchdogZero hb)
  case windowClose => exact endsWaiting_runHost h (waits_windowClose hb _)
  case vectorUnmask => exact endsWaiting_runHost h (waits_vectorDword hb _ _ _)
  case rcRead => exact endsWaiting_runHost h (waits_hostRead hb _)
  case txRingTail => exact endsWaiting_runHost h (waits_txTail hb _ _ _)
  case otpProgramSlot | otpRevokeSlot | otpRaiseFloor | otpRaiseDebug =>
    exact endsWaiting_runHost h (waits_otpWrite hb _ _)
  case stagingWindowWrite | pendingWindowWrite | registerWrite | tableEntryWrite | bitAliasWrite | shadowWrite |
      counterValueWrite | counterConfigWrite =>
    exact endsWaiting_runHost h (waits_hostWrite hb _ _ _)
  case startFull | imgLock | prbsInject | stealRecall | engineRetire | engineUnretire | refPhaseWrite | learnClear | switchover |
      clearFault | resyncWalk | counterFreeze | harvestNow | crgArm | crgHostTrigger | tstAbort =>
    exact endsWaiting_runHost h (waits_writeField hb _ _)
  case warmReset | watchdogArm | watchdogKick | blockReset | portReset | prStart | ugStrobe | armSlotArm | vectorEoi |
      portEnable | rlkRestart | mgtSendWrite | mgtPop | hostFree | queueFlush | tbsSnap | tdcTrimRequest | txStampPop |
      phxCalStart | ptpPost | refForce | synRelock | synRetarget | sscAuxWrite | sscCoreWrite | outPark | outDelayWrite |
      attestationRequest | domainOffReq | latencyToleranceWrite | timeOnlyEntry | timeOnlyExit | crgModeWrite | bufferSweep |
      engineBist | tdcSelfTest | eyeScan | ringBist | tableBist | logPop | fltRelease | endCoast | fltReactWrite =>
    exact endsWaiting_runHost h (waits_writeReg hb _ _)
  all_goals exact endsWaiting_runUp _ h

/-- Settles O23: each command, and an edge of the time clock, ends in a state that keeps the rule, and so do the fault unit and the
interrupt unit after it. -/
theorem pendingVectorsWait : Obligations.PendingVectorsWait := by
  intro s t h hstep
  have hends : EndsWaiting (step s) := by
    unfold step
    split
    · exact endsWaiting_runUp _ h
    · next c rest _ => exact endsWaiting_exec (s := { s with pending := rest }) h c
  obtain ⟨u, hu, hw⟩ := hends
  rw [hu] at hstep
  exact Host.Outcome.next.inj hstep ▸ waits_commit hw

end Sys2Proof.Machine
end

section
/-! PROOFS. The family of register access, INT_N: it follows the enabled sources at level 1 (R112, R443). -/

namespace Sys2Proof.Machine

variable {s : State} {d : Dev}

/-- The sources are shown one bit each (R109); one beyond the two registers is not shown. -/
theorem Dev.levelled_shown {x : Nat} (hx : x < 64) : d.levelled.levelShown x = d.sources.contains x := by
  have hbit : ∀ n, (d.sources.foldl orBit 0).testBit n = d.sources.contains n := fun n => by
    rw [testBit_foldl_orBit, Nat.zero_testBit, Bool.false_or]
  rw [Dev.levelShown, Dev.levelled]
  split
  · next h =>
    rw [Dev.bitAt, Dev.word_setWord_ne _ _ (by decide), Dev.word_setWord_same, BitVec.getLsbD_ofNat, hbit, decide_eq_true h,
      Bool.true_and]
  · next h =>
    have hback : 32 + (x - 32) = x := by omega
    rw [Dev.bitAt, Dev.word_setWord_same, BitVec.getLsbD_ofNat, decide_eq_true (show x - 32 < 32 by omega), Bool.true_and,
      Nat.testBit_div_two_pow, Nat.add_comm, hback, hbit]

/-- The two registers have no enable for a source they do not show. -/
theorem Dev.intEnabled_lt {x : Nat} (h : d.intEnabled x = true) : x < 64 := by
  rw [Dev.intEnabled] at h
  split at h
  · omega
  · have := BitVec.lt_of_getLsbD h
    omega

theorem Dev.shown_congr {e : Dev} (h : d.unsent = e.unsent) :
    d.levelShown = e.levelShown ∧ d.intEnabled = e.intEnabled ∧ d.sec = e.sec := by
  have hw : ∀ a i, d.bitAt a i = e.bitAt a i := fun a i => by rw [Dev.bitAt, Dev.word_of_unsent h, Dev.bitAt]
  refine ⟨funext fun x => ?_, funext fun x => ?_, (congrArg Dev.sec h :)⟩
  · simp only [Dev.levelShown, hw]
  · simp only [Dev.intEnabled, hw]

/-- INT_N is low exactly while no EXTEST runs and some source shown at level 1 is enabled. -/
theorem State.interrupts_intN : s.interrupts.irq.intN = true ↔ s.interrupts.dev.sec.extest = false ∧
    ∃ x, x < 64 ∧ s.interrupts.dev.levelShown x = true ∧ s.interrupts.dev.intEnabled x = true := by
  obtain ⟨hshown, henabled, hsec⟩ := Dev.shown_congr s.interrupts_unsent
  have hlow : s.interrupts.irq.intN = (!s.dev.sec.extest && s.dev.sources.any s.dev.levelled.intEnabled) := rfl
  rw [hshown, henabled, hsec, hlow, Bool.and_eq_true, Bool.not_eq_true', List.any_eq_true]
  refine and_congr_right fun _ => exists_congr fun x => ⟨fun ⟨hx, he⟩ => ?_, fun ⟨hlt, hx, he⟩ => ?_⟩
  · have hlt := Dev.intEnabled_lt he
    exact ⟨hlt, (Dev.levelled_shown hlt).trans (List.contains_iff_mem.2 hx), he⟩
  · exact ⟨List.contains_iff_mem.1 ((Dev.levelled_shown hlt).symm.trans hx), he⟩

/-- Every command ends with the fault unit and then the interrupt unit. -/
theorem exec_commits (c : Instr) (s : State) : ∃ u : State, exec c s = .next u.commit := by
  by_cases hc : actsHeld c = true
  · cases c
    case powerOnReset | resetnRelease | coldReset | powerDown | hostReset | perstNRelease | pcieDlDown | bypass | idcode |
        samplePreload | extest | extestPulse | extestTrain =>
      exact ⟨_, rfl⟩
    all_goals exact absurd hc Bool.false_ne_true
  · rcases exec_needsUp (Bool.eq_false_iff.2 hc) s with ⟨f, hf⟩ | ⟨f, hf⟩
    · exact ⟨_, hf⟩
    · exact ⟨_, hf⟩

/-- Settles O22: every command ends with the levels taken, and INT_N is taken from them. -/
theorem intNFollowsSources : Obligations.IntNFollowsSources := by
  intro c s t h
  obtain ⟨u, hu⟩ := exec_commits c s
  obtain rfl := Host.Outcome.next.inj (hu.symm.trans h)
  exact State.interrupts_intN

end Sys2Proof.Machine
end

section
/-! PROOFS. The family of register access, interrupt vectors: the end of an interrupt, the MSI-X table, the messages of a step. -/

namespace Sys2Proof.Machine

variable {s : State} {v : Nat}

theorem contains_eq_false_iff {l : List Nat} : l.contains v = false ↔ v ∉ l := by
  rw [Bool.eq_false_iff, ne_eq, List.contains_iff_mem]

/-! ### The write of HIF_VEC_EOI (R111) -/

/-- The register of the lower or of the upper 32 vectors. -/
def eoiReg (high : Bool) : Nat := if high then R.HIF_VEC_EOI_1 else R.HIF_VEC_EOI_0

/-- Its row: one bit for each vector (R115). -/
def eoiRow (high : Bool) : RegRow := ⟨if high then 0x204 else 0x200, 1, 0, 1, 0, .none, [⟨0, 32, .w1s, .num 0, .i, .n⟩]⟩

theorem registerAt_eoi (high : Bool) : registerAt (eoiReg high) = some (eoiRow high, 0) := by
  cases high <;> rfl

/-- Every bit of the two registers is named. -/
theorem namedBits_eoi (high : Bool) : namedBits (eoiRow high) (eoiReg high) = BitVec.allOnes 32 := by
  cases high <;> decide

/-- A write of one bit ends the interrupt of its vector, and of no other. -/
theorem State.regWrite_eoi (high : Bool) (k : Fin 32) (addr : Nat) :
    s.regWrite (eoiRow high) 0 (eoiReg high) Via.whole (BitVec.ofNat 32 (2 ^ k.val)) addr =
      s.vectorEoi ((if high then 32 else 0) + k) := by
  have hflags : s.dev.writeFlags (eoiRow high) (eoiReg high) Via.whole (BitVec.ofNat 32 (2 ^ k.val)) = [] :=
    Dev.writeFlags_plain _ (by cases high <;> decide) (by
      rw [namedBits_eoi, BitVec.not_allOnes]
      exact BitVec.and_zero)
  have hseen : s.dev.wordSeen (eoiRow high) (eoiReg high) Via.whole (BitVec.ofNat 32 (2 ^ k.val)) = BitVec.ofNat 32 (2 ^ k.val) := by
    rw [Dev.wordSeen, if_neg (by decide), namedBits_eoi, BitVec.and_allOnes]
  rw [State.regWrite, hflags, hseen, bitList_port]
  cases high <;> rfl

theorem exec_vectorEoi (v : Fin 64) (h : s.Reaches (if v.val < 32 then R.HIF_VEC_EOI_0 else R.HIF_VEC_EOI_1)) :
    exec (.vectorEoi v) s = .next ((s.begin.onDev (Dev.endHold R.HIF_VEC_EOI_0)).vectorEoi v).commit := by
  have hreg : (if v.val < 32 then R.HIF_VEC_EOI_0 else R.HIF_VEC_EOI_1) = eoiReg (decide (32 ≤ v.val)) := by
    by_cases hv : v.val < 32
    · rw [if_pos hv, decide_eq_false (Nat.not_le.2 hv)]
      rfl
    · rw [if_neg hv, decide_eq_true (Nat.not_lt.1 hv)]
      rfl
  have hvec : (if decide (32 ≤ v.val) = true then 32 else 0) + v.val % 32 = v.val := by
    split
    · next hv =>
      have := of_decide_eq_true hv
      omega
    · next hv =>
      have : ¬ 32 ≤ v.val := fun h => hv (decide_eq_true h)
      omega
  have hhold : Dev.endHold (eoiReg (decide (32 ≤ v.val))) = Dev.endHold R.HIF_VEC_EOI_0 := by
    cases decide (32 ≤ v.val) <;> rfl
  have hctl : ∀ high, eoiReg high < controlEnd := by decide
  rw [hreg] at h
  obtain ⟨hu, hs, ht⟩ := h
  show runHost (State.writeReg (if v.val < 32 then R.HIF_VEC_EOI_0 else R.HIF_VEC_EOI_1) (2 ^ (v.val % 32))) s = _
  rw [hreg, runHost_of_up _ hu, State.writeReg, State.writeDword_at s.begin _ (hctl _) (registerAt_eoi _) hs ht, hhold]
  exact congrArg (fun t : State => Host.Outcome.next t.commit)
    ((State.regWrite_eoi _ ⟨v.val % 32, Nat.mod_lt _ (by decide)⟩ _).trans (by rw [hvec]))

/-! ### The end of an interrupt, by the vector's state -/

/-- The state with the vector's interrupt ended. -/
def State.ended (v : Nat) (s : State) : State := { s with irq := { s.irq with inService := s.irq.inService.filter (· != v) } }

theorem State.not_mem_ended : v ∉ (s.ended v).irq.inService := fun h => (mem_filter_ne_iff.1 h).2 rfl

theorem State.vectorEoi_low (hl : v ∉ s.irq.level) (hp : v ∉ s.irq.pending) : s.vectorEoi v = s.ended v :=
  if_neg fun h => h.elim (hl ∘ List.contains_iff_mem.1) (hp ∘ List.contains_iff_mem.1)

/-- At level 1 a masked vector waits for its unmask. -/
theorem State.vectorEoi_masked (hl : v ∈ s.irq.level) (hm : v ∈ s.irq.masked) :
    (s.vectorEoi v).dev = s.dev ∧ v ∈ (s.vectorEoi v).irq.pending := by
  have heq : s.vectorEoi v = (s.ended v).signal v := if_pos (.inl (List.contains_iff_mem.2 hl))
  rw [heq, State.signal_masked (s := s.ended v) hm]
  exact ⟨rfl, mem_addOnce _ _⟩

/-- At level 1 an unmasked vector sends its message again. -/
theorem State.vectorEoi_sends (hl : v ∈ s.irq.level) (hm : v ∉ s.irq.masked) :
    (s.vectorEoi v).dev = s.dev.emit (s.irq.message v) ∧ v ∈ (s.vectorEoi v).irq.inService := by
  have heq : s.vectorEoi v = (s.ended v).signal v := if_pos (.inl (List.contains_iff_mem.2 hl))
  rw [heq, State.signal_sends (s := s.ended v) hm State.not_mem_ended]
  exact ⟨rfl, mem_addOnce _ _⟩

/-! ### The MSI-X table (R84, R111) -/

theorem exec_vectorUnmask (v : Fin 64) (e : VectorWrite) (hu : s.Up) :
    exec (.vectorUnmask v e) s = .next (s.begin.vectorDword v e.dword.val e.data).commit := runHost_of_up _ hu

/-- The fourth dword of an entry masks or unmasks its vector. -/
theorem exec_vectorMask (v : Fin 64) (data : Word) (hu : s.Up) :
    exec (.vectorUnmask v ⟨3, data⟩) s = .next (s.begin.vectorMask v (data.getLsbD 0)).commit := exec_vectorUnmask v _ hu

/-- The state with a vector unmasked. -/
def State.unmasked (v : Nat) (s : State) : State := { s with irq := { s.irq with masked := s.irq.masked.filter (· != v) } }

theorem State.not_mem_unmasked : v ∉ (s.unmasked v).irq.masked := fun h => (mem_filter_ne_iff.1 h).2 rfl

/-- A vector unmasked whose message is not pending stays so. -/
theorem State.vectorMask_quiet (hp : v ∉ s.irq.pending) : s.vectorMask v false = s.unmasked v :=
  if_neg (hp ∘ List.contains_iff_mem.1)

/-- A pending vector unmasked sends its message. -/
theorem State.vectorMask_sends (hp : v ∈ s.irq.pending) (hs : v ∉ s.irq.inService) :
    (s.vectorMask v false).dev = s.dev.emit (s.irq.message v) ∧ v ∉ (s.vectorMask v false).irq.masked ∧
      v ∉ (s.vectorMask v false).irq.pending ∧ v ∈ (s.vectorMask v false).irq.inService := by
  have heq : s.vectorMask v false = (s.unmasked v).signal v := if_pos (List.contains_iff_mem.2 hp)
  rw [heq, State.signal_sends (s := s.unmasked v) State.not_mem_unmasked hs]
  exact ⟨rfl, State.not_mem_unmasked (s := s), fun h => (mem_filter_ne_iff.1 h).2 rfl, mem_addOnce _ _⟩

/-- The first three dwords of an entry are its message, whose address is aligned. -/
theorem State.vectorDword_message {k : Nat} (hk : k < 3) (w : Word) :
    (s.vectorDword v k w).dev = s.dev ∧ { (s.vectorDword v k w).irq with msix := [] } = { s.irq with msix := [] } ∧
      ∀ x, Sparse.getD (s.vectorDword v k w).irq.msix x 0 =
        if x = 4 * v + k then (if k = 0 then w &&& 0xFFFFFFFC#32 else w) else Sparse.getD s.irq.msix x 0 := by
  rw [State.vectorDword, if_pos hk]
  refine ⟨rfl, rfl, fun x => ?_⟩
  generalize (if k = 0 then w &&& 0xFFFFFFFC#32 else w) = y
  dsimp only
  by_cases hx : x = 4 * v + k
  · subst hx
    rw [if_pos rfl]
    split
    · next hy => rw [Sparse.getD, Sparse.get?_del_same, hy, Option.getD_none]
    · rw [Sparse.getD, Sparse.get?_put_same, Option.getD_some]
  · rw [if_neg hx]
    split
    · rw [Sparse.getD, Sparse.get?_del_ne _ (Ne.symm hx), Sparse.getD]
    · rw [Sparse.getD, Sparse.get?_put_ne _ _ (Ne.symm hx), Sparse.getD]

/-! ### The messages of a step (R111) -/

/-- What the levels send of a vector is what the rising vectors send. -/
theorem State.interrupts_quiet (h : v ∈ s.irq.masked ∨ v ∈ s.irq.inService ∨ v ∉ s.vectorsRising) :
    s.interrupts.dev.sent.countP (Sent.isMessage v) = s.dev.sent.countP (Sent.isMessage v) :=
  State.signals_quiet (s := { s with dev := s.dev.levelled }) h

/-- Settles O21: the three outcomes of a signal, at the end of an interrupt, at an unmask and at the end of a step. -/
theorem interruptVectors : Obligations.InterruptVectors := by
  refine ⟨fun s v => ⟨exec_vectorEoi v, fun data hu => ⟨fun hd => ?_, fun hd hp hs => ?_, fun hd hp => ?_, fun k hk => ?_⟩⟩,
    fun s v => ⟨fun hl hp => ?_, fun hl hm => ?_, fun hl hm => ?_⟩, fun s v hv => ⟨fun hl hm hs => ?_, fun hl hm => ?_, fun h => ?_⟩⟩
  · refine ⟨_, exec_vectorMask v data hu, ?_⟩
    rw [hd]
    exact ⟨List.contains_iff_mem.2 (mem_addOnce _ _), rfl, rfl, rfl⟩
  · refine ⟨_, exec_vectorMask v data hu, ?_⟩
    obtain ⟨hdev, hmask, hpend, hserv⟩ := State.vectorMask_sends (s := s.begin) (List.contains_iff_mem.1 hp) (contains_eq_false_iff.1 hs)
    rw [hd]
    exact ⟨hdev, contains_eq_false_iff.2 hmask, contains_eq_false_iff.2 hpend, List.contains_iff_mem.2 hserv⟩
  · rw [exec_vectorMask v data hu, hd, State.vectorMask_quiet (s := s.begin) (contains_eq_false_iff.1 hp)]
    rfl
  · obtain ⟨hdev, hirq, hmsix⟩ := State.vectorDword_message (s := s.begin) (v := v.val) (k := k.val) (by omega) data
    exact ⟨_, exec_vectorUnmask v ⟨k, data⟩ hu, hdev, hirq, hmsix⟩
  · exact State.vectorEoi_low (contains_eq_false_iff.1 hl) (contains_eq_false_iff.1 hp)
  · exact (State.vectorEoi_sends (List.contains_iff_mem.1 hl) (contains_eq_false_iff.1 hm)).imp_right List.contains_iff_mem.2
  · exact (State.vectorEoi_masked (List.contains_iff_mem.1 hl) (List.contains_iff_mem.1 hm)).imp_right List.contains_iff_mem.2
  · exact State.signals_send (s := { s with dev := s.dev.levelled }) hm hs (State.mem_vectorsRising.2 ⟨hv, hl⟩)
  · exact ⟨State.signals_pending (s := { s with dev := s.dev.levelled }) hm (State.mem_vectorsRising.2 ⟨hv, hl⟩),
      State.interrupts_quiet (.inl hm)⟩
  · exact State.interrupts_quiet (.inr (h.imp_right fun hl hr => (State.mem_vectorsRising.1 hr).2 hl))

end Sys2Proof.Machine
end

section
/-! PROOFS. The family of register access, plain writes: what one makes of each bit, written whole or through the bit's own address. -/

namespace Sys2Proof.Machine

variable {s : State} {d : Dev} {r : RegRow} {f : FieldRow} {a k : Nat} {w : Word}

/-! ### The bits a write concerns -/

theorem Via.whole_at (h : f.holds k) : Via.whole.at_ f k := by
  have hall : ∀ j, j < 32 → Via.whole.touched.getLsbD j = true := by decide
  exact ⟨h, hall k h.1⟩

/-- A write that concerns a bit of a field concerns the field. -/
theorem Via.has_of_at {v : Via} (h : v.at_ f k) : v.has f = true := by
  rw [Via.has, bne_iff_ne]
  intro h0
  have hbit := v.mask_bit f k
  rw [h0, decide_eq_true h, show (0 : Word) = 0#32 from rfl, BitVec.getLsbD_zero] at hbit
  exact Bool.false_ne_true hbit

theorem Via.bit_touched (b j : Nat) : (Via.bit b).touched.getLsbD j = (decide (j < 32) && decide (j = b)) := by
  rw [Via.bit, getLsbD_fieldMask, Bool.eq_iff_iff]
  simp only [Bool.and_eq_true, decide_eq_true_eq]
  omega

/-- A write through a bit's own address (R96) concerns the fields that hold the bit. -/
theorem Via.bit_has {b : Nat} (h : (Via.bit b).has f = true) : f.holds b := by
  by_contra hn
  refine bne_iff_ne.1 h (BitVec.eq_of_getLsbD_eq fun j hj => ?_)
  rw [Via.mask_bit, show (0 : Word) = 0#32 from rfl, BitVec.getLsbD_zero, decide_eq_false_iff_not]
  rintro ⟨hf, ht⟩
  rw [Via.bit_touched, Bool.and_eq_true, decide_eq_true_eq, decide_eq_true_eq] at ht
  exact hn (ht.2 ▸ hf)

/-- Of fields that share no bit one alone holds a bit. -/
theorem RegRow.field_unique (hr : r.apart) {g : FieldRow} (hf : f ∈ r.fields) (hg : g ∈ r.fields) (hfk : f.holds k)
    (hgk : g.holds k) : f = g := by
  by_contra hne
  have hsym : Std.Symm (fun f g : FieldRow => f.lsb + f.width ≤ g.lsb ∨ g.lsb + g.width ≤ f.lsb) := ⟨fun _ _ => Or.symm⟩
  have hap := List.Pairwise.forall hr hf hg hne
  obtain ⟨-, h1, h2⟩ := hfk
  obtain ⟨-, h3, h4⟩ := hgk
  omega

/-! ### A whole register (Table TOP-4) -/

/-- Each bit of a field after a plain write of the whole register, as its type says. -/
theorem Dev.plainWrite_bit (ha : a ≠ R.HIF_UG_PEND) (hr : r.apart) (hw : w &&& ~~~(namedBits r a) = 0#32) (hf : f ∈ r.fields)
    (hk : f.holds k) : ((d.plainWrite r a Via.whole w).word a).getLsbD k =
      match f.ty with
      | .rw => if f.upd = .i then w.getLsbD k else (d.word a).getLsbD k
      | .ro => (d.word a).getLsbD k
      | .rc => (d.word a).getLsbD k
      | .w1c => (d.word a).getLsbD k && !w.getLsbD k
      | .w1s => (d.word a).getLsbD k || w.getLsbD k
      | .wo => if f.upd = .i ∧ d.onceWritten a = false then w.getLsbD k else (d.word a).getLsbD k
      | .wl => if f.upd = .i ∧ d.locked = false then w.getLsbD k else (d.word a).getLsbD k := by
  have hat := Via.whole_at hk
  have halias : Via.whole.viaAlias = false := rfl
  rw [d.plainWrite_word r a Via.whole w ha, and_mask_of_named hw, d.plainActive_bit a Via.whole w hf hr hat, Dev.writable,
    Via.has_of_at hat, halias]
  cases f.ty with
  | rw | wo | wl => simp [plainBit, and_comm]
  | ro | rc | w1c | w1s => simp [plainBit]

/-- A bit that no field names stays. -/
theorem Dev.plainWrite_unnamed (ha : a ≠ R.HIF_UG_PEND) (hk : k < 32) (h : ∀ f ∈ r.fields, ¬ (f.lsb ≤ k ∧ k < f.lsb + f.width)) :
    ((d.plainWrite r a Via.whole w).word a).getLsbD k = (d.word a).getLsbD k := by
  rw [d.plainWrite_word r a Via.whole w ha]
  exact d.plainActive_unnamed a Via.whole _ hk fun f hf hat => h f hf hat.1.2

/-! ### One bit through its own address (R96) -/

/-- The word that such a write of a bit brings. -/
def aliasWord (b : Nat) (x : Bool) : Word := if x then fieldMask b 1 else 0

theorem aliasWord_bit {b : Nat} (hb : b < 32) (x : Bool) (k : Nat) : (aliasWord b x).getLsbD k = (decide (k = b) && x) := by
  cases x with
  | false => simp [aliasWord]
  | true =>
    rw [aliasWord, if_pos rfl, getLsbD_fieldMask, Bool.and_true, Bool.eq_iff_iff]
    simp only [Bool.and_eq_true, decide_eq_true_eq]
    omega

section
variable {b : Nat} (hr : r.apart) (hf : f ∈ r.fields) (hrw : f.ty = .rw) (hb : f.holds b)
include hr hf hrw hb

/-- The bit of an immediate RW field takes the bit written, and the others stay. -/
theorem Dev.plainWrite_alias (ha : a ≠ R.HIF_UG_PEND) (hi : f.upd = .i) (hn : (namedBits r a).getLsbD b = true) (x : Bool) :
    ((d.plainWrite r a (Via.bit b) (aliasWord b x)).word a).getLsbD b = x ∧
      ∀ k, k ≠ b → ((d.plainWrite r a (Via.bit b) (aliasWord b x)).word a).getLsbD k = (d.word a).getLsbD k := by
  have htouch : (Via.bit b).touched.getLsbD b = true := by simp [Via.bit_touched, hb.1]
  have hat : (Via.bit b).at_ f b := ⟨hb, htouch⟩
  rw [d.plainWrite_word r a _ _ ha]
  refine ⟨?_, fun k hk => ?_⟩
  · rw [d.plainActive_bit a _ _ hf hr hat, Dev.writable, Via.has_of_at hat, hrw, hi, BitVec.getLsbD_and, hn, aliasWord_bit hb.1]
    simp [plainBit]
  · by_cases h32 : k < 32
    · refine d.plainActive_unnamed a _ _ h32 fun g _ hg => ?_
      have ht := hg.2
      rw [Via.bit_touched, Bool.and_eq_true, decide_eq_true_eq, decide_eq_true_eq] at ht
      exact hk ht.2
    · rw [BitVec.getLsbD_of_ge _ k (Nat.not_lt.1 h32), BitVec.getLsbD_of_ge _ k (Nat.not_lt.1 h32)]

/-- No other kind of field is concerned, so nothing is flagged. -/
theorem Dev.writeFlags_alias (hn : (namedBits r a).getLsbD b = true) (x : Bool) :
    d.writeFlags r a (Via.bit b) (aliasWord b x) = [] := by
  have hty : ∀ g ∈ r.fields, (Via.bit b).has g = true → g.ty = .rw := fun g hg hh =>
    r.field_unique hr hf hg hb (Via.bit_has hh) ▸ hrw
  have hkind : ∀ ty : FType, ty ≠ .rw → r.fields.any (fun g => g.ty == ty && (Via.bit b).has g) = false := fun ty hne =>
    List.any_eq_false.2 fun g hg h => by
      obtain ⟨hg1, hg2⟩ := Bool.and_eq_true_iff.1 h
      exact hne (eq_of_beq hg1 ▸ hty g hg hg2)
  have hres : aliasWord b x &&& (Via.bit b).touched &&& ~~~(namedBits r a) = 0 := by
    refine BitVec.eq_of_getLsbD_eq fun j hj => ?_
    rw [BitVec.getLsbD_and, BitVec.getLsbD_and, BitVec.getLsbD_not, aliasWord_bit hb.1, show (0 : Word) = 0#32 from rfl,
      BitVec.getLsbD_zero]
    by_cases hjb : j = b
    · simp [hjb, hn]
    · simp [hjb]
  rw [Dev.writeFlags, hkind .wo (by decide), hkind .wl (by decide), hres]
  rfl

end

/-- A write to a register whose write starts nothing and sets nothing going, with nothing to flag, is the plain write. -/
theorem Dev.regWrite_only {i addr : Nat} {v : Via} (hn : a / 0x10000 * 0x10000 + r.off ≠ R.SEC_ATT_NONCE 0)
    (hw : a / 0x10000 * 0x10000 + r.off ≠ R.TOP_WDOG_CTRL)
    (hs : ∀ (d : Dev) (w : Word), d.special (a / 0x10000 * 0x10000 + r.off) i w = none)
    (hafter : ∀ (old d : Dev) (w : Word), Dev.after old (a / 0x10000 * 0x10000 + r.off) i w d = d)
    (hfl : d.writeFlags r a v w = []) : d.regWrite r i a v w addr = d.plainWrite r a v w := by
  rw [Dev.regWrite, if_neg fun h => hn h.1.symm, hfl]
  simp only [hs, ite_self, hafter, hw, false_and]
  rfl

/-- A dword written to the address of one bit of a register that is there, its lowest byte enabled. -/
theorem State.writeDword_alias {offset i : Nat} (hoff : offset < 2 ^ 26) (ho : offset / 128 * 4 < controlEnd)
    (hs : s.dev.shut (offset / 128 * 4) = false) (ht : s.dev.there (offset / 128 * 4) = true)
    (hr : registerAt (offset / 128 * 4) = some (r, i)) {be : BitVec 4} (hbe : be.getLsbD 0 = true) (data : Word) :
    s.writeDword (aliasBase + offset) be data = (s.onDev (Dev.endHold (aliasBase + offset))).regWrite r i (offset / 128 * 4)
      (Via.bit (offset / 4 % 32)) (aliasWord (offset / 4 % 32) (data.getLsbD 0)) (aliasBase + offset) := by
  have hlow : ¬ aliasBase + offset < controlEnd := by
    simp only [aliasBase, controlEnd]
    omega
  have hin : aliasBase ≤ aliasBase + offset ∧ aliasBase + offset < aliasEnd := by
    simp only [aliasBase, aliasEnd]
    omega
  rw [State.writeDword, if_neg hlow, if_pos hin]
  simp only [State.writeAlias, Nat.add_sub_cancel_left, if_neg (Nat.not_le.2 ho), State.onDev_dev, Dev.endHold_shut, hs,
    Dev.endHold_there, ht, hr, hbe, Bool.not_true, Bool.false_eq_true, if_false]
  rfl

/-- A write of one bit through its own address to an immediate RW field (R96). -/
theorem exec_bitAliasWrite {offset : BitVec 26} {be : BitVec 4} {data : Word} {i : Nat}
    (hreach : s.Reaches (offset.toNat / 128 * 4)) (ho : offset.toNat / 128 * 4 < controlEnd) (h4 : offset.toNat % 4 = 0)
    (hbe : be.getLsbD 0 = true) (hreg : registerAt (offset.toNat / 128 * 4) = some (r, i))
    (hdev : reachesState (offset.toNat / 128 * 4) = false)
    (hwrite : ∀ d : Dev, d.regWrite r i (offset.toNat / 128 * 4) (Via.bit (offset.toNat / 4 % 32))
      (aliasWord (offset.toNat / 4 % 32) (data.getLsbD 0)) (aliasBase + offset.toNat) =
        d.plainWrite r (offset.toNat / 128 * 4) (Via.bit (offset.toNat / 4 % 32))
          (aliasWord (offset.toNat / 4 % 32) (data.getLsbD 0))) :
    RunsAccess (.bitAliasWrite offset be data) s (fun d => (d.endHold (aliasBase + offset.toNat)).plainWrite r
      (offset.toNat / 128 * 4) (Via.bit (offset.toNat / 4 % 32)) (aliasWord (offset.toNat / 4 % 32) (data.getLsbD 0))) := by
  obtain ⟨hu, hs, ht⟩ := hreach
  have ha4 : (aliasBase + offset.toNat) % 4 = 0 := by
    simp only [aliasBase]
    omega
  refine runsAccess_write rfl hu ha4 ?_
  rw [State.writeDword_alias (s := s.begin) offset.isLt ho hs ht hreg hbe, State.regWrite_onDev hdev]
  exact State.onDev_congr (f := fun d => Dev.regWrite r i _ _ _ _ (d.endHold (aliasBase + offset.toNat))) (hwrite _)

/-- Settles O14: a plain write acts field by field and on no bit outside them; a write through a bit's own address concerns that bit alone. -/
theorem plainWriteBits : Obligations.PlainWriteBits := by
  refine ⟨fun d r a w ha hr hw => ⟨fun f hf k hk hl hu => Dev.plainWrite_bit ha hr hw hf ⟨hk, hl, hu⟩,
    fun k hk h => Dev.plainWrite_unnamed ha hk h⟩, ?_⟩
  intro s offset be data r i o b hreach ho h4 hbe hreg hdev ha hn hw hs hafter hr ⟨f, hf, hrw, hi, hl, hu⟩ hnamed
  have hb : f.holds b := ⟨Nat.mod_lt _ (by decide), hl, hu⟩
  have hwrite : ∀ d : Dev, d.regWrite r i o (Via.bit b) (aliasWord b (data.getLsbD 0)) (aliasBase + offset.toNat) =
      d.plainWrite r o (Via.bit b) (aliasWord b (data.getLsbD 0)) := fun d =>
    Dev.regWrite_only hn hw hs hafter (Dev.writeFlags_alias hr hf hrw hb hnamed _)
  exact ⟨_, exec_bitAliasWrite hreach ho h4 hbe hreg hdev hwrite, Dev.plainWrite_alias hr hf hrw hb ha hi hnamed _⟩

end Sys2Proof.Machine
end

section
/-! PROOFS. The family of register access, the host interface's errors: the scrubber, the AER registers, a completion timeout, the
thermal events. -/

namespace Sys2Proof.Machine

variable {d : Dev}

/-- A pass of the scrubber that finds no bad parity counts itself (R107). -/
theorem Dev.scrubPass_clean (h : d.parity = []) :
    d.scrubPass [] = d.put F.HIF_SCRUB_PASS ((d.get F.HIF_SCRUB_PASS + 1) % 2 ^ F.HIF_SCRUB_PASS.width) := by
  have hbad : d.badWords = [] := by rw [Dev.badWords, h, List.filter_nil]
  rw [Dev.scrubPass, Dev.each_nil, hbad, List.map_nil, List.filter_nil, Dev.each_nil, Dev.wrap_eq]

/-- An uncorrectable error other than a completion timeout raises its event (R113). -/
theorem Dev.aerError_uncorrectable {n : Nat} (h : n ≠ 14) : d.aerError true n =
    ({ d with host := { d.host with aer := orBit d.host.aer n } }).fault R.HIF_EVENT 2 E.HIF_AER_UNCORR n :=
  if_neg h

/-- A ring whose read got no completion is disabled, a receive ring or a transmit ring (R113). -/
theorem Dev.completionTimeout_eq (r : Nat) : d.completionTimeout r =
    (({ d with host := { d.host with aer := orBit d.host.aer 14 } }).fault R.HIF_EVENT 3 E.HIF_CPL_TIMEOUT (28 + r)).put
      (if r < 8 then F.HIF_RXR_SIZE_enable r else F.HIF_TXR_SIZE_enable (r - 8)) 0 := by
  rw [Dev.completionTimeout]
  by_cases h : r < 8
  · rw [if_pos h, if_pos h]
  · rw [if_neg h, if_neg h]

/-- Settles O20: each command is one operation of the device, a correctable error and the thermal events by definition. -/
theorem hostErrors : Obligations.HostErrors := by
  refine ⟨fun s hu => ⟨fun hp => ?_, fun n => ?_, fun n hn => ?_, fun ring => ?_⟩, fun s hu => ⟨?_, ?_⟩⟩
  · exact runUp_as hu (Dev.scrubPass_clean (d := s.begin.dev) hp)
  · exact runUp_of_up _ hu
  · exact runUp_as hu (Dev.aerError_uncorrectable (d := s.begin.dev) hn)
  · exact runUp_as hu (Dev.completionTimeout_eq (d := s.begin.dev) ring)
  · exact runUp_of_up _ hu
  · exact runUp_of_up _ hu

end Sys2Proof.Machine
end

section
/-! PROOFS. The family of register access, update groups: the strobe, the arm slots, the copy of a shadow. -/

namespace Sys2Proof.Machine

variable {s : State} {d : Dev}

/-! ### The strobe (R98) -/

/-- A number of eight bits written to a register that names its low byte. -/
theorem groups_named (groups : BitVec 8) : BitVec.ofNat 32 groups.toNat &&& ~~~(namedAt R.HIF_UG_STROBE) = 0#32 := by
  revert groups
  decide +kernel

theorem bits_groups (groups : BitVec 8) : bits (BitVec.ofNat 32 groups.toNat) 0 8 = groups.toNat := by
  revert groups
  decide +kernel

theorem runs_ugStrobe {groups : BitVec 8} (h : s.Reaches R.HIF_UG_STROBE) :
    Runs (.ugStrobe groups) s (fun d => (d.touched R.HIF_UG_STROBE).fireGroups groups.toNat) := by
  refine runHost_starts (b := R.HIF_UG_STROBE) (i := 0) h (by decide) (groups_named groups) fun d => ?_
  rw [and_mask_of_named (groups_named groups)]
  exact (show d.special R.HIF_UG_STROBE 0 (BitVec.ofNat 32 groups.toNat) =
    some (Dev.fireGroups (bits (BitVec.ofNat 32 groups.toNat) 0 8)) from rfl).trans (by rw [bits_groups])

/-! ### Arming a slot (R102, R103) -/

/-- The word that arms a slot with a mask of groups. -/
def armWord (groups : BitVec 8) : Word := BitVec.ofNat 32 (65536 + groups.toNat)

/-- HIF_ARM_CTRL names the mask, the enable and the three marks (R115). -/
theorem namedAt_armCtrl (slot : Fin 4) : namedAt (R.HIF_ARM_CTRL slot) = 0x000F00FF#32 := by
  revert slot
  decide

theorem startsOp_armCtrl (slot : Fin 4) : startsOp (R.HIF_ARM_CTRL slot) (R.HIF_ARM_CTRL 0) slot = true := by
  revert slot
  decide

/-- That word holds the mask and the enable, and clears no mark. -/
theorem armWord_fields (groups : BitVec 8) : bits (armWord groups) 0 8 = groups.toNat ∧ (armWord groups).getLsbD 16 = true ∧
    armWord groups &&& 0x000E0000#32 = 0#32 ∧ armWord groups &&& ~~~0x000F00FF#32 = 0#32 := by
  revert groups
  decide +kernel

theorem runs_armSlotArm {slot : Fin 4} {groups : BitVec 8} (h : s.Reaches (R.HIF_ARM_CTRL slot)) :
    Runs (.armSlotArm slot groups) s (fun d => (d.touched (R.HIF_ARM_CTRL slot)).writeArmCtrl slot (armWord groups)) := by
  have hnamed : armWord groups &&& ~~~(namedAt (R.HIF_ARM_CTRL slot)) = 0#32 := by
    rw [namedAt_armCtrl]
    exact (armWord_fields groups).2.2.2
  refine runHost_starts (b := R.HIF_ARM_CTRL 0) (i := slot) h (startsOp_armCtrl slot) hnamed fun d => ?_
  exact congrArg (Dev.special d (R.HIF_ARM_CTRL 0) slot) (and_mask_of_named hnamed)

/-- The device with the mask and the marks of a slot as a write of its register leaves them. -/
def Dev.armFields (k : Nat) (w : Word) (d : Dev) : Dev :=
  let e := d.put (F.HIF_ARM_CTRL_mask k) (bits w 0 8)
  e.setWord (R.HIF_ARM_CTRL k) (e.word (R.HIF_ARM_CTRL k) &&& ~~~(w &&& 0x000E0000#32))

/-- The device with some slots known to be late. -/
def Dev.withLate (late : List Nat) (d : Dev) : Dev := { d with host := { d.host with lateArms := late } }

theorem Dev.withLate_get (late : List Nat) (f : Fld) : (d.withLate late).get f = d.get f := (rfl)

theorem Dev.withLate_lateArms (late : List Nat) : (d.withLate late).host.lateArms = late := (rfl)

/-- The slots known to be late once a slot is armed for a time that is past, or is not. -/
def lateAfter (k : Nat) (past : Bool) (late : List Nat) : List Nat :=
  if past then addOnce k (late.filter (· != k)) else late.filter (· != k)

theorem lateAfter_contains (k : Nat) (past : Bool) (late : List Nat) : (lateAfter k past late).contains k = past := by
  cases past with
  | true => exact List.contains_iff_mem.2 (mem_addOnce k _)
  | false => exact contains_eq_false_iff.2 fun h => (mem_filter_ne_iff.1 h).2 rfl

variable {k : Nat} {w : Word}

theorem Dev.armFields_word {a : Nat} (h : R.HIF_ARM_CTRL k ≠ a) : (d.armFields k w).word a = d.word a := by
  rw [Dev.armFields, Dev.word_setWord_ne _ _ h, Dev.word_put_ne _ _ h]

theorem Dev.armFields_get {f : Fld} (h : R.HIF_ARM_CTRL k ≠ f.addr) : (d.armFields k w).get f = d.get f := by
  rw [Dev.get, Dev.armFields_word h, Dev.get]

/-- An arming leaves the shadows and the memories. -/
theorem Dev.armFields_frame (late : List Nat) (f : Fld) (v : Nat) :
    (((d.armFields k w).withLate late).put f v).shadow = d.shadow ∧ (((d.armFields k w).withLate late).put f v).mem = d.mem := by
  rw [Dev.put_shadow, Dev.put_mem]
  exact ⟨rfl, rfl⟩

/-- A word that clears no mark leaves the mask it holds. -/
theorem Dev.armFields_mask (hw : w &&& 0x000E0000#32 = 0#32) :
    (d.armFields k w).get (F.HIF_ARM_CTRL_mask k) = bits w 0 8 := by
  have hall : ∀ x : Word, x &&& ~~~0#32 = x := fun x => by rw [BitVec.not_zero, BitVec.and_allOnes]
  rw [Dev.armFields, hw, hall, Dev.get, Dev.word_setWord_same]
  exact Dev.get_put_fits (d := d) (F.HIF_ARM_CTRL_mask k) (show 0 + 8 ≤ 32 by decide) (BitVec.isLt _)

/-- Whether a group is only strobed hangs on the image and on what is present. -/
theorem Dev.namesStrobed_congr {e : Dev} (hi : e.img = d.img) (hp : e.get F.IMG_PRESENT = d.get F.IMG_PRESENT)
    (hr : e.get F.IMG_REGIONS = d.get F.IMG_REGIONS) (mask : Nat) : e.namesStrobed mask = d.namesStrobed mask := by
  simp only [Dev.namesStrobed, Dev.blockPresent, Dev.regionPresent, hi, hp, hr]

/-- The registers that an arming looks at are not the slot's own control register. -/
theorem armCtrl_ne (k : Nat) : R.HIF_ARM_CTRL k ≠ R.TOP_READY ∧ R.HIF_ARM_CTRL k ≠ R.IMG_PRESENT ∧
    R.HIF_ARM_CTRL k ≠ R.IMG_REGIONS ∧ R.HIF_ARM_CTRL k ≠ R.HIF_ARM_SEC_LO k ∧ R.HIF_ARM_CTRL k ≠ R.HIF_ARM_SEC_HI k ∧
      R.HIF_ARM_CTRL k ≠ R.HIF_ARM_NS k := by
  refine ⟨?_, ?_, ?_, ?_, ?_, ?_⟩ <;> dsimp only [R.HIF_ARM_CTRL, R.TOP_READY, R.IMG_PRESENT, R.IMG_REGIONS, R.HIF_ARM_SEC_LO,
    R.HIF_ARM_SEC_HI, R.HIF_ARM_NS] <;> omega

/-- What every write of a register does beside its effect does not bear on an arming. -/
theorem Dev.touched_arming (a k mask : Nat) : (d.touched a).timeReady = d.timeReady ∧
    (d.touched a).namesStrobed mask = d.namesStrobed mask ∧ (d.touched a).armTime k = d.armTime k ∧
      (d.touched a).nowNs = d.nowNs := ⟨rfl, rfl, rfl, rfl⟩

/-- An enable written with a time base that is valid, no register group that is only strobed, and a time that is one arms the slot. -/
theorem Dev.writeArmCtrl_arms (he : w.getLsbD 16 = true) (ht : d.timeReady = true) (hn : d.namesStrobed (bits w 0 8) = false)
    (hs : d.get (F.HIF_ARM_NS k) < 1000000000) : d.writeArmCtrl k w =
      ((d.armFields k w).withLate (lateAfter k (decide (d.armTime k ≤ d.nowNs)) d.host.lateArms)).put (F.HIF_ARM_CTRL_enable k) 1 := by
  obtain ⟨h1, h2, h3, h4, h5, h6⟩ := armCtrl_ne k
  have ht' : (d.armFields k w).timeReady = true := by
    rw [Dev.timeReady, Dev.flag, Dev.armFields_get h1]
    exact ht
  have hn' : (d.armFields k w).namesStrobed (bits w 0 8) = false :=
    (Dev.namesStrobed_congr (d := d) (e := d.armFields k w) rfl (Dev.armFields_get h2) (Dev.armFields_get h3) _).trans hn
  have hs' : decide (1000000000 ≤ (d.armFields k w).get (F.HIF_ARM_NS k)) = false := by
    rw [Dev.armFields_get h6]
    exact decide_eq_false (Nat.not_le.2 hs)
  have htime : (d.armFields k w).armTime k = d.armTime k := by
    rw [Dev.armTime, Dev.armFields_get h4, Dev.armFields_get h5, Dev.armFields_get h6, Dev.armTime]
  have hgo : (!(d.armFields k w).timeReady || (d.armFields k w).namesStrobed (bits w 0 8) ||
      decide (1000000000 ≤ (d.armFields k w).get (F.HIF_ARM_NS k))) = false := by rw [ht', hn', hs']; rfl
  rw [← htime]
  exact (if_neg (by rw [he]; decide)).trans (if_neg (ne_true_of_eq_false hgo))

/-! ### Slots that fire (R101, R103, R104) -/

/-- A slot's part of a firing: it is disabled and marked fired, and late where it is known to be. -/
def Dev.slotFires (late : Bool) (k : Nat) (d : Dev) : Dev :=
  ((d.put (F.HIF_ARM_CTRL_enable k) 0).put (F.HIF_ARM_CTRL_fired k) 1).when late (Dev.put (F.HIF_ARM_CTRL_late k) 1)

theorem Dev.slotFires_host (late : Bool) (k : Nat) : (d.slotFires late k).host = d.host := by
  cases late <;> rfl

/-- Slots that fire do not change which of them are late. -/
theorem Dev.each_slotFires (l : List Nat) {h : HostIf} (hd : d.host = h) :
    Dev.each l (fun k e => e.slotFires (e.host.lateArms.contains k) k) d =
      Dev.each l (fun k e => e.slotFires (h.lateArms.contains k) k) d := by
  induction l generalizing d with
  | nil => rfl
  | cons k l ih =>
    rw [Dev.each_cons, Dev.each_cons, hd]
    exact ih (by rw [Dev.slotFires_host, hd])

/-- The enabled slots of some whose time has come. -/
def Dev.dueSlots (ks : List Nat) (d : Dev) : List Nat :=
  ks.filter (fun k => d.flag (F.HIF_ARM_CTRL_enable k) && decide (d.armTime k ≤ d.nowNs))

/-- The device with the slots that are due fired, which are late no more, before their groups are. -/
def Dev.slotsFired (due : List Nat) (d : Dev) : Dev :=
  (Dev.each due (fun k x => x.slotFires (d.host.lateArms.contains k) k) d).withLate
    (d.host.lateArms.filter (fun k => !due.contains k))

/-- The groups that a strobe names take effect while no warm reset runs. -/
def Dev.strobed (strobe : Nat) (d : Dev) : Nat := if d.busy then 0 else strobe

/-- The slots due fire, and their groups with those a strobe names, once. -/
theorem Dev.fireArms_eq (ks : List Nat) (strobe : Nat) : d.fireArms ks strobe =
    if d.dueSlots ks = [] ∧ d.strobed strobe = 0 then d.slotsFired (d.dueSlots ks)
    else (d.slotsFired (d.dueSlots ks)).fireGroups
      (((d.dueSlots ks).map (fun k => d.get (F.HIF_ARM_CTRL_mask k))).foldl (· ||| ·) (d.strobed strobe)) := by
  have hhost : (Dev.each (d.dueSlots ks) (fun k x => x.slotFires (d.host.lateArms.contains k) k) d).host = d.host :=
    Dev.each_keeps Dev.host _ (fun k e => Dev.slotFires_host _ k) _ _
  have hfired : (let e := Dev.each (d.dueSlots ks) (fun k e => e.slotFires (e.host.lateArms.contains k) k) d
      e.withLate (e.host.lateArms.filter (fun k => !(d.dueSlots ks).contains k))) = d.slotsFired (d.dueSlots ks) := by
    dsimp only
    rw [Dev.each_slotFires _ rfl, hhost, Dev.slotsFired]
  rw [List.foldl_map, ← hfired]
  simp only [← List.isEmpty_iff]
  rfl

/-- The slots of a command that are due, in the terms of its operand. -/
theorem Dev.dueSlots_bits (slots : BitVec 4) : d.dueSlots (bitList 4 slots.toNat) = (List.range 4).filter (fun k =>
    slots.getLsbD k && (d.flag (F.HIF_ARM_CTRL_enable k) && decide (d.armTime k ≤ d.nowNs))) := by
  rw [Dev.dueSlots, bitList, List.filter_filter]
  exact List.filter_congr fun k _ => by rw [Bool.and_comm, BitVec.testBit_toNat]

theorem bitList_slot (slot : Fin 4) : bitList 4 (BitVec.ofNat 4 (2 ^ slot.val)).toNat = [slot.val] := by
  revert slot
  decide

/-- One slot that is due, and is not known to be late, fires its groups. -/
theorem Dev.fireArms_one {k : Nat} (he : d.flag (F.HIF_ARM_CTRL_enable k) = true) (ht : d.armTime k ≤ d.nowNs)
    (hl : d.host.lateArms.contains k = false) : d.fireArms [k] 0 =
      ((d.put (F.HIF_ARM_CTRL_enable k) 0).put (F.HIF_ARM_CTRL_fired k) 1).fireGroups (d.get (F.HIF_ARM_CTRL_mask k)) := by
  have hdue : d.dueSlots [k] = [k] := by rw [Dev.dueSlots, List.filter_singleton, he, decide_eq_true ht]; rfl
  have hlate : d.host.lateArms.filter (fun x => !([k] : List Nat).contains x) = d.host.lateArms :=
    List.filter_eq_self.2 fun x hx => by
      have hne : x ≠ k := fun h => contains_eq_false_iff.1 hl (h ▸ hx)
      simp [hne]
  have hfired : d.slotsFired [k] = (d.put (F.HIF_ARM_CTRL_enable k) 0).put (F.HIF_ARM_CTRL_fired k) 1 := by
    rw [Dev.slotsFired, Dev.each_cons, Dev.each_nil, hl, hlate]
    rfl
  have hnone : d.strobed 0 = 0 := ite_self 0
  rw [Dev.fireArms_eq, hdue, if_neg fun h => List.cons_ne_nil _ _ h.1, hfired, hnone]
  simp

/-! ### The copy of a shadow (R98) -/

/-- A field's part of the firing of its register: a buffered field takes the shadow's bits. -/
def shadowField (w x : Word) (f : FieldRow) : Word := if f.upd == .i then x else setBits x f.lsb f.width (bits w f.lsb f.width)

theorem bits_shadowField_apart {w x : Word} {f : FieldRow} {l n : Nat} (h : l + n ≤ f.lsb ∨ f.lsb + f.width ≤ l) :
    bits (shadowField w x f) l n = bits x l n := by
  rw [shadowField]
  split
  · rfl
  · exact bits_setBits_ne x _ h

theorem bits_shadowField {w x : Word} {f : FieldRow} (h : f.lsb + f.width ≤ 32) :
    bits (shadowField w x f) f.lsb f.width = if f.upd = .i then bits x f.lsb f.width else bits w f.lsb f.width := by
  rw [shadowField]
  by_cases hi : f.upd = .i
  · rw [if_pos hi, if_pos (beq_iff_eq.2 hi)]
  · rw [if_neg hi, if_neg (hi ∘ beq_iff_eq.1), bits_setBits_same x _ h]
    exact Nat.mod_eq_of_lt (BitVec.isLt _)

theorem bits_shadowFields_apart {w x : Word} {fs : List FieldRow} {l n : Nat}
    (h : ∀ f ∈ fs, l + n ≤ f.lsb ∨ f.lsb + f.width ≤ l) : bits (fs.foldl (shadowField w) x) l n = bits x l n := by
  induction fs generalizing x with
  | nil => rfl
  | cons g fs ih =>
    rw [List.foldl_cons, ih fun f hf => h f (List.mem_cons_of_mem _ hf), bits_shadowField_apart (h g List.mem_cons_self)]

/-- Fields that share no bit are copied each by itself. -/
theorem bits_shadowFields {w x : Word} {fs : List FieldRow} {f : FieldRow} (hf : f ∈ fs) (h32 : f.lsb + f.width ≤ 32)
    (hp : fs.Pairwise (fun f g => f.lsb + f.width ≤ g.lsb ∨ g.lsb + g.width ≤ f.lsb)) :
    bits (fs.foldl (shadowField w) x) f.lsb f.width = if f.upd = .i then bits x f.lsb f.width else bits w f.lsb f.width := by
  induction fs generalizing x with
  | nil => exact absurd hf List.not_mem_nil
  | cons g fs ih =>
    obtain ⟨hg, hfs⟩ := List.pairwise_cons.1 hp
    rw [List.foldl_cons]
    rcases List.mem_cons.1 hf with rfl | hf
    · rw [bits_shadowFields_apart hg, bits_shadowField h32]
    · rw [ih hf hfs, bits_shadowField_apart (hg f hf).symm]

/-- A block that has no more to do after a firing takes it as it is. -/
theorem Dev.fired_plain {a : Nat} (old : Word) (h9 : a / 0x10000 ≠ 9) (h23 : a / 0x10000 ≠ 23) : d.fired a old = d := by
  unfold Dev.fired
  split
  · next h => exact absurd h h9
  · next h => exact absurd h h23
  · rfl

/-- A shadow with right parity is copied to the active word, and is pending no more. -/
theorem Dev.copyShadow_plain {a : Nat} {w : Word} {m : Bool} {r : RegRow} {ij : Nat × Nat} (hs : Sparse.get? d.shadow a = some (w, m))
    (hp : d.parity.contains (a + 2 ^ 28) = false) (h9 : a / 0x10000 ≠ 9) (h23 : a / 0x10000 ≠ 23) (hr : rowAt a = some (r, ij)) :
    d.copyShadow a = ({ d with shadow := Sparse.del d.shadow a, parity := d.parity.filter (· != a) }).setWord a
      (r.fields.foldl (shadowField w) (d.word a)) := by
  simp only [Dev.copyShadow, hs, hp, Bool.false_eq_true, if_false, hr, Dev.fired_plain _ h9 h23]
  rfl

/-- A slot armed holds its mask and its enable, and is late where its time is past (R102, R103). -/
theorem armSlotArm_arms {slot : Fin 4} {groups : BitVec 8} (h : s.Reaches (R.HIF_ARM_CTRL slot)) (ht : s.dev.timeReady = true)
    (hn : s.dev.namesStrobed groups.toNat = false) (hs : s.dev.get (F.HIF_ARM_NS slot) < 1000000000) :
    ∃ u : State, exec (.armSlotArm slot groups) s = .next u.commit ∧ u.dev.flag (F.HIF_ARM_CTRL_enable slot) = true ∧
      u.dev.get (F.HIF_ARM_CTRL_mask slot) = groups.toNat ∧ u.dev.shadow = s.dev.shadow ∧ u.dev.mem = s.dev.mem ∧
      (u.dev.host.lateArms.contains slot.val = true ↔ s.dev.armTime slot ≤ s.dev.nowNs) := by
  obtain ⟨hmask, henable, hmarks, -⟩ := armWord_fields groups
  obtain ⟨htime, hnames, harm, hnow⟩ := s.begin.dev.touched_arming (R.HIF_ARM_CTRL slot) slot groups.toNat
  refine ⟨_, runs_armSlotArm h, ?_⟩
  rw [State.onDev_dev, Dev.writeArmCtrl_arms (d := s.begin.dev.touched (R.HIF_ARM_CTRL slot)) henable (htime.trans ht)
    (by rw [hmask, hnames]; exact hn) (by rw [Dev.touched_get]; exact hs), harm, hnow]
  obtain ⟨hshadow, hmem⟩ := (s.begin.dev.touched (R.HIF_ARM_CTRL slot)).armFields_frame (k := slot) (w := armWord groups) _ _ _
  refine ⟨Dev.flag_put_one rfl (show 16 + 1 ≤ 32 by decide), ?_, hshadow, hmem, ?_⟩
  · rw [Dev.get_put_apart _ _ (.inr (.inl (show 0 + 8 ≤ 16 by decide))), Dev.withLate_get, Dev.armFields_mask hmarks, hmask]
  · rw [Dev.put_host, Dev.withLate_lateArms, lateAfter_contains, decide_eq_true_iff]
    rfl

/-- Settles O19: the strobe and the arming are writes of their registers; slots fire by those that are due; a shadow is copied field by
field. -/
theorem updateGroups : Obligations.UpdateGroups := by
  refine ⟨fun s => ⟨fun groups => runs_ugStrobe, fun slot groups => armSlotArm_arms, fun slot hu he ht hl => ?_,
    fun slots strobe hu => ?_⟩, fun d a w m r ij hs hp h9 h23 hr hfs h32 => ?_⟩
  · refine runUp_as hu ?_
    rw [bitList_slot]
    exact Dev.fireArms_one (d := s.begin.dev) he ht hl
  · refine runUp_as hu ?_
    rw [Dev.fireArms_eq, Dev.dueSlots_bits]
    rfl
  · rw [Dev.copyShadow_plain hs hp h9 h23 hr]
    refine ⟨Sparse.get?_del_same _ _, fun f hf => ?_, fun b hb => ⟨?_, Sparse.get?_del_ne _ (Ne.symm hb)⟩⟩
    · rw [Dev.word_setWord_same]
      exact bits_shadowFields hf (h32 f hf) hfs
    · rw [Dev.word_setWord_ne _ _ (Ne.symm hb)]
      rfl

end Sys2Proof.Machine
end

section
/-! PROOFS. The family of the Ethernet lanes, receivers (R123–R134, R139, R287, R464). -/

namespace Sys2Proof.Machine

variable {s : State} {d : Dev}

/-! ### Signal, clock recovery -/

/-- A signal on a present lane shows, and wakes the lane's quad and the datapath where the lane's port is enabled. -/
theorem Dev.signalDetect_present {l : Nat} (hl : l < 64) (h : d.lanePresent l = true) : d.signalDetect l =
    (d.put (F.HSL_STATUS_signal l) 1).onPort l (fun p e =>
      e.when (e.flag (F.MAC_CFG_enable p)) (fun x => (x.wake (4 + l / 16)).wakeDatapath)) :=
  calc d.signalDetect l = d.ethSignal l := if_pos hl
    _ = (d.when (d.lanePresent l) (Dev.put (F.HSL_STATUS_signal l) 1)).onPort l (fun p e =>
      e.when (e.flag (F.MAC_CFG_enable p)) (fun x => (x.wake (4 + l / 16)).wakeDatapath)) := rfl
    _ = _ := by rw [h, Dev.when_true]

theorem Dev.laneCdrLock_runs {l : Nat} (hl : l < 64) (h : d.laneRuns l = true) :
    d.laneCdrLock l = d.put (F.HSL_STATUS_cdr_lock l) 1 := by
  simp only [Dev.laneCdrLock, if_pos hl, Dev.cdrLock, h, if_true]

theorem Dev.laneCdrLoss_locked {l : Nat} {gone : Bool} (hl : l < 64) (h : d.flag (F.HSL_STATUS_cdr_lock l) = true) :
    d.laneCdrLoss l gone = ((((d.put (F.HSL_STATUS_cdr_lock l) 0).fault (R.HSL_EVENT l) 1 E.HSL_CDR_LOSS l).count
      (laneCtr l 3) 1).alignLoss l).when gone (Dev.put (F.HSL_STATUS_signal l) 0) := by
  simp only [Dev.laneCdrLoss, if_pos hl, Dev.cdrLoss, h, Bool.not_true, Bool.false_eq_true, if_false]

/-! ### Alignment -/

/-- The FEC position a lane shows: 0 where its port bypasses FEC or none uses it (R124). -/
def Dev.fecPlace (d : Dev) (l fecPos : Nat) : Nat :=
  match d.lanePort l with
  | some p => if d.get (F.MAC_CFG_fec p) = 0 then 0 else min 5439 fecPos
  | none => 0

theorem Dev.fecPlace_eq (l fecPos : Nat) : d.fecPlace l fecPos =
    if (match d.lanePort l with | some p => d.get (F.MAC_CFG_fec p) == 0 | none => true) then 0 else min 5439 fecPos := by
  unfold Dev.fecPlace
  cases d.lanePort l with
  | none => rfl
  | some p => simp only [beq_iff_eq]

theorem Dev.seeksAlign_of {l : Nat} (hr : d.laneRuns l = true) (hc : d.flag (F.HSL_STATUS_cdr_lock l) = true)
    (ha : d.flag (F.HSL_STATUS_align_lock l) = false)
    (hp : ∀ p, d.lanePort l = some p → d.hasAn p = false ∨ d.get (F.MAC_STATUS_an_state p) = 4) : d.seeksAlign l = true := by
  simp only [Dev.seeksAlign, hr, hc, ha, Bool.not_false, Bool.true_and]
  cases hl : d.lanePort l with
  | none => rfl
  | some p => rcases hp p hl with h | h <;> simp [h]

theorem Dev.alignLock_seeks {l slip deskew fecPos : Nat} (h : d.seeksAlign l = true) : d.alignLock l slip deskew fecPos =
    (let e := (((d.put (F.HSL_RX_ALIGN_rx_slip l) (min 79 slip)).put (F.HSL_RX_ALIGN_rx_deskew l) (min 4095 deskew)).put
      (F.HSL_RX_ALIGN_rx_fec_pos l) (d.fecPlace l fecPos)).put (F.HSL_STATUS_align_lock l) 1
     (((e.wrap (F.HSL_STATUS_align_epoch l) 1).fault (R.HSL_EVENT l) 0 E.HSL_REALIGN l).count (laneCtr l 2) 1).onPort l
       (fun p x => (((x.event (R.MAC_EVENT p) 3).rxResid p).txResid p).faultSync p)) := by
  rw [Dev.fecPlace_eq]
  exact if_neg (by simp [h])

theorem Dev.alignLoss_aligned {l : Nat}
    (h : d.flag (F.HSL_STATUS_align_lock l) = true ∨ d.flag (F.HSL_STATUS_phase_valid l) = true) :
    d.alignLoss l = ((d.put (F.HSL_STATUS_align_lock l) 0).phaseLost l).onPort l (fun p e => (e.faultSync p).phxEval p) :=
  if_neg (by rcases h with h | h <;> simp [h])

/-! ### Phase -/

theorem Dev.phaseValid_measures {l : Nat} (hr : d.laneRuns l = true) (ha : d.flag (F.HSL_STATUS_align_lock l) = true)
    (ht : d.laneTesting l = false) (hp : ∀ p, d.lanePort l = some p → d.flag (F.MAC_CFG_pcs_loop p) = false) : d.phaseValid l =
    (let e := { d with lanes := { d.lanes with measured := addOnce l d.lanes.measured } }
     if d.flag (F.TDC_STATUS_fault l) then e else (e.put (F.HSL_STATUS_phase_valid l) 1).onPort l Dev.phxEval) := by
  refine if_neg ?_
  rw [hr, ha, ht]
  cases hl : d.lanePort l with
  | none => simp
  | some p => simp [hp p hl]

theorem Dev.faultSync_localFault (p : Nat) : (d.faultSync p).flag (F.MAC_STATUS_local_fault p) =
    (d.flag (F.MAC_CFG_enable p) && (d.portLanes p).any (fun x => !d.flag (F.HSL_STATUS_align_lock x))) := by
  rw [Dev.faultSync, Dev.flag_put_same _ _ _ (show 4 + 1 ≤ 32 by decide), bit_mod_beq, List.not_all_eq_any_not]

/-- Settles O25: each event of a receiver meets its condition and does what its meaning says there. -/
theorem laneReceivers : Obligations.LaneReceivers := by
  intro s l hu
  refine ⟨fun hl => ?_, fun hr => ?_, fun gone hc => ?_, fun slip deskew fecPos hr hc ha hp => ?_, fun h => ?_,
    fun hr ha ht hp => ?_, fun d p => d.faultSync_localFault p⟩
  · exact runUp_as hu (Dev.signalDetect_present (d := s.begin.dev) l.isLt hl)
  · exact runUp_as hu (Dev.laneCdrLock_runs (d := s.begin.dev) l.isLt hr)
  · exact runUp_as hu (Dev.laneCdrLoss_locked (d := s.begin.dev) l.isLt hc)
  · exact runUp_as hu (Dev.alignLock_seeks (d := s.begin.dev) (Dev.seeksAlign_of hr hc ha hp))
  · exact runUp_as hu (Dev.alignLoss_aligned (d := s.begin.dev) h)
  · exact runUp_as hu (Dev.phaseValid_measures (d := s.begin.dev) hr ha ht hp)

end Sys2Proof.Machine
end

section
/-! SUPPORT. Whether a port may have link depends on a few registers: those below page MAC, its MAC_CFG, its local fault and its
negotiation. -/

namespace Sys2Proof.Machine

variable {d e : Dev} {p : Nat}

theorem Dev.get_of_word {f : Fld} (h : e.word f.addr = d.word f.addr) : e.get f = d.get f := by rw [Dev.get, h, Dev.get]

theorem Dev.flag_of_word {f : Fld} (h : e.word f.addr = d.word f.addr) : e.flag f = d.flag f := by
  rw [Dev.flag, Dev.get_of_word h, Dev.flag]

theorem bits_lt (w : Word) (lsb width : Nat) : bits w lsb width < 2 ^ width := BitVec.isLt _

theorem Dev.get_lt (f : Fld) : d.get f < 2 ^ f.width := bits_lt _ _ _

/-- A port has at most 15 lanes from its own number on (Table HSL-2). -/
theorem Dev.lt_of_mem_portLanes {l : Nat} (h : l ∈ d.portLanes p) : l < p + 16 := by
  obtain ⟨i, hi, rfl⟩ := List.mem_map.1 h
  have hlanes : d.get (F.MAC_CFG_lanes p) < 2 ^ 4 := d.get_lt _
  rw [List.mem_range] at hi
  omega

theorem Dev.portLanes_of_word (h : e.word (R.MAC_CFG p) = d.word (R.MAC_CFG p)) : e.portLanes p = d.portLanes p := by
  rw [Dev.portLanes, Dev.get_of_word h, Dev.portLanes]

section
variable (hw : ∀ a, a < R.MAC_CFG 0 → e.word a = d.word a)
include hw

theorem Dev.portPresent_of_words (hp : p < 64) : e.portPresent p = d.portPresent p := by
  have hc : R.HSL_CFG p < R.MAC_CFG 0 := by simp only [R.HSL_CFG, R.MAC_CFG]; omega
  have hu : e.flag (F.HSL_CFG_used p) = d.flag (F.HSL_CFG_used p) := Dev.flag_of_word (hw _ hc)
  have hq : e.get (F.HSL_CFG_port p) = d.get (F.HSL_CFG_port p) := Dev.get_of_word (hw _ hc)
  simp only [Dev.portPresent, if_pos hp, hu, hq, Dev.regionPresent, Dev.get_of_word (f := F.IMG_REGIONS) (hw _ (by decide))]

theorem Dev.portInReset_of_words (hr : e.rst = d.rst) : e.portInReset p = d.portInReset p := by
  have hport : e.word (portRstReg p) = d.word (portRstReg p) := hw _ (by unfold portRstReg; split <;> decide)
  simp only [Dev.portInReset, Dev.blockInReset, Dev.bitAt, hport, hr, hw R.TOP_BLK_RST (by decide)]

theorem Dev.laneTesting_of_words {l : Nat} (hl : l < 80) : e.laneTesting l = d.laneTesting l := by
  have hc : e.word (R.HSL_PRBS_CTRL l) = d.word (R.HSL_PRBS_CTRL l) := hw _ (by simp only [R.HSL_PRBS_CTRL, R.MAC_CFG]; omega)
  have hb : e.word (R.HSL_CTRL l) = d.word (R.HSL_CTRL l) := hw _ (by simp only [R.HSL_CTRL, R.MAC_CFG]; omega)
  simp only [Dev.laneTesting, Dev.flag_of_word (f := F.HSL_PRBS_CTRL_tx_en l) hc, Dev.flag_of_word (f := F.HSL_PRBS_CTRL_rx_en l) hc,
    Dev.get_of_word (f := F.HSL_CTRL_loopback l) hb]

theorem Dev.alignLock_of_words {l : Nat} (hl : l < 80) : e.flag (F.HSL_STATUS_align_lock l) = d.flag (F.HSL_STATUS_align_lock l) :=
  Dev.flag_of_word (hw _ (by simp only [R.HSL_STATUS, R.MAC_CFG]; omega))

theorem Dev.mayLink_of_words (hp : p < 64) (hr : e.rst = d.rst) (hs : e.sec = d.sec) (hc : e.word (R.MAC_CFG p) = d.word (R.MAC_CFG p))
    (hf : e.flag (F.MAC_STATUS_local_fault p) = d.flag (F.MAC_STATUS_local_fault p))
    (hn : e.get (F.MAC_STATUS_an_state p) = d.get (F.MAC_STATUS_an_state p)) : e.mayLink p = d.mayLink p := by
  have htest : (d.portLanes p).any e.laneTesting = (d.portLanes p).any d.laneTesting := by
    rw [Bool.eq_iff_iff, List.any_eq_true, List.any_eq_true]
    refine exists_congr fun l => and_congr_right fun hl => ?_
    rw [Dev.laneTesting_of_words hw (by have := Dev.lt_of_mem_portLanes hl; omega)]
  have halign : (d.portLanes p).all (fun l => e.flag (F.HSL_STATUS_align_lock l)) =
      (d.portLanes p).all (fun l => d.flag (F.HSL_STATUS_align_lock l)) := by
    rw [Bool.eq_iff_iff, List.all_eq_true, List.all_eq_true]
    refine forall_congr' fun l => imp_congr_right fun hl => ?_
    rw [Dev.alignLock_of_words hw (by have := Dev.lt_of_mem_portLanes hl; omega)]
  simp only [Dev.mayLink, Dev.portPresent_of_words hw hp, Dev.busy, Dev.flag_of_word (f := F.TOP_RST_CTRL_busy) (hw _ (by decide)), hs,
    Dev.portInReset_of_words hw hr, Dev.flag_of_word (f := F.MAC_CFG_enable p) hc, Dev.flag_of_word (f := F.MAC_CFG_pcs_loop p) hc,
    Dev.portLanes_of_word hc, htest, halign, hf, Dev.hasAn, Dev.flag_of_word (f := F.MAC_CFG_an_en p) hc,
    Dev.get_of_word (f := F.MAC_CFG_lanes p) hc, hn]

end

/-- A remote fault shown changes nothing that a port's link depends on. -/
theorem Dev.mayLink_put_remoteFault (hp : p < 64) (v : Nat) : (d.put (F.MAC_STATUS_remote_fault p) v).mayLink p = d.mayLink p :=
  Dev.mayLink_of_words (fun _ ha => Dev.word_put_ne _ _ (by simp only [R.MAC_STATUS, R.MAC_CFG] at ha ⊢; omega)) hp rfl rfl (Dev.word_put_ne _ _ (by simp))
    (Dev.flag_put_apart _ _ (.inr (.inl (show 4 + 1 ≤ 5 by decide))))
    (Dev.get_put_apart _ _ (.inr (.inl (show 1 + 3 ≤ 5 by decide))))

end Sys2Proof.Machine
end

section
/-! PROOFS. The family of the Ethernet lanes, the link of a port (R122, R125, R129, R130, R134, R138, R139, R142). -/

namespace Sys2Proof.Machine

variable {s : State} {d : Dev} {p : Nat}

/-! ### Negotiation and training (R129, R130) -/

/-- Negotiation keeps the port's own FEC where the partner, able of FEC, asks for none stronger, or the port has none. -/
theorem resolvedFec_own {own fecReq : Nat} {able : Bool} :
    resolvedFec own able fecReq = own ↔ if able then fecReq ≤ own else own = 0 := by
  cases able
  · simp [resolvedFec, eq_comm]
  · simp [resolvedFec]

theorem Dev.anComplete_resolves {techs : List Tech} {fecAble : Bool} {fecReq : Nat} (ha : d.hasAn p = true) (hp : d.portPresent p = true)
    (he : d.flag (F.MAC_CFG_enable p) = true) (hn : d.get (F.MAC_STATUS_an_state p) = 1) : d.anComplete p techs fecAble fecReq =
    (let ability := techs.contains (d.ownTech p)
     let e := (d.put (F.MAC_AN_LP_ability p) (bit ability)).put (F.MAC_AN_LP_fec_req p) fecReq
     if ability = true ∧ (if fecAble then fecReq ≤ d.get (F.MAC_CFG_fec p) else d.get (F.MAC_CFG_fec p) = 0) then
       e.put (F.MAC_STATUS_an_state p) 3
     else
       let x := (((e.linkDown p).fault (R.MAC_EVENT p) 2 E.MAC_AN_FAIL p)).put (F.MAC_STATUS_an_state p) 0
       { x with lanes := { x.lanes with breakLink := addOnce p x.lanes.breakLink } }) := by
  rw [Dev.anComplete, if_neg (by simp [ha, hp, he, hn])]
  refine if_congr ?_ rfl rfl
  rw [Bool.and_eq_true, beq_iff_eq, resolvedFec_own]

theorem Dev.breakLinkEnds_restarts (hb : d.lanes.breakLink.contains p = true) (hp : d.portPresent p = true)
    (he : d.flag (F.MAC_CFG_enable p) = true) : d.breakLinkEnds p =
    ({ d with lanes := { d.lanes with breakLink := d.lanes.breakLink.filter (· != p) } }).anStart p := by
  rw [Dev.breakLinkEnds, if_neg (by rw [hb]; decide)]
  exact if_pos ⟨hp, he⟩

/-! ### The link -/

theorem Dev.linkUp_comes (hl : d.flag (F.MAC_STATUS_link p) = false) (hm : d.mayLink p = true) : d.linkUp p =
    ((((d.put (F.MAC_STATUS_link p) 1).put (F.MAC_STATUS_remote_fault p) 0).event (R.MAC_EVENT p) 0).put (readyBit p) 1).phxEval p :=
  if_neg (by simp [hl, hm])

/-- The device with the remote fault the partner reports. -/
def Dev.remoteShown (p : Nat) (remote : Bool) (d : Dev) : Dev :=
  d.when (remote && d.portPresent p) (Dev.put (F.MAC_STATUS_remote_fault p) 1)

theorem Dev.remoteShown_reads (remote : Bool) (hp : p < 64) :
    (d.remoteShown p remote).flag (F.MAC_STATUS_link p) = d.flag (F.MAC_STATUS_link p) ∧
      (d.remoteShown p remote).flag (F.MAC_CFG_pcs_loop p) = d.flag (F.MAC_CFG_pcs_loop p) ∧
      (d.remoteShown p remote).mayLink p = d.mayLink p :=
  ⟨Dev.when_keeps (fun e => e.flag (F.MAC_STATUS_link p)) (Dev.flag_put_apart _ _ (.inr (.inl (show 0 + 1 ≤ 5 by decide)))) _,
   Dev.when_keeps (fun e => e.flag (F.MAC_CFG_pcs_loop p)) (Dev.flag_put_apart _ _ (.inl (by simp))) _,
   Dev.when_keeps (fun e => e.mayLink p) (Dev.mayLink_put_remoteFault hp 1) _⟩

theorem Dev.lineDown_falls {remote : Bool} (hp : p < 64) (hl : d.flag (F.MAC_STATUS_link p) = true)
    (h : d.flag (F.MAC_CFG_pcs_loop p) = false ∨ d.mayLink p = false) : d.lineDown p remote =
    ((((d.remoteShown p remote).put (F.MAC_STATUS_link p) 0).fault (R.MAC_EVENT p) 1 E.MAC_LINK_DOWN p).portDown p).phxEval p := by
  obtain ⟨hlink, hloop, hmay⟩ := d.remoteShown_reads remote hp
  have hno : ((d.remoteShown p remote).flag (F.MAC_CFG_pcs_loop p) && (d.remoteShown p remote).mayLink p) = false := by
    rw [hloop, hmay]
    rcases h with h | h <;> simp [h]
  calc d.lineDown p remote = (d.remoteShown p remote).linkDown p := if_neg (ne_true_of_eq_false hno)
    _ = _ := if_neg (by rw [hlink, hl]; decide)

theorem Dev.lineDown_looped {remote : Bool} (hp : p < 64) (hc : d.flag (F.MAC_CFG_pcs_loop p) = true) (hm : d.mayLink p = true) :
    d.lineDown p remote = d.remoteShown p remote := by
  obtain ⟨-, hloop, hmay⟩ := d.remoteShown_reads remote hp
  have hyes : ((d.remoteShown p remote).flag (F.MAC_CFG_pcs_loop p) && (d.remoteShown p remote).mayLink p) = true := by
    rw [hloop, hmay, hc, hm]
    rfl
  exact if_pos hyes

/-! ### MAC_CFG written (R125, R138, R139, R142) -/

theorem startsOp_macCfg (p : Fin 64) : startsOp (R.MAC_CFG p) (R.MAC_CFG 0) p = true := by revert p; decide

theorem runs_portEnable {p : Fin 64} {data : Word} (h : s.Reaches (R.MAC_CFG p)) (hw : data &&& ~~~(namedAt (R.MAC_CFG p)) = 0) :
    Runs (.portEnable p data) s (fun d => (d.touched (R.MAC_CFG p)).writeMacCfg p data) :=
  runHost_startsNamed (b := R.MAC_CFG 0) (i := p) h (startsOp_macCfg p) hw fun _ => rfl

/-- The fields that a write of MAC_CFG sets beside the enable. -/
def Dev.macFields (p : Nat) (w : Word) (d : Dev) : Dev :=
  (d.put (F.MAC_CFG_an_en p) (bits w 16 1)).put (F.MAC_CFG_pcs_loop p) (bits w 17 1)

theorem Dev.writeMacCfg_enables {w : Word} (he : d.flag (F.MAC_CFG_enable p) = false) (h0 : w.getLsbD 0 = true)
    (h17 : w.getLsbD 17 = false) : d.writeMacCfg p w =
    (let e := (d.macFields p w).enablePort p
     if e.flag (F.MAC_STATUS_link p) && !e.mayLink p then e.linkDown p else e) := by
  simp only [Dev.writeMacCfg, he, h0, h17]
  rfl

theorem Dev.writeMacCfg_loops {w : Word} (he : d.flag (F.MAC_CFG_enable p) = false) (h0 : w.getLsbD 0 = true)
    (h17 : w.getLsbD 17 = true) : d.writeMacCfg p w =
    (let e := (d.macFields p w).enablePort p
     (Dev.each [0, 1, 2] Dev.wake ((Dev.each (e.portLanes p) Dev.phaseLost e).linkUp p)).phxEval p) := by
  simp only [Dev.writeMacCfg, he, h0, h17]
  rfl

theorem Dev.writeMacCfg_disables {w : Word} (he : d.flag (F.MAC_CFG_enable p) = true) (h0 : w.getLsbD 0 = false)
    (h17 : w.getLsbD 17 = false) : d.writeMacCfg p w =
    (let x := d.macFields p w
     let e := if x.midFrame p then { x with lanes := { x.lanes with disableDue := addOnce p x.lanes.disableDue } }
       else x.disablePort p
     if e.flag (F.MAC_STATUS_link p) && !e.mayLink p then e.linkDown p else e) := by
  simp only [Dev.writeMacCfg, he, h0, h17]
  rfl

/-- Settles O26: negotiation and training by their states, the link by what it may have, a write of MAC_CFG by its enable and
loopback bits. -/
theorem portLinks : Obligations.PortLinks := by
  intro s p hu
  refine ⟨fun techs fecAble fecReq ha hp he hn => ?_, fun hb hp he => ?_, fun hn => ?_, fun hn => ?_, fun hl hm => ?_,
    fun remote hl => ⟨fun h => ?_, fun hc hm => ?_⟩, fun data hr hw => ?_⟩
  · exact runUp_as hu (Dev.anComplete_resolves (d := s.begin.dev) ha hp he hn)
  · exact runUp_as hu (Dev.breakLinkEnds_restarts (d := s.begin.dev) hb hp he)
  · exact runUp_as hu (if_neg (not_not.2 hn))
  · exact runUp_as hu (if_neg (not_not.2 hn))
  · exact runUp_as hu (Dev.linkUp_comes (d := s.begin.dev) hl hm)
  · exact runUp_as hu (congrArg (fun e : Dev => e.disableSyncs.loopBack) (Dev.lineDown_falls (d := s.begin.dev) p.isLt hl h))
  · exact runUp_as hu (congrArg (fun e : Dev => e.disableSyncs.loopBack) (Dev.lineDown_looped (d := s.begin.dev) p.isLt hc hm))
  · have hrun := runs_portEnable hr hw
    refine ⟨_, rfl, fun he h0 h17 => ?_, fun he h0 h17 => ?_, fun he h0 h17 => ?_⟩
    · exact runs_congr hrun (Dev.writeMacCfg_enables (d := s.begin.dev.touched (R.MAC_CFG p)) he h0 h17)
    · exact runs_congr hrun (Dev.writeMacCfg_loops (d := s.begin.dev.touched (R.MAC_CFG p)) he h0 h17)
    · exact runs_congr hrun (Dev.writeMacCfg_disables (d := s.begin.dev.touched (R.MAC_CFG p)) he h0 h17)

end Sys2Proof.Machine
end

section
/-! PROOFS. The family of the Ethernet lanes, power states (R132–R134, R462), the PRBS generator and checker (R135–R137). -/

namespace Sys2Proof.Machine

variable {s : State} {d : Dev} {l : Nat}

/-! ### Power states of a lane -/

/-- A lane in L0 enters L1 (R132). -/
theorem Dev.setLaneState_sleeps (h : d.get (F.HSL_STATUS_pwr_state l) = 0) :
    d.setLaneState l 1 = (d.put (F.HSL_STATUS_pwr_state l) 1).enterState (laneCtr l 0) := by
  simp only [Dev.setLaneState, h]
  rfl

/-- A lane in L1 or L2 leaves it (R133, R134). -/
theorem Dev.setLaneState_wakes {k : Nat} (h : d.get (F.HSL_STATUS_pwr_state l) = k + 1) :
    d.setLaneState l 0 = (d.leaveState (laneCtr l k)).put (F.HSL_STATUS_pwr_state l) 0 := by
  simp only [Dev.setLaneState, h]
  rfl

theorem Dev.l1Entry_sleeps {p : Nat} (hp : d.lanePort l = some p) (hr : d.laneRuns l = true)
    (h0 : d.get (F.HSL_STATUS_pwr_state l) = 0) (hready : d.portReady p = true) (htol : 280 ≤ d.portTol p)
    (hm : d.midFrame p = false) (hw : d.waitingOn p = 0) (ho : d.opensSoon p = false) : d.l1Entry l =
    (d.put (F.HSL_STATUS_pwr_state l) 1).enterState (laneCtr l 0) := by
  simp only [Dev.l1Entry, hp]
  rw [if_pos ⟨hr, h0, hready, htol, by rw [hm]; rfl, hw, by rw [ho]; rfl⟩, Dev.setLaneState_sleeps h0]

theorem Dev.l1Exit_wakes (h : d.get (F.HSL_STATUS_pwr_state l) = 1) : d.l1Exit l =
    (d.leaveState (laneCtr l 0)).put (F.HSL_STATUS_pwr_state l) 0 :=
  (if_pos h).trans (Dev.setLaneState_wakes h)

theorem Dev.l2Entry_held (hp : d.lanePresent l = true) (hh : d.heldInL2 l = true) : d.l2Entry l = d.laneOff l := by
  rw [Dev.l2Entry, if_neg (by rw [hp]; decide), if_pos hh]

theorem Dev.l2Exit_wakes (hp : d.lanePresent l = true) (hh : d.heldInL2 l = false) (ht : d.timeOnlyLane l = false)
    (hd : d.domainOn (4 + l / 16) = true) (h2 : d.get (F.HSL_STATUS_pwr_state l) = 2) : d.l2Exit l =
    ((d.leaveState (laneCtr l 1)).put (F.HSL_STATUS_pwr_state l) 0).onPort l Dev.anStart := by
  rw [Dev.l2Exit, if_neg (by simp [hp, hh, ht, hd, h2]), Dev.setLaneState_wakes h2]

/-! ### The checker (R136) -/

theorem Dev.prbsLock_locks {errors : Nat} (hn : d.flag (F.HSL_STATUS_prbs_lock l) = false) (hr : d.laneRuns l = true)
    (he : d.flag (F.HSL_PRBS_CTRL_rx_en l) = true) : d.prbsLock l errors = d.put (F.HSL_STATUS_prbs_lock l) 1 := by
  rw [Dev.prbsLock, if_neg (by rw [hn]; decide), if_pos ⟨hr, he⟩]

theorem Dev.prbsLockLoss_loses {errors : Nat} (h : d.flag (F.HSL_STATUS_prbs_lock l) = true) : d.prbsLockLoss l errors =
    ((d.prbsErrors l errors).put (F.HSL_STATUS_prbs_lock l) 0).put ⟨R.HSL_EVENT l, 2, 1⟩ 1 :=
  if_neg (by rw [h]; decide)

/-! ### An error asked for (R137) -/

/-- HSL_PRBS_CTRL_l in the register table (R141). -/
def prbsRow : RegRow := ⟨0x20, 64, 256, 1, 0, .lane, [⟨0, 3, .rw, .num 0, .i, .n⟩, ⟨3, 1, .rw, .num 0, .i, .n⟩,
  ⟨4, 3, .rw, .num 0, .i, .n⟩, ⟨7, 1, .rw, .num 0, .i, .n⟩, ⟨8, 1, .w1s, .num 0, .i, .n⟩, ⟨12, 4, .rw, .num 0, .i, .n⟩]⟩

theorem rowAt_prbsCtrl (l : Fin 64) : rowAt (R.HSL_PRBS_CTRL l) = some (prbsRow, (l.val, 0)) := by revert l; decide

theorem namedAt_prbsCtrl (l : Fin 64) : namedAt (R.HSL_PRBS_CTRL l) = 0xF1FF#32 := by revert l; decide

theorem startsOp_prbsCtrl (l : Fin 64) : startsOp (R.HSL_PRBS_CTRL l) (R.HSL_PRBS_CTRL 0) l = true := by revert l; decide

/-- The write of PRBS_INJECT: the settable fields as they stand and the inject bit. -/
def injectWord (d : Dev) (l : Nat) : Word := setBits (d.settableBits (R.HSL_PRBS_CTRL l)) 8 1 1

theorem injectWord_bit (l : Fin 64) {i : Nat} (hi : i < 32) : (injectWord d l).getLsbD i =
    if i = 8 then true else (d.word (R.HSL_PRBS_CTRL l)).getLsbD i && (0xF0FF#32).getLsbD i := by
  rw [injectWord, getLsbD_setBits, Dev.settableBits_of (m := 0xF0FF#32) (rowAt_prbsCtrl l) (by decide), BitVec.getLsbD_and]
  by_cases h : i = 8
  · subst h
    simp
  · rw [if_neg h, if_neg (by omega)]

theorem injectWord_named (l : Fin 64) : injectWord d l &&& ~~~(namedAt (R.HSL_PRBS_CTRL l)) = 0#32 := by
  refine BitVec.eq_of_getLsbD_eq fun i hi => ?_
  have hsub : ∀ j : Fin 32, (0xF0FF#32).getLsbD j.val = true → (0xF1FF#32).getLsbD j.val = true := by decide
  rw [namedAt_prbsCtrl, BitVec.getLsbD_and, BitVec.getLsbD_not, injectWord_bit l hi, BitVec.getLsbD_zero]
  by_cases h : i = 8
  · subst h
    rfl
  · rw [if_neg h]
    cases hm : (0xF0FF#32).getLsbD i with
    | false => rw [Bool.and_false, Bool.false_and]
    | true => rw [hsub ⟨i, hi⟩ hm, Bool.not_true, Bool.and_false, Bool.and_false]

theorem runs_prbsInject {l : Fin 64} (h : s.Reaches (R.HSL_PRBS_CTRL l)) : Runs (.prbsInject l) s
    (fun d => (d.touched (R.HSL_PRBS_CTRL l)).writePrbs l (injectWord s.begin.dev l)) :=
  (runHost_field _ _ h.1).trans
    (runHost_startsNamed (b := R.HSL_PRBS_CTRL 0) (i := l) h (startsOp_prbsCtrl l) (injectWord_named l) fun _ => rfl)

/-- A one-bit field is the bit of its register. -/
theorem Dev.bitAt_of_flag {a i : Nat} (h : d.flag ⟨a, i, 1⟩ = true) : d.bitAt a i = true := by
  have hone : d.get ⟨a, i, 1⟩ = 1 := beq_iff_eq.1 h
  have hbit := d.hasBit_get ⟨a, i, 1⟩ (show 0 < 1 by decide)
  rw [hone] at hbit
  exact hbit.symm

/-- The registers that a write of HSL_PRBS_CTRL sets before the generator and the inject bit (R135, R136). -/
def Dev.prbsRegs (l : Nat) (w : Word) (d : Dev) : Dev :=
  let tx := patternOk (d.get (F.HSL_CFG_rate l)) (bits w 0 3)
  let rx := patternOk (d.get (F.HSL_CFG_rate l)) (bits w 4 3)
  let patterns := ((d.when tx (Dev.put (F.HSL_PRBS_CTRL_tx_pattern l) (bits w 0 3))).when rx
    (Dev.put (F.HSL_PRBS_CTRL_rx_pattern l) (bits w 4 3))).when (!(tx && rx)) (Dev.event (R.HSL_EVENT l) 3)
  let enables := ((patterns.put (F.HSL_PRBS_CTRL_tx_en l) (bits w 3 1)).put (F.HSL_PRBS_CTRL_rx_en l) (bits w 7 1)).put
    (F.HSL_PRBS_CTRL_inject_period l) (bits w 12 4)
  (enables.when (!d.flag (F.HSL_PRBS_CTRL_rx_en l) && w.getLsbD 7)
    (fun e => (e.setWord (R.HSL_PRBS_ERR_LO l) 0).setWord (R.HSL_PRBS_ERR_HI l) 0)).when
    (d.flag (F.HSL_PRBS_CTRL_rx_en l) && !w.getLsbD 7) (Dev.put (F.HSL_STATUS_prbs_lock l) 0)

theorem Dev.when_lanes {f : Dev → Dev} {c : Bool} (hf : ∀ e : Dev, (f e).lanes = e.lanes) : (d.when c f).lanes = d.lanes :=
  Dev.when_keeps Dev.lanes (hf d) c

theorem Dev.prbsRegs_lanes (w : Word) : (d.prbsRegs l w).lanes = d.lanes :=
  calc (d.prbsRegs l w).lanes = _ := Dev.when_lanes fun _ => rfl
    _ = _ := Dev.when_lanes fun _ => rfl
    _ = _ := Dev.when_lanes fun _ => rfl
    _ = _ := Dev.when_lanes fun _ => rfl
    _ = d.lanes := Dev.when_lanes fun _ => rfl

/-- A write that leaves a generator on leaves its phase as it was. -/
theorem Dev.writePrbs_goesOn {w : Word} (h3 : w.getLsbD 3 = true) (ht : d.flag (F.HSL_PRBS_CTRL_tx_en l) = true) : d.writePrbs l w =
    ((d.prbsRegs l w).put (F.HSL_PRBS_CTRL_inject l) (bit (d.flag (F.HSL_PRBS_CTRL_inject l) || w.getLsbD 8))).laneTestSync l := by
  simp only [Dev.writePrbs, h3, ht, Bool.not_true, Bool.false_eq_true, if_false, if_true]
  rfl

/-! ### The generator's next bits (R137) -/

/-- A bit period of a lane lies between those of the fastest and the slowest rate (Table HSL-1). -/
theorem lanePeriod_bounds (rate : Nat) : 0 < nthD [1360, 544, 264, 132] rate 132 ∧ nthD [1360, 544, 264, 132] rate 132 ≤ 1360 :=
  match rate with
  | 0 | 1 | 2 | 3 => by decide
  | _ + 4 => (by decide : 0 < 132 ∧ 132 ≤ 1360)

/-- An edge of the time clock makes at least one bit on every lane. -/
theorem prbsBits_pos (acc rate : Nat) : (acc + 625 * 14025) / (384 * nthD [1360, 544, 264, 132] rate 132) ≠ 0 := by
  obtain ⟨hpos, hle⟩ := lanePeriod_bounds rate
  exact (Nat.div_pos (by omega) (by omega)).ne'

theorem prbsInverted_single {pos k : Nat} (hk : k ≠ 0) (inject : Bool) : prbsInverted 0 pos k inject = bit inject := by
  have hk' : (k != 0) = true := bne_iff_ne.2 hk
  simp only [prbsInverted, hk', if_true, beq_self_eq_true, Bool.true_or, Bool.and_true, Nat.zero_add]

theorem bit_flag {f : Fld} (h : f.width = 1) : bit (d.flag f) = d.get f := by
  have hlt : d.get f < 2 ^ 1 := h ▸ d.get_lt f
  rcases (by omega : d.get f = 0 ∨ d.get f = 1) with h | h <;> rw [Dev.flag, h] <;> rfl

/-- An error asked for is inverted once, and the request is gone. -/
theorem Dev.prbsEdge_injects (ht : d.flag (F.HSL_PRBS_CTRL_tx_en l) = true) (hr : d.laneRuns l = true)
    (hl : d.get (F.HSL_CTRL_loopback l) = 0) (hn : d.get (F.HSL_PRBS_CTRL_inject_period l) = 0) :
    (d.prbsEdge l).get (F.HSL_PRBS_CTRL_inject l) = 0 ∧ Sparse.getD (d.prbsEdge l).lanes.inverted l 0 =
      Sparse.getD d.lanes.inverted l 0 + d.get (F.HSL_PRBS_CTRL_inject l) := by
  rw [Dev.prbsEdge, if_neg (by rw [ht, hr]; decide)]
  simp only [hl, hn]
  rw [prbsInverted_single (prbsBits_pos _ _), bne_iff_ne.2 (prbsBits_pos _ _), bit_flag rfl]
  refine ⟨Dev.get_put_same _ _ _ (show 8 + 1 ≤ 32 by decide), ?_⟩
  show (Sparse.get? (Sparse.put _ l _) l).getD 0 = _
  rw [Sparse.get?_put_same]
  rfl

/-- Settles O27: the power states by what each asks for, the checker by its lock, an injected error by the write and the next edge. -/
theorem lanePowerAndPrbs : Obligations.LanePowerAndPrbs := by
  refine ⟨fun s l hu => ⟨fun p hp hr h0 hready htol hm hw ho => ?_, fun h => ?_, fun hp hh => ?_, fun hp hh ht hd h2 => ?_,
    fun errors => ⟨fun hn hr he => ?_, fun h => ⟨?_, ?_⟩⟩, fun hr ht => ?_⟩, fun d l ht hr hl hn => Dev.prbsEdge_injects ht hr hl hn⟩
  · exact runUp_as hu (Dev.l1Entry_sleeps (d := s.begin.dev) hp hr h0 hready htol hm hw ho)
  · exact runUp_as hu (Dev.l1Exit_wakes (d := s.begin.dev) h)
  · exact runUp_as hu (Dev.l2Entry_held (d := s.begin.dev) hp hh)
  · exact runUp_as hu (Dev.l2Exit_wakes (d := s.begin.dev) hp hh ht hd h2)
  · exact runUp_as hu (Dev.prbsLock_locks (d := s.begin.dev) hn hr he)
  · exact runUp_as hu (if_pos h)
  · exact runUp_as hu (Dev.prbsLockLoss_loses (d := s.begin.dev) h)
  · have h3 : (injectWord s.begin.dev l).getLsbD 3 = true := by
      rw [injectWord_bit l (by decide), if_neg (by decide), show (s.begin.dev.word _).getLsbD 3 = true from Dev.bitAt_of_flag ht]
      rfl
    have h8 : (injectWord s.begin.dev l).getLsbD 8 = true := injectWord_bit l (by decide)
    refine ⟨_, _, runs_prbsInject hr, Dev.writePrbs_goesOn (d := s.begin.dev.touched (R.HSL_PRBS_CTRL l)) h3 ht, ?_, ?_⟩
    · rw [h8, Bool.or_true]
      exact Dev.get_put_same _ _ _ (show 8 + 1 ≤ 32 by decide)
    · rw [Dev.put_lanes, Dev.prbsRegs_lanes]
      rfl

end Sys2Proof.Machine
end

section
/-! SUPPORT. Commands of registers alone: they change the registers named and raise events, and leave the rest of the device. -/

namespace Sys2Proof.Machine

variable {s : State} {d e : Dev} {l : List Nat}

/-- A device that differs from another at most in the registers of `l` and in the events raised. -/
def Dev.Within (l : List Nat) (d e : Dev) : Prop :=
  { e with csr := [], raised := [] } = { d with csr := [], raised := [] } ∧ ∀ a, a ∉ l → e.word a = d.word a

theorem Dev.within_refl : d.Within l d := ⟨rfl, fun _ _ => rfl⟩

theorem Dev.within_setWord {a : Nat} (h : d.Within l e) (ha : a ∈ l) (w : Word) : d.Within l (e.setWord a w) :=
  ⟨h.1, fun b hb => (e.word_setWord_ne w (ne_of_mem_of_not_mem ha hb)).trans (h.2 b hb)⟩

theorem Dev.within_put {f : Fld} (h : d.Within l e) (hf : f.addr ∈ l) (v : Nat) : d.Within l (e.put f v) :=
  Dev.within_setWord h hf _

theorem Dev.within_raise (h : d.Within l e) (c n : Nat) : d.Within l (e.raise c n) := ⟨h.1, h.2⟩

theorem Dev.within_when {f : Dev → Dev} (h : d.Within l e) (hf : d.Within l (f e)) (c : Bool) : d.Within l (e.when c f) := by
  cases c with
  | false => exact h
  | true => exact hf

theorem Dev.within_ite {c : Prop} [Decidable c] {x : Dev} (h : d.Within l e) (hx : d.Within l x) : d.Within l (if c then e else x) := by
  split
  · exact h
  · exact hx

theorem Dev.within_each {α : Type} {f : α → Dev → Dev} (hf : ∀ x e, d.Within l e → d.Within l (f x e)) (xs : List α)
    (h : d.Within l e) : d.Within l (Dev.each xs f e) := by
  induction xs generalizing e with
  | nil => exact h
  | cons x xs ih => exact ih (hf x e h)

/-- A command of a device operation within some registers leaves all else, on a held device everything. -/
theorem runUp_within {f : Dev → Dev} (h : ∀ d : Dev, d.Within l (f d)) : ∃ e : Dev, runUp f s = .next (s.begin.onDev fun _ => e).commit ∧
    { e with csr := [], raised := [] } = { s.begin.dev with csr := [], raised := [] } ∧ ∀ a, a ∉ l → e.word a = s.dev.word a := by
  cases hh : s.dev.held with
  | true => exact ⟨s.begin.dev, runUp_of_held f hh, Dev.within_refl (l := l)⟩
  | false => exact ⟨f s.begin.dev, runUp_as hh rfl, h s.begin.dev⟩

end Sys2Proof.Machine
end

section
/-! PROOFS. The family of the Ethernet lanes, the frame of the commands of registers alone (R129, R132–R136, R248, R397, R413, R462,
R464, R501). -/

namespace Sys2Proof.Machine

variable {d : Dev}

theorem Dev.trainingDone_within (p : Nat) : d.Within [R.MAC_STATUS p] (d.trainingDone p) :=
  Dev.within_ite Dev.within_refl (Dev.within_put Dev.within_refl (by simp) _)

theorem Dev.startPower_within (k : Nat) : d.Within [R.PWR_DOM_STATUS] (d.startPower k) :=
  Dev.within_ite Dev.within_refl (Dev.within_put Dev.within_refl (by simp) _)

theorem Dev.wake_within (k : Nat) : d.Within [R.PWR_DOM_STATUS] (d.wake k) :=
  Dev.within_ite Dev.within_refl (d.startPower_within k)

theorem Dev.powerFail_within (k : Nat) : d.Within [R.PWR_DOM_STATUS, R.PWR_EVENT] (d.powerFail k) := by
  refine Dev.within_ite Dev.within_refl (Dev.within_raise (Dev.within_put ?_ (by simp) _) _ _)
  exact Dev.within_put (Dev.within_put Dev.within_refl (by simp) _) (by simp) _

theorem Dev.rampEnd_within : d.Within [R.TBS_STATUS, R.TBS_FF, R.TBS_EVENT] d.rampEnd := by
  refine Dev.within_ite (Dev.within_when Dev.within_refl ?_ _) Dev.within_refl
  exact Dev.within_put (Dev.within_put (Dev.within_put Dev.within_refl (by simp) _) (by simp) _) (by simp) _

theorem Dev.within_outEvent {e : Dev} {l : List Nat} (h : d.Within l e) (hev : R.OUT_EVENT ∈ l) (hlast : R.OUT_LAST ∈ l) (i j : Nat) :
    d.Within l (e.outEvent i j) :=
  Dev.within_put (Dev.within_put h hev _) hlast _

theorem Dev.ppsLost_within (k : Nat) : d.Within [R.OUT_PPS_STATUS k, R.OUT_EVENT, R.OUT_LAST] (d.ppsLost k) := by
  refine Dev.within_ite Dev.within_refl (Dev.within_raise (Dev.within_outEvent ?_ (by simp) (by simp) _ _) _ _)
  exact Dev.within_put Dev.within_refl (by simp) _

/-- Errors counted at a checker stand in its pair of error registers (R136). -/
theorem Dev.within_prbsErrors {e : Dev} {l : List Nat} {lane : Nat} (h : d.Within l e) (hlo : R.HSL_PRBS_ERR_LO lane ∈ l)
    (hhi : R.HSL_PRBS_ERR_HI lane ∈ l) (n : Nat) : d.Within l (e.prbsErrors lane n) :=
  Dev.within_setWord (Dev.within_setWord h hlo _) hhi _

theorem Dev.prbsLock_within (lane errors : Nat) :
    d.Within [R.HSL_STATUS lane, R.HSL_PRBS_ERR_LO lane, R.HSL_PRBS_ERR_HI lane] (d.prbsLock lane errors) :=
  Dev.within_ite (Dev.within_prbsErrors Dev.within_refl (by simp) (by simp) _)
    (Dev.within_ite (Dev.within_put Dev.within_refl (by simp) _) Dev.within_refl)

theorem Dev.prbsLockLoss_within (lane errors : Nat) :
    d.Within [R.HSL_STATUS lane, R.HSL_EVENT lane, R.HSL_PRBS_ERR_LO lane, R.HSL_PRBS_ERR_HI lane] (d.prbsLockLoss lane errors) := by
  refine Dev.within_ite Dev.within_refl (Dev.within_put (Dev.within_put ?_ (by simp) _) (by simp) _)
  exact Dev.within_prbsErrors Dev.within_refl (by simp) (by simp) _

theorem Dev.preemptVerify_within (q : Nat) (ok : Bool) : d.Within [R.QSC_PREEMPT q, R.QSC_EVENT q] (d.preemptVerify q ok) := by
  refine Dev.within_ite Dev.within_refl (Dev.within_put ?_ (by simp) _)
  have hstate : d.Within [R.QSC_PREEMPT q, R.QSC_EVENT q] (d.put (F.QSC_PREEMPT_verify_state q) (if ok then 2 else 3)) :=
    Dev.within_put Dev.within_refl (by simp) _
  exact Dev.within_when hstate (Dev.within_put hstate (by simp) _) _

/-- The lock of a clock output's line stands in its status (R404). -/
theorem Dev.within_setDll {l : List Nat} {j : Nat} (hj : j < 12) (hl : R.OUT_CLK_STATUS j ∈ l) (v : Bool) : d.Within l (d.setDll j v) := by
  rw [Dev.setDll, if_pos hj]
  exact Dev.within_put Dev.within_refl hl _

theorem Dev.within_syncParked {e : Dev} {l : List Nat} (h : d.Within l e) (hl : R.OUT_STATUS ∈ l) : d.Within l e.syncParked :=
  Dev.within_each (fun _ _ hx => Dev.within_when hx (Dev.within_put hx hl _) _) _ h

theorem Dev.dllUnlock_within {j : Nat} (hj : j < 12) :
    d.Within [R.OUT_CLK_STATUS j, R.OUT_EVENT, R.OUT_LAST, R.OUT_STATUS] (d.dllUnlock j) := by
  refine Dev.within_syncParked (Dev.within_raise (Dev.within_outEvent ?_ (by simp) (by simp) _ _) _ _) (by simp)
  exact Dev.within_setDll hj (by simp) _

theorem Dev.engineGate_within (g : Nat) (engine : Option Nat) : d.Within [R.PWR_ENG_GATED g, R.PWR_CL_GATED] (d.engineGate g engine) := by
  refine Dev.within_ite Dev.within_refl ?_
  cases engine with
  | none => exact Dev.within_ite (Dev.within_put Dev.within_refl (by simp) _) Dev.within_refl
  | some i => exact Dev.within_ite (Dev.within_put Dev.within_refl (by simp) _) Dev.within_refl

/-- Settles O59: each command is an operation of the device within the registers named with it. -/
theorem registerFrames : Obligations.RegisterFrames := by
  intro s p q l i k g n errors engine b
  refine List.forall_mem_cons.2 ⟨runUp_within fun _ => Dev.within_raise (Dev.within_put Dev.within_refl (by simp) _) _ _, ?_⟩
  refine List.forall_mem_cons.2 ⟨runUp_within fun _ => Dev.within_raise (Dev.within_put Dev.within_refl (by simp) _) _ _, ?_⟩
  refine List.forall_mem_cons.2 ⟨runUp_within fun _ => Dev.trainingDone_within p, ?_⟩
  refine List.forall_mem_cons.2 ⟨runUp_within fun _ => Dev.within_put Dev.within_refl (by simp) _, ?_⟩
  refine List.forall_mem_cons.2 ⟨runUp_within fun _ => Dev.wake_within n, ?_⟩
  refine List.forall_mem_cons.2 ⟨runUp_within fun _ => Dev.powerFail_within n, ?_⟩
  refine List.forall_mem_cons.2 ⟨runUp_within fun _ => Dev.rampEnd_within, ?_⟩
  refine List.forall_mem_cons.2 ⟨runUp_within fun _ => Dev.ppsLost_within k, ?_⟩
  refine List.forall_mem_cons.2 ⟨runUp_within fun _ => Dev.prbsLock_within l errors, ?_⟩
  refine List.forall_mem_cons.2 ⟨runUp_within fun _ => Dev.prbsLockLoss_within l errors, ?_⟩
  refine List.forall_mem_cons.2 ⟨runUp_within fun _ => Dev.preemptVerify_within q b, ?_⟩
  refine List.forall_mem_cons.2 ⟨runUp_within fun _ => Dev.within_setDll i.isLt List.mem_cons_self _, ?_⟩
  refine List.forall_mem_cons.2 ⟨runUp_within fun _ => Dev.dllUnlock_within i.isLt, ?_⟩
  exact List.forall_mem_cons.2 ⟨runUp_within fun _ => Dev.engineGate_within g _, List.forall_mem_nil _⟩

end Sys2Proof.Machine
end

section
/-! SUPPORT. Laws of phase transfer: what is held of a link, what counting and leaving L1 leave, what a link loses as it leaves TRACK. -/

namespace Sys2Proof.Machine

variable {d e : Dev} {k : Nat}

/-! ### What is held of a link -/

theorem Dev.phxOf_setPhx (k : Nat) (x : Phx) : (d.setPhx k x).phxOf k = x := by
  unfold Dev.phxOf Dev.setPhx Sparse.getD
  by_cases h : x = {}
  · rw [if_pos h, Sparse.get?_del_same, h]
    rfl
  · rw [if_neg h, Sparse.get?_put_same]
    rfl

theorem Dev.within_phx {l : List Nat} (h : d.Within l e) : e.phx = d.phx := (congrArg Dev.phx h.1 :)

theorem Dev.within_get {l : List Nat} (h : d.Within l e) {f : Fld} (hf : f.addr ∉ l) : e.get f = d.get f := Dev.get_of_word (h.2 _ hf)

theorem Dev.phxOf_congr (h : e.phx = d.phx) (k : Nat) : e.phxOf k = d.phxOf k := by rw [Dev.phxOf, h, Dev.phxOf]

/-- The partner's asymmetry is compared in the link's status and events (R320). -/
theorem Dev.asymSync_within (k : Nat) : d.Within [R.PHX_STATUS k, R.PHX_EVENT_k k] (d.asymSync k) := by
  unfold Dev.asymSync
  cases (d.phxOf k).asym with
  | none => exact Dev.within_refl
  | some ab =>
    refine Dev.within_ite (Dev.within_ite Dev.within_refl ?_) (Dev.within_put Dev.within_refl (by simp) _)
    exact Dev.within_raise (Dev.within_put (Dev.within_put Dev.within_refl (by simp) _) (by simp) _) _ _

theorem Dev.phxInterval_pos (k : Nat) : 0 < d.phxInterval k := by
  unfold Dev.phxInterval
  split
  · exact Nat.mul_pos (by decide) (by omega)
  · decide

/-! ### Counting, and the lanes of a port that leave L1 (R133, R474) -/

/-- A device but for its registers, its counters and the free values drawn. -/
def Dev.uncounted (d : Dev) : Dev := { d with csr := [], obs := {}, fresh := 0 }

theorem Dev.bump_uncounted (i n : Nat) : (d.bump i n).uncounted = d.uncounted := by
  simp only [Dev.bump]
  split <;> rfl

theorem Dev.bump_word {a : Nat} (i n : Nat) (he : R.CNT_EVENT ≠ a) (ho : R.CNT_OVF_LAST ≠ a) : (d.bump i n).word a = d.word a := by
  simp only [Dev.bump]
  split
  · rfl
  · exact (Dev.word_put_ne _ _ ho).trans (Dev.word_put_ne _ _ he)

theorem Dev.count_keeps {β : Type} (g : Dev → β) (hb : ∀ (e : Dev) i n, g (e.bump i n) = g e) (hd : ∀ e : Dev, g e.draw = g e)
    (i n : Nat) : g (d.count i n) = g d := by
  simp only [Dev.count]
  split
  · rfl
  · split
    · exact hb _ _ _
    · split
      · exact (hd _).trans (hb _ _ _)
      · exact hb _ _ _

/-- The lanes of a port that leave L1 change their power states and what counting changes. -/
theorem Dev.leaveL1_keeps {β : Type} (g : Dev → β) (hb : ∀ (e : Dev) i n, g (e.bump i n) = g e) (hd : ∀ e : Dev, g e.draw = g e)
    (hp : ∀ (e : Dev) l, g (e.put (F.HSL_STATUS_pwr_state l) 0) = g e) (p : Nat) : g (d.leaveL1 p) = g d := by
  unfold Dev.leaveL1
  split
  · rfl
  · refine Dev.each_keeps g _ (fun l e => ?_) _ _
    split
    · next h =>
      have hold : e.setLaneState l Lane.l0 = (e.leaveState (laneCtr l 0)).put (F.HSL_STATUS_pwr_state l) 0 := by
        simp only [Dev.setLaneState, h]
        rfl
      rw [hold, hp, Dev.leaveState]
      split
      · exact Dev.count_keeps g hb hd _ _
      · rfl
    · rfl

theorem Dev.leaveL1_uncounted (p : Nat) : (d.leaveL1 p).uncounted = d.uncounted :=
  Dev.leaveL1_keeps Dev.uncounted (fun _ => Dev.bump_uncounted) (fun _ => rfl) (fun _ _ => rfl) p

theorem Dev.leaveL1_word {a : Nat} (he : R.CNT_EVENT ≠ a) (ho : R.CNT_OVF_LAST ≠ a) (hs : ∀ l, R.HSL_STATUS l ≠ a) (p : Nat) :
    (d.leaveL1 p).word a = d.word a :=
  Dev.leaveL1_keeps (fun e => e.word a) (fun _ i n => Dev.bump_word i n he ho) (fun _ => rfl) (fun _ l => Dev.word_put_ne _ _ (hs l)) p

/-! ### A link that leaves TRACK -/

/-- The fields in which a running calibration that fails says so (R323). -/
def calFields : List Fld := [F.PHX_CAL_STATUS_state, F.PHX_CAL_STATUS_reason, ⟨R.PHX_EVENT, 1, 1⟩]

/-- The fields in which a link says that its offset is lost (R315). -/
def loseFields (k : Nat) : List Fld := [F.PHX_STATUS_offset_valid k, ⟨R.PHX_EVENT_k k, 1, 1⟩]

/-- The fields of summit and hops, and of what follows from them (R324, R325, R431). -/
def hopFields : List Fld := [F.PHX_CTRL_summit, F.PHX_CTRL_hops, F.RDN_STATUS_cmp_valid] ++
  ((List.range 16).map (· + 64)).map F.PHX_STATUS_downstream

/-- The fields of a phase jump of a link and of its new acquisition (R319). -/
def acquireFields (k : Nat) : List Fld :=
  [F.PHX_JUMP_CNT k, ⟨R.PHX_EVENT_k k, 2, 1⟩, F.PHX_STATUS_rtt_valid k, F.PHX_STATUS_state k]

/-- The fields that a jump of a link that ranges changes, with what follows from it (R319). -/
def jumpFields (k : Nat) : List Fld := acquireFields k ++ (loseFields k ++ (calFields ++ hopFields))

/-- What each change keeps that is made for an element of a list, the changes of the whole list keep. -/
theorem Dev.each_keeps_mem {α β : Type} (g : Dev → β) {f : α → Dev → Dev} {l : List α} (hf : ∀ x ∈ l, ∀ e, g (f x e) = g e) (d : Dev) :
    g (Dev.each l f d) = g d := by
  induction l generalizing d with
  | nil => rfl
  | cons x l ih =>
    obtain ⟨hx, hl⟩ := List.forall_mem_cons.1 hf
    rw [Dev.each_cons, ih hl, hx]

theorem Dev.calCheck_keeps {β : Type} (g : Dev → β) (hp : ∀ (e : Dev) f v, f ∈ calFields → g (e.put f v) = g e) :
    g d.calCheck = g d := by
  have hfail : ∀ r, g (d.calFail r) = g d := fun r =>
    (hp _ _ _ (by simp [calFields])).trans <| (hp _ _ _ (by simp [calFields])).trans (hp _ _ _ (by simp [calFields]))
  simp only [Dev.calCheck]
  split
  · rfl
  · split
    · exact hfail 4
    · split
      · exact hfail 5
      · rfl

theorem Dev.phxLose_keeps {β : Type} (g : Dev → β) (hp : ∀ (e : Dev) f v, f ∈ loseFields k → g (e.put f v) = g e)
    (hr : ∀ (e : Dev) c n, g (e.raise c n) = g e) : g (d.phxLose k) = g d := by
  unfold Dev.phxLose
  split
  · exact (hr _ _ _).trans <| (hp _ _ _ (by simp [loseFields])).trans (hp _ _ _ (by simp [loseFields]))
  · rfl

theorem Dev.phxHops_keeps {β : Type} (g : Dev → β) (hp : ∀ (e : Dev) f v, f ∈ hopFields → g (e.put f v) = g e) :
    g d.phxHops = g d := by
  refine (Dev.each_keeps_mem g (fun n hn e => ?_) _).trans <| (Dev.when_keeps g (hp _ _ _ (by simp [hopFields])) _).trans <|
    (hp _ _ _ (by simp [hopFields])).trans (hp _ _ _ (by simp [hopFields]))
  exact Dev.when_keeps g (hp _ _ _ (List.mem_append_right _ (List.mem_map_of_mem hn))) _

/-! ### A jump of a link that ranges (R319) -/

/-- What a phase jump notes before the link acquires anew. -/
def Dev.jumpNoted (k : Nat) (d : Dev) : Dev :=
  (({ d with refs := { d.refs with jumpCands := addOnce k d.refs.jumpCands } } : Dev).sat (F.PHX_JUMP_CNT k) 1).fault (R.PHX_EVENT_k k) 2
    E.PHX_JUMP k

/-- A link that enters RANGE begins its RTT samples anew. -/
theorem Dev.phxEnter_range (k : Nat) : d.phxEnter k Phx.range =
    (((d.put (F.PHX_STATUS_state k) Phx.range).phxLose k).setPhx k
      { ((d.put (F.PHX_STATUS_state k) Phx.range).phxLose k).phxOf k with since := 0, resolved := false }).calCheck := rfl

theorem Dev.jumpNoted_state (k : Nat) : (d.jumpNoted k).phxState k = d.phxState k :=
  (Dev.get_put_apart _ _ (.inl (by simp))).trans (Dev.get_put_apart _ _ (.inl (by simp)))

theorem Dev.phxJump_ranges (h : 3 ≤ d.phxState k) :
    d.phxJump k = (((d.jumpNoted k).phxDiscard k).phxEnter k Phx.range).phxHops :=
  if_pos (h.trans (d.jumpNoted_state k).ge)

theorem acquireFields_subset (k : Nat) : acquireFields k ⊆ jumpFields k := List.subset_append_left _ _

theorem loseFields_subset (k : Nat) : loseFields k ⊆ jumpFields k :=
  List.subset_append_of_subset_right _ (List.subset_append_left _ _)

theorem calFields_subset (k : Nat) : calFields ⊆ jumpFields k :=
  List.subset_append_of_subset_right _ (List.subset_append_of_subset_right _ (List.subset_append_left _ _))

theorem hopFields_subset (k : Nat) : hopFields ⊆ jumpFields k :=
  List.subset_append_of_subset_right _ (List.subset_append_of_subset_right _ (List.subset_append_right _ _))

/-- A jump of a link that ranges changes no field but those of the jump. -/
theorem Dev.phxJump_get {f : Fld} (h : 3 ≤ d.phxState k) (hf : ∀ g ∈ jumpFields k, g.apart f) : (d.phxJump k).get f = d.get f := by
  have hput : ∀ {l : List Fld}, l ⊆ jumpFields k → ∀ (e : Dev) g v, g ∈ l → (e.put g v).get f = e.get f := fun hl e g v hg =>
    Dev.get_put_apart _ _ (hf g (hl hg))
  have hown := hput (acquireFields_subset k)
  calc (d.phxJump k).get f = (((d.jumpNoted k).phxDiscard k).phxEnter k Phx.range).get f := by
        rw [Dev.phxJump_ranges h]
        exact Dev.phxHops_keeps (fun e => e.get f) (hput (hopFields_subset k))
    _ = (((d.jumpNoted k).phxDiscard k).put (F.PHX_STATUS_state k) Phx.range).get f := by
        rw [Dev.phxEnter_range]
        refine (Dev.calCheck_keeps (fun e => e.get f) (hput (calFields_subset k))).trans ?_
        exact Dev.phxLose_keeps (fun e => e.get f) (hput (loseFields_subset k)) fun _ _ _ => rfl
    _ = (d.jumpNoted k).get f := (hown _ _ _ (by simp [acquireFields])).trans (hown _ _ _ (by simp [acquireFields]))
    _ = d.get f := (hown _ _ _ (by simp [acquireFields])).trans (hown _ _ _ (by simp [acquireFields]))

theorem Dev.phxDiscard_phxOf (k : Nat) : (d.phxDiscard k).phxOf k = { d.phxOf k with rtts := [] } :=
  (Dev.phxOf_congr (Dev.put_phx _ _ _) k).trans (Dev.phxOf_setPhx k _)

/-- What a link that enters RANGE holds. -/
theorem Dev.phxEnter_range_phxOf (k : Nat) : (d.phxEnter k Phx.range).phxOf k = { d.phxOf k with since := 0, resolved := false } := by
  have hlose : ((d.put (F.PHX_STATUS_state k) Phx.range).phxLose k).phxOf k = d.phxOf k :=
    Dev.phxOf_congr (Dev.phxLose_keeps Dev.phx (fun _ _ _ _ => rfl) fun _ _ _ => rfl) k
  rw [Dev.phxEnter_range, Dev.phxOf_congr (Dev.calCheck_keeps Dev.phx fun _ _ _ _ => rfl), Dev.phxOf_setPhx, hlose]

/-- A jump of a link that ranges leaves what the link knows of its partner. -/
theorem Dev.phxJump_partner (h : 3 ≤ d.phxState k) : ((d.phxJump k).phxOf k).partner = (d.phxOf k).partner := by
  rw [Dev.phxJump_ranges h, Dev.phxOf_congr (Dev.phxHops_keeps Dev.phx fun _ _ _ _ => rfl), Dev.phxEnter_range_phxOf,
    Dev.phxDiscard_phxOf]
  rfl

end Sys2Proof.Machine
end

section
/-! PROOFS. The family of the Ethernet lanes, phase transfer: samples, reports and ambiguous reports (R133, R308–R315). -/

namespace Sys2Proof.Machine

variable {s : State} {d e : Dev} {k : Nat}

/-! ### Samples (R308) -/

/-- A sample taken of a link: what it holds now, the jump, the end of an interval, the report. -/
def Dev.sampleTaken (k : Nat) (x : Phx) (jump : Bool) (d : Dev) : Dev :=
  let d1 := (d.setPhx k { x with jumped := jump }).asymSync k
  let d2 := if jump then (d1.setPhx k { x with mStart := x.mIn, count := 0, jumped := jump }).phxJump k else d1
  let d3 := if d2.phxInterval k ≤ (d2.phxOf k).count then d2.phxInterval_ends k else d2
  d3.when ((d3.phxOf k).rtts != []) (Dev.phxReport k)

/-- The arrival of the grid boundary in exact units: the lane's result less its delay, `blocks` block periods earlier. -/
def Dev.sampleArrival (k blocks t : Nat) (d : Dev) : Int :=
  let g : Int := d.gridPeriod k
  let block : Int := if k < 64 then 65536 * nthD [61440, 24576, 12288, 6144, 3072, 1536] (d.get (F.MAC_CFG_speed k)) 6144 else g
  ((t : Int) - d.rxDelay (if k < 64 then k else k + 1)) * gridUnits - blocks * block

/-- m_in of a sample: unwrapped against the last where there is one. -/
def Dev.sampleIn (k blocks t : Nat) (d : Dev) : Int :=
  let x := d.phxOf k
  let g : Int := d.gridPeriod k
  let f := (d.sampleArrival k blocks t - (d.get (F.PHX_PARTNER_GRID k) : Int) * gridUnits) % g
  if x.seen then roundDiv (x.mIn + x.step - f) g.toNat * g + f else f

/-- What a link holds after a sample of m_in `m` and arrival `a` that is no jump. -/
def phxSampled (x : Phx) (m a alpha delta : Int) : Phx :=
  { x with mIn := m, arr := a, step := 0, seen := true, count := x.count + 1
           mStart := if x.seen then x.mStart + x.step else m, alpha := alpha, delta := delta, jumped := false }

theorem phxSampled_fields (x : Phx) (m a alpha delta : Int) : (phxSampled x m a alpha delta).rtts = x.rtts ∧
    (phxSampled x m a alpha delta).count = x.count + 1 ∧ (phxSampled x m a alpha delta).jumped = false := ⟨rfl, rfl, rfl⟩

def Dev.sampled (k blocks t : Nat) (d : Dev) : Phx :=
  phxSampled (d.phxOf k) (d.sampleIn k blocks t) (d.sampleArrival k blocks t) (d.asym k) (d.sget (F.PHX_ASYM_FIX k))

/-- How far m_in may drift from one sample to the next at the frequency offset measured (R319). -/
def Dev.sampleDrift (k : Nat) (d : Dev) : Nat := (d.sget (F.PHX_FREQ k)).natAbs * 6291456 / 100000

/-- A sample that departs from the last by more than the threshold and the drift is a jump (R319). -/
def Dev.sampleJumps (k blocks t : Nat) (d : Dev) : Bool :=
  (d.phxOf k).seen && decide (d.phxThreshold k + d.sampleDrift k <
    ((d.sampleIn k blocks t - ((d.phxOf k).mIn + (d.phxOf k).step)).natAbs : Int))

theorem Dev.phxSample_takes {blocks t : Nat} (hs : 2 ≤ d.phxState k) (ht : (d.tdcOf (d.phxChannel k)).last = some t) :
    d.phxSample k blocks = d.sampleTaken k (d.sampled k blocks t) (d.sampleJumps k blocks t) := by
  have hst : ¬ (d.phxState k = Phx.off ∨ d.phxState k = Phx.align) := by
    simp only [Phx.off, Phx.align]
    omega
  rw [Dev.phxSample, if_neg hst]
  simp only [ht]
  rfl

/-- A sample that is no jump and ends no interval shows delay and offset where there are RTT samples. -/
theorem Dev.sampleTaken_steady {x : Phx} (hx : x.jumped = false) (hc : x.count < d.phxInterval k) : d.sampleTaken k x false =
    (let e := (d.setPhx k x).asymSync k
     if x.rtts ≠ [] then e.phxReport k else e) := by
  have hxj : ({ x with jumped := false } : Phx) = x := by rw [← hx]
  have hin := Dev.asymSync_within (d := d.setPhx k x) k
  have hphx : ((d.setPhx k x).asymSync k).phxOf k = x := (Dev.phxOf_congr (Dev.within_phx hin) k).trans (Dev.phxOf_setPhx k x)
  have hrpt : ((d.setPhx k x).asymSync k).phxInterval k = d.phxInterval k := by
    have hcfg : ((d.setPhx k x).asymSync k).get (F.PHX_CFG_rpt_interval k) = d.get (F.PHX_CFG_rpt_interval k) :=
      Dev.within_get hin (by simp)
    simp only [Dev.phxInterval, hcfg]
  simp only [Dev.sampleTaken, hxj, Bool.false_eq_true, if_false]
  rw [if_neg (by rw [hrpt, hphx]; omega), hphx]
  by_cases hr : x.rtts = []
  · rw [bne_eq_false_iff_eq.2 hr, if_neg (not_not.2 hr), Dev.when_false]
  · rw [bne_iff_ne.2 hr, if_pos hr, Dev.when_true]

theorem Dev.phxSample_steady {blocks t : Nat} (hs : 2 ≤ d.phxState k) (ht : (d.tdcOf (d.phxChannel k)).last = some t)
    (hj : (d.phxOf k).seen = true → ((d.sampleIn k blocks t - ((d.phxOf k).mIn + (d.phxOf k).step)).natAbs : Int) ≤
      d.phxThreshold k + d.sampleDrift k)
    (hc : (d.phxOf k).count + 1 < d.phxInterval k) : d.phxSample k blocks =
    (let e := (d.setPhx k (d.sampled k blocks t)).asymSync k
     if (d.phxOf k).rtts ≠ [] then e.phxReport k else e) := by
  have hjump : d.sampleJumps k blocks t = false := by
    unfold Dev.sampleJumps
    cases hseen : (d.phxOf k).seen with
    | false => rfl
    | true => rw [Bool.true_and, decide_eq_false (not_lt.2 (hj hseen))]
  obtain ⟨hrtts, hcount, hjumped⟩ := phxSampled_fields (d.phxOf k) (d.sampleIn k blocks t) (d.sampleArrival k blocks t) (d.asym k)
    (d.sget (F.PHX_ASYM_FIX k))
  rw [Dev.phxSample_takes hs ht, hjump, Dev.sampled, Dev.sampleTaken_steady hjumped (hcount.trans_lt hc), hrtts]

/-! ### Reports sent (R313) -/

/-- A report that falls due on a link: its lanes leave L1 and it waits from now on. -/
def Dev.reportDue (p : Nat) (d : Dev) : Dev := (d.leaveL1 p).setPhx p { d.phxOf p with due := some d.now }

theorem Dev.phxSend_due {p bits : Nat} (hs : d.phxSends p = true) (hn : (d.phxOf p).due = none) :
    d.phxSend p bits = ((d.reportDue p).phxLeave p bits).2 := by
  rw [Dev.phxSend, if_neg (by rw [hs]; decide)]
  simp only [hn, if_true]
  rfl

/-- A report that waits less than an interval leaves at a frame boundary with a gap for it. -/
theorem Dev.phxLeave_waits {p bits t : Nat} (hd : (d.phxOf p).due = some t) (hs : d.phxSends p = true)
    (ht : d.now < t + d.phxInterval p * 1000 * 65536) : d.phxLeave p bits =
    (let bs := d.reportBytes p bits
     if (d.sendingOn p).isSome ∨ !d.fitsGap p (bs.length + d.secLen p bs) then (false, d)
     else (true, ((d.insertFrame p bs).count (devCtr 1) 1).setPhx p
       { d.phxOf p with seq := ((d.phxOf p).seq + 1) % 65536, due := none })) := by
  simp only [Dev.phxLeave, hd]
  rw [if_neg (by simp [hs]; omega)]

theorem Dev.reportDue_phxOf (p : Nat) : (d.reportDue p).phxOf p = { d.phxOf p with due := some d.now } := Dev.phxOf_setPhx _ _

theorem Dev.reportDue_now (p : Nat) : (d.reportDue p).now = d.now :=
  (congrArg Dev.now (Dev.leaveL1_uncounted (d := d) p) :)

theorem Dev.reportDue_sendingOn (p : Nat) : (d.reportDue p).sendingOn p = d.sendingOn p :=
  (congrArg (fun e : Dev => e.sendingOn p) (Dev.leaveL1_uncounted (d := d) p) :)

/-- The lanes' power states and counts do not say whether a link sends reports. -/
theorem Dev.reportDue_phxSends {p : Nat} (hp : p < 64) : (d.reportDue p).phxSends p = d.phxSends p := by
  have hw : ∀ a, a < R.CNT_EVENT → (∀ l, R.HSL_STATUS l ≠ a) → (d.reportDue p).word a = d.word a := fun a ha hl =>
    Dev.leaveL1_word (by omega) (by simp only [R.CNT_EVENT, R.CNT_OVF_LAST] at *; omega) hl p
  have hlow : ∀ a, a < R.HSL_CFG 0 → (d.reportDue p).word a = d.word a := fun a ha =>
    hw a (by simp only [R.CNT_EVENT, R.HSL_CFG] at *; omega) fun l => by simp only [R.HSL_STATUS, R.HSL_CFG] at *; omega
  have hlane : (d.reportDue p).word (R.HSL_CFG p) = d.word (R.HSL_CFG p) :=
    hw _ (by simp only [R.CNT_EVENT, R.HSL_CFG]; omega) fun l => by simp only [R.HSL_STATUS, R.HSL_CFG]; omega
  have hready : (readyBit p).addr < R.HSL_CFG 0 := by
    unfold readyBit
    split
    · exact (by decide : R.TOP_READY_PORT_0 < R.HSL_CFG 0)
    · exact (by decide : R.TOP_READY_PORT_1 < R.HSL_CFG 0)
  have hcfg : R.PHX_CFG p < R.HSL_CFG 0 := by simp only [R.PHX_CFG, R.HSL_CFG]; omega
  simp only [Dev.phxSends, Dev.blockPresent, Dev.get_of_word (f := F.IMG_PRESENT) (hlow _ (by decide)),
    Dev.flag_of_word (f := F.PHX_CFG_enable p) (hlow _ hcfg), Dev.portPresent, if_pos hp, Dev.regionPresent,
    Dev.get_of_word (f := F.IMG_REGIONS) (hlow _ (by decide)), Dev.flag_of_word (f := F.HSL_CFG_used p) hlane,
    Dev.get_of_word (f := F.HSL_CFG_port p) hlane, Dev.portReady, Dev.flag_of_word (hlow _ hready)]

theorem Dev.phxSend_leaves {p bits : Nat} (hp : p < 64) (hs : d.phxSends p = true) (hn : (d.phxOf p).due = none) :
    d.phxSend p bits = (let e := d.reportDue p
      let bs := e.reportBytes p bits
      if (d.sendingOn p).isSome ∨ !e.fitsGap p (bs.length + e.secLen p bs) then e
      else ((e.insertFrame p bs).count (devCtr 1) 1).setPhx p { d.phxOf p with seq := ((d.phxOf p).seq + 1) % 65536, due := none }) := by
  have hyoung : (d.reportDue p).now < d.now + (d.reportDue p).phxInterval p * 1000 * 65536 := by
    have := (d.reportDue p).phxInterval_pos p
    rw [Dev.reportDue_now]
    omega
  have hdue : ((d.reportDue p).phxOf p).due = some d.now := by rw [Dev.reportDue_phxOf]
  rw [Dev.phxSend_due hs hn, Dev.phxLeave_waits hdue ((Dev.reportDue_phxSends hp).trans hs) hyoung, Dev.reportDue_sendingOn,
    Dev.reportDue_phxOf]
  dsimp only
  split <;> rfl

/-! ### Reports received (R312, R314) -/

/-- What a report says, received with `stamp`. -/
def reportInfo (stamp : Stamp) (bs : List Byte) : PhxInfo :=
  let w := fun (i n : Nat) => octets bs (14 + i) n
  { ident := w 4 8, port := w 12 1, mode := w 15 1, epoch := w 14 1, grid := w 28 4, hops := w 13 1
    follows := some (hasBit (w 1 1) 4), m := if hasBit (w 1 1) 2 then some (signed 64 (w 32 8)) else none
    coarse := (stamp.t : Int) - instant (w 16 6) (w 22 4) (w 26 2)
    asym := some (signed 32 (w 40 4), signed 32 (w 44 4)) }

/-- A report comes less than 0.1 ms after the last accepted (R314). -/
def Dev.reportEarly (p bits : Nat) (d : Dev) : Bool :=
  match (d.phxOf p).lastAcc with
  | some t => decide ((d.rxStamp p bits).t < t + 100000 * 65536)
  | none => false

/-- A report is one that R314 accepts. -/
def Dev.reportOk (p bits : Nat) (bs : List Byte) (d : Dev) : Bool :=
  fcsOk bs && bs.length == 82 && octets bs (14 + 0) 1 == 1 && octets bs (14 + 1) 1 % 4 == 3 &&
    !(octets bs (14 + 4) 8 == d.identity) && !d.reportEarly p bits && d.phxState p != Phx.off

theorem Dev.phxRead_report {p bits : Nat} {bs : List Byte} (h : d.isReport p bs = true) : d.phxRead p bits bs =
    if !d.reportOk p bits bs then
      (d.sat (F.PHX_RPT_ERR p) 1).when (octets bs (14 + 4) 8 == d.identity && fcsOk bs) (Dev.fault (R.PHX_EVENT_k p) 6 E.PHX_LOOP p)
    else d.phxAccept p (d.rxStamp p bits).t (reportInfo (d.rxStamp p bits) bs) :=
  if_neg (by rw [h]; decide)

theorem Dev.reportEarly_eq_false {p bits : Nat} (h : ∀ t, (d.phxOf p).lastAcc = some t → t + 100000 * 65536 ≤ (d.rxStamp p bits).t) :
    d.reportEarly p bits = false := by
  unfold Dev.reportEarly
  cases hl : (d.phxOf p).lastAcc with
  | none => rfl
  | some t => exact decide_eq_false (not_lt.2 (h t hl))

/-! ### What a port's MACsec opens of a report does not depend on what the command sends -/

theorem Dev.rxTag_sent (l : List Sent) (p : Nat) (bs : List Byte) : { d with sent := l }.rxTag p bs = d.rxTag p bs := by
  have hmode : { d with sent := l }.mscMode p = d.mscMode p := rfl
  have hready : { d with sent := l }.flag F.TOP_READY_msc = d.flag F.TOP_READY_msc := rfl
  have hexempt : { d with sent := l }.mscExempt p bs = d.mscExempt p bs := rfl
  have hfor : { d with sent := l }.chanFor = d.chanFor := rfl
  have hchan : { d with sent := l }.chanWord = d.chanWord := rfl
  have hsa : { d with sent := l }.saOf = d.saOf := rfl
  have hpn : { d with sent := l }.saPn = d.saPn := rfl
  have hword : { d with sent := l }.saWord = d.saWord := rfl
  unfold Dev.rxTag
  rw [hmode, hready, hexempt, hfor, hchan, hsa, hpn, hword]

theorem Dev.opened_sent (l : List Sent) (p : Nat) (bs : List Byte) : { d with sent := l }.opened p bs = d.opened p bs := by
  have hfails : { d with sent := l }.rxFails p = d.rxFails p := rfl
  have huse : { d with sent := l }.saUse p = d.saUse p := rfl
  unfold Dev.opened Dev.openBytes
  rw [Dev.rxTag_sent, hfails, huse]

theorem begin_opened (p : Nat) (bs : List Byte) : s.begin.dev.opened p bs = s.dev.opened p bs := Dev.opened_sent [] p bs

theorem Dev.phxReceive_opened {p bits : Nat} {line bs : List Byte} (h : d.opened p line = some bs) :
    d.phxReceive p bits line = d.phxRead p bits bs := by
  simp only [Dev.phxReceive, h]

theorem Dev.phxReceive_dropped {p bits : Nat} {line : List Byte} (h : d.opened p line = none) : d.phxReceive p bits line = d := by
  simp only [Dev.phxReceive, h]

theorem Dev.phxReceive_accepts {p bits : Nat} {line bs : List Byte} (ho : d.opened p line = some bs) (hr : d.isReport p bs = true)
    (hok : d.reportOk p bits bs = true) :
    d.phxReceive p bits line = d.phxAccept p (d.rxStamp p bits).t (reportInfo (d.rxStamp p bits) bs) := by
  rw [Dev.phxReceive_opened ho, Dev.phxRead_report hr, if_neg (by rw [hok]; decide)]

theorem Dev.phxReceive_counts {p bits : Nat} {line bs : List Byte} (ho : d.opened p line = some bs) (hr : d.isReport p bs = true)
    (hv : octets bs (14 + 0) 1 ≠ 1) (hi : octets bs (14 + 4) 8 ≠ d.identity) :
    d.phxReceive p bits line = d.sat (F.PHX_RPT_ERR p) 1 := by
  have hok : d.reportOk p bits bs = false := by
    rw [Dev.reportOk, beq_false_of_ne hv]
    simp
  have hown : (octets bs (14 + 4) 8 == d.identity) = false := beq_false_of_ne hi
  rw [Dev.phxReceive_opened ho, Dev.phxRead_report hr, hok, hown, Bool.not_false, if_pos rfl, Bool.false_and, Dev.when_false]

theorem Dev.phxStale_track (h : d.phxState k = Phx.track) : d.phxStale k =
    ((((d.put (F.PHX_STATUS_state k) Phx.stale).event (R.PHX_EVENT_k k) 3).phxLose k).calCheck.phxHops) :=
  if_neg (not_not.2 h)

/-! ### Ambiguous reports (R309) -/

/-- The fields that stay of a partner, and those of the ambiguity itself, stand apart from a jump's. -/
theorem jumpFields_apart : ∀ k : Fin 80, ∀ f ∈ [F.PHX_PARTNER_GRID k, F.PHX_STATUS_partner_epoch k, F.PHX_STATUS_partner_hops k,
    F.PHX_AMBIG k, ⟨R.PHX_EVENT_k k, 4, 1⟩], ∀ g ∈ jumpFields k, g.apart f := by decide

/-- What an ambiguous report counts and raises before it counts as a jump. -/
def Dev.ambigNoted (k : Nat) (d : Dev) : Dev := (d.sat (F.PHX_AMBIG k) 1).fault (R.PHX_EVENT_k k) 4 E.PHX_AMBIGUITY k

theorem Dev.phxAccept_ambiguous {arrival : Nat} {i : PhxInfo} (hj : (d.phxOf k).jumped = false) (ha : d.phxAmbiguous k i = true) :
    d.phxAccept k arrival i = (d.ambigNoted k).phxJump k :=
  (if_neg (by rw [hj]; decide)).trans (if_pos ha)

theorem Dev.ambigNoted_get {f : Fld} (h1 : (F.PHX_AMBIG k).apart f) (h2 : (⟨R.PHX_EVENT_k k, 4, 1⟩ : Fld).apart f) :
    (d.ambigNoted k).get f = d.get f :=
  (Dev.get_put_apart _ _ h2).trans (Dev.get_put_apart _ _ h1)

theorem Dev.phxAmbiguous_ranges {i : PhxInfo} (h : d.phxAmbiguous k i = true) : 3 ≤ d.phxState k := by
  simp only [Dev.phxAmbiguous, Bool.and_eq_true, decide_eq_true_eq] at h
  obtain ⟨⟨⟨⟨hstate, -⟩, -⟩, -⟩, -⟩ := h
  exact hstate

theorem Dev.ambiguous_leaves {k : Fin 80} {arrival : Nat} {i : PhxInfo} (hj : (d.phxOf k).jumped = false)
    (ha : d.phxAmbiguous k i = true) : let e := d.phxAccept k arrival i
    e.get (F.PHX_PARTNER_GRID k) = d.get (F.PHX_PARTNER_GRID k) ∧
      e.get (F.PHX_STATUS_partner_epoch k) = d.get (F.PHX_STATUS_partner_epoch k) ∧
      e.get (F.PHX_STATUS_partner_hops k) = d.get (F.PHX_STATUS_partner_hops k) ∧ (e.phxOf k).partner = (d.phxOf k).partner ∧
      e.get (F.PHX_AMBIG k) = satAdd 32 (d.get (F.PHX_AMBIG k)) 1 ∧ e.bitAt (R.PHX_EVENT_k k) 4 = true := by
  have hstate : 3 ≤ (d.ambigNoted k).phxState k := by
    rw [Dev.phxState, Dev.ambigNoted_get (.inl (by simp)) (.inl (by simp))]
    exact Dev.phxAmbiguous_ranges ha
  have hget := fun f hf => Dev.phxJump_get hstate (jumpFields_apart k f hf)
  rw [Dev.phxAccept_ambiguous hj ha]
  refine ⟨?_, ?_, ?_, Dev.phxJump_partner hstate, ?_, Dev.bitAt_of_flag ?_⟩
  · rw [hget _ (by simp), Dev.ambigNoted_get (.inl (by simp)) (.inl (by simp))]
  · rw [hget _ (by simp), Dev.ambigNoted_get (.inl (by simp)) (.inl (by simp))]
  · rw [hget _ (by simp), Dev.ambigNoted_get (.inl (by simp)) (.inl (by simp))]
  · rw [hget _ (by simp)]
    exact (Dev.get_put_apart _ _ (.inl (by simp))).trans (Dev.get_put_fits _ (show 0 + 32 ≤ 32 by decide) (satAdd_lt _ _ _))
  · rw [Dev.flag, hget _ (by simp)]
    exact Dev.flag_put_one rfl (show 4 + 1 ≤ 32 by decide)

end Sys2Proof.Machine
end

section
/-! PROOFS. The family of the Ethernet lanes, phase transfer: the calibration of a link (R322, R323). -/

namespace Sys2Proof.Machine

variable {s : State} {d e : Dev}

/-! ### The start of a calibration (R322) -/

/-- The write of PHX_CAL_CTRL that asks for a calibration. -/
def calWord (k channel : Nat) (target : Bool) : Word := BitVec.ofNat 32 (2 ^ 31 + 65536 * channel + 256 * bit target + k)

section
variable {k channel : Nat} (hk : k < 128) (hc : channel < 128) (target : Bool)
include hk hc

theorem calWord_toNat : (calWord k channel target).toNat = 2 ^ 31 + 65536 * channel + 256 * bit target + k := by
  have := bit_lt target
  rw [calWord, BitVec.toNat_ofNat, Nat.mod_eq_of_lt (by omega)]

theorem calWord_fields : bits (calWord k channel target) 0 7 = k ∧ bits (calWord k channel target) 8 1 = bit target ∧
    bits (calWord k channel target) 16 7 = channel := by
  have := bit_lt target
  simp only [bits, BitVec.extractLsb'_toNat, calWord_toNat hk hc target, Nat.shiftRight_eq_div_pow]
  omega

theorem calWord_bit {i : Nat} : (calWord k channel target).getLsbD i =
    decide ((2 ^ 31 + 65536 * channel + 256 * bit target + k) / 2 ^ i % 2 = 1) := by
  rw [← BitVec.testBit_toNat, calWord_toNat hk hc target, Nat.testBit_eq_decide_div_mod_eq]

theorem calWord_starts : (calWord k channel target).getLsbD 31 = true := by
  have := bit_lt target
  rw [calWord_bit hk hc target, decide_eq_true_iff]
  omega

theorem calWord_named : calWord k channel target &&& ~~~(namedAt R.PHX_CAL_CTRL) = 0#32 := by
  have hrest : ∀ i : Fin 32, (namedAt R.PHX_CAL_CTRL).getLsbD i = true ∨ i.val = 7 ∨ (9 ≤ i.val ∧ i.val < 16) ∨ (23 ≤ i.val ∧ i.val < 31) := by
    decide
  have hlt := bit_lt target
  refine BitVec.eq_of_getLsbD_eq fun i hi => ?_
  rw [BitVec.getLsbD_and, BitVec.getLsbD_not, BitVec.getLsbD_zero]
  rcases hrest ⟨i, hi⟩ with h | h
  · rw [show (namedAt R.PHX_CAL_CTRL).getLsbD i = true from h, Bool.not_true, Bool.and_false, Bool.and_false]
  · rw [calWord_bit hk hc target, Bool.and_eq_false_iff]
    refine .inl (decide_eq_false ?_)
    obtain rfl | ⟨hlo, hhi⟩ | ⟨hlo, hhi⟩ : i = 7 ∨ (9 ≤ i ∧ i < 16) ∨ (23 ≤ i ∧ i < 31) := h
    · omega
    · interval_cases i <;> omega
    · interval_cases i <;> omega

end

/-- The device with the link, the target and the channel of a calibration asked for, and the start bit gone again. -/
def Dev.calAsked (k channel : Nat) (target : Bool) (d : Dev) : Dev :=
  (((d.put F.PHX_CAL_CTRL_link k).put F.PHX_CAL_CTRL_target (bit target)).put F.PHX_CAL_CTRL_chan channel).put F.PHX_CAL_CTRL_start 0

theorem runs_phxCalStart (k channel : Fin 128) (target : Bool) (h : s.Reaches R.PHX_CAL_CTRL) :
    Runs (.phxCalStart k target channel) s (fun d => (d.touched R.PHX_CAL_CTRL).writeCalCtrl (calWord k channel target)) := by
  refine runHost_starts (b := R.PHX_CAL_CTRL) (i := 0) h (by decide) (calWord_named k.isLt channel.isLt target) fun d => ?_
  exact (congrArg (d.special R.PHX_CAL_CTRL 0) (and_mask_of_named (calWord_named k.isLt channel.isLt target))).trans rfl

section
variable {k channel : Nat} (hk : k < 128) (hc : channel < 128) (target : Bool)

theorem Dev.calAsked_word {a : Nat} (h : R.PHX_CAL_CTRL ≠ a) : (d.calAsked k channel target).word a = d.word a :=
  (Dev.word_put_ne _ _ h).trans <| (Dev.word_put_ne _ _ h).trans <| (Dev.word_put_ne _ _ h).trans (Dev.word_put_ne _ _ h)

include hk hc

theorem Dev.calAsked_fields : (d.calAsked k channel target).get F.PHX_CAL_CTRL_link = k ∧
    (d.calAsked k channel target).get F.PHX_CAL_CTRL_chan = channel ∧
    (d.calAsked k channel target).get F.PHX_CAL_CTRL_target = bit target ∧
    (d.calAsked k channel target).get F.PHX_CAL_CTRL_start = 0 := by
  unfold Dev.calAsked
  refine ⟨?_, ?_, ?_, Dev.get_put_fits _ (by decide) (by decide)⟩
  · rw [Dev.get_put_apart _ _ (.inr (.inl (by decide))), Dev.get_put_apart _ _ (.inr (.inl (by decide))),
      Dev.get_put_apart _ _ (.inr (.inl (by decide))), Dev.get_put_fits _ (by decide) hk]
  · rw [Dev.get_put_apart _ _ (.inr (.inl (by decide))), Dev.get_put_fits _ (by decide) hc]
  · rw [Dev.get_put_apart _ _ (.inr (.inl (by decide))), Dev.get_put_apart _ _ (.inr (.inl (by decide))),
      Dev.get_put_fits _ (by decide) (bit_lt target)]

end

theorem Dev.calAsked_state (k channel : Nat) (target : Bool) :
    (d.calAsked k channel target).get F.PHX_CAL_STATUS_state = d.get F.PHX_CAL_STATUS_state :=
  Dev.get_of_word (Dev.calAsked_word target (by decide))

theorem Dev.calAsked_phxState (k channel : Nat) (target : Bool) (j : Nat) :
    (d.calAsked k channel target).phxState j = d.phxState j :=
  Dev.get_of_word (Dev.calAsked_word target (by simp only [R.PHX_CAL_CTRL, R.PHX_STATUS]; omega))

theorem Dev.tdcMode_of_words {c : Nat} (hin : e.word (R.REF_IN_CFG (c - 80)) = d.word (R.REF_IN_CFG (c - 80)))
    (hcfg : e.word (R.TDC_CFG c) = d.word (R.TDC_CFG c)) : e.tdcMode c = d.tdcMode c := by
  have hby : e.tdcByRef c = d.tdcByRef c := by
    simp only [Dev.tdcByRef, Dev.flag_of_word (f := F.REF_IN_CFG_enable (c - 80)) hin]
  have hpulse : e.isPulse (c - 80) = d.isPulse (c - 80) := by
    simp only [Dev.isPulse, Dev.get_of_word (f := F.REF_IN_CFG_type (c - 80)) hin]
  unfold Dev.tdcMode
  rw [hby, hpulse, Dev.get_of_word (f := F.TDC_CFG_mode c) hcfg]

theorem Dev.calAsked_tdcMode {channel : Nat} (hc : channel < 128) (k : Nat) (target : Bool) :
    (d.calAsked k channel target).tdcMode channel = d.tdcMode channel :=
  Dev.tdcMode_of_words (Dev.calAsked_word target (by simp only [R.PHX_CAL_CTRL, R.REF_IN_CFG]; omega))
    (Dev.calAsked_word target (by simp only [R.PHX_CAL_CTRL, R.TDC_CFG]; omega))

/-- A calibration that starts on link `k` and channel `channel` (R322). -/
def Dev.calBegun (k channel : Nat) (e : Dev) : Dev :=
  let x := (e.calReason 1 0).put F.PHX_CAL_STATUS_samples 0
  { x with phxCal := { epoch := x.get F.TBS_STATUS_epoch, partnerEpoch := x.get (F.PHX_STATUS_partner_epoch k), link := k
                       chan := channel, target := x.flag F.PHX_CAL_CTRL_target } }

/-- A calibration is refused while one runs, on a link that does not track, with a channel that takes no events (R322). -/
theorem Dev.calStart_of {k channel : Nat} (hk : d.get F.PHX_CAL_CTRL_link = k) (hc : d.get F.PHX_CAL_CTRL_chan = channel) : d.calStart =
    (let e := d.put F.PHX_CAL_CTRL_start 0
     if e.get F.PHX_CAL_STATUS_state = 1 then e.put F.PHX_CAL_STATUS_reason 3
     else if 80 ≤ k ∨ e.phxState k ≠ Phx.track then e.put F.PHX_CAL_STATUS_reason 1
     else if channel < 80 ∨ 91 < channel ∨ e.tdcMode channel ≠ 1 then e.put F.PHX_CAL_STATUS_reason 2
     else e.calBegun k channel) := by
  subst hk hc
  rfl

theorem Dev.writeCalCtrl_asks {k channel : Nat} (hk : k < 128) (hc : channel < 128) (target : Bool) :
    d.writeCalCtrl (calWord k channel target) =
    (let e := d.calAsked k channel target
     if d.get F.PHX_CAL_STATUS_state = 1 then e.put F.PHX_CAL_STATUS_reason 3
     else if 80 ≤ k ∨ d.phxState k ≠ Phx.track then e.put F.PHX_CAL_STATUS_reason 1
     else if channel < 80 ∨ 91 < channel ∨ d.tdcMode channel ≠ 1 then e.put F.PHX_CAL_STATUS_reason 2
     else e.calBegun k channel) := by
  obtain ⟨hlink, htarget, hchan⟩ := calWord_fields hk hc target
  have hask : d.writeCalCtrl (calWord k channel target) =
      (((d.put F.PHX_CAL_CTRL_link k).put F.PHX_CAL_CTRL_target (bit target)).put F.PHX_CAL_CTRL_chan channel).calStart := by
    rw [Dev.writeCalCtrl, hlink, htarget, hchan, if_pos (calWord_starts hk hc target)]
  rw [hask, Dev.calStart_of (k := k) (channel := channel)]
  · rw [← Dev.calAsked_state k channel target, ← Dev.calAsked_phxState k channel target, ← Dev.calAsked_tdcMode hc k target]
    exact rfl
  · rw [Dev.get_put_apart _ _ (.inr (.inl (by decide))), Dev.get_put_apart _ _ (.inr (.inl (by decide))),
      Dev.get_put_fits _ (by decide) hk]
  · exact Dev.get_put_fits _ (by decide) hc

/-- A calibration begun holds the epochs, the link, the channel and the target it was asked for. -/
theorem Dev.calBegun_asked {k channel : Nat} (hk : k < 128) (hc : channel < 128) (target : Bool) :
    (d.calAsked k channel target).calBegun k channel =
    { ((d.calAsked k channel target).calReason 1 0).put F.PHX_CAL_STATUS_samples 0 with
      phxCal := { epoch := d.get F.TBS_STATUS_epoch, partnerEpoch := d.get (F.PHX_STATUS_partner_epoch k), link := k
                  chan := channel, target := target } } := by
  have hword : ∀ a, R.PHX_CAL_STATUS ≠ a →
      (((d.calAsked k channel target).calReason 1 0).put F.PHX_CAL_STATUS_samples 0).word a = (d.calAsked k channel target).word a :=
    fun a h => (Dev.word_put_ne _ _ h).trans <| (Dev.word_put_ne _ _ h).trans (Dev.word_put_ne _ _ h)
  have hepoch := Dev.get_of_word (f := F.TBS_STATUS_epoch) ((hword _ (by decide)).trans (Dev.calAsked_word (d := d) target (by decide)))
  have hpartner := Dev.get_of_word (f := F.PHX_STATUS_partner_epoch k)
    ((hword _ (by simp only [R.PHX_CAL_STATUS, R.PHX_STATUS]; omega)).trans
      (Dev.calAsked_word (d := d) target (by simp only [R.PHX_CAL_CTRL, R.PHX_STATUS]; omega)))
  have htarget : (((d.calAsked k channel target).calReason 1 0).put F.PHX_CAL_STATUS_samples 0).flag F.PHX_CAL_CTRL_target = target := by
    rw [Dev.flag_of_word (hword _ (by decide)), Dev.flag, (Dev.calAsked_fields hk hc target).2.2.1]
    cases target <;> rfl
  rw [Dev.calBegun, hepoch, hpartner, htarget]

/-! ### The end of a calibration (R323) -/

theorem Dev.calCheck_stands (hk : d.phxState d.phxCal.link = Phx.track) (he : d.get F.TBS_STATUS_epoch = d.phxCal.epoch)
    (hp : d.get (F.PHX_STATUS_partner_epoch d.phxCal.link) = d.phxCal.partnerEpoch) : d.calCheck = d := by
  unfold Dev.calCheck
  split
  · rfl
  · exact (if_neg (not_not.2 hk)).trans (if_neg (by simp [he, hp]))

theorem Dev.calEnd_short (hs : d.get F.PHX_CAL_STATUS_state = 1) (hc : d.calCheck = d)
    (hn : 2 * d.get F.PHX_CAL_STATUS_samples < d.calLen) : d.calEnd = d.calFail 6 := by
  rw [Dev.calEnd, hc, if_neg (not_not.2 hs), if_pos hn]

/-- The mean error of a calibration's samples. -/
def Dev.calMean (d : Dev) : Int := roundDiv d.phxCal.sum (d.get F.PHX_CAL_STATUS_samples)

/-- The constant that takes the mean error away. -/
def Dev.calResult (d : Dev) : Int :=
  let rtt := d.pairInt (R.PHX_RTT_LO d.phxCal.link) (R.PHX_RTT_HI d.phxCal.link)
  if d.phxCal.target then d.sget (F.PHX_ASYM_FIX d.phxCal.link) + 2 * d.calMean
  else d.asym d.phxCal.link + (if rtt = 0 then 0 else roundDiv (2 * d.calMean * 1000000000 * rtt.sign) rtt.natAbs)

theorem Dev.calEnd_reports (hs : d.get F.PHX_CAL_STATUS_state = 1) (hc : d.calCheck = d)
    (hn : d.calLen ≤ 2 * d.get F.PHX_CAL_STATUS_samples) (hw : d.phxCal.hi - d.phxCal.lo ≤ 2 * 65536) : d.calEnd =
    (((d.setPairInt R.PHX_CAL_ERR_LO R.PHX_CAL_ERR_HI d.calMean).put F.PHX_CAL_RESULT (saturate 32 d.calResult)).calReason 2 0).event
      R.PHX_EVENT 0 := by
  rw [Dev.calEnd, hc]
  exact (if_neg (not_not.2 hs)).trans ((if_neg (not_lt.2 hn)).trans (if_neg (not_lt.2 hw)))

/-- Settles O39: samples and reports by their conditions, an ambiguous report as a jump of a link that ranges, a calibration by what was
asked for and by what its samples came to. -/
theorem phaseTransfer : Obligations.PhaseTransfer := by
  refine ⟨fun s hu => ⟨fun k blocks t hs ht => ?_, fun p words bits e hs hn he => ?_, fun p bits line bs ho hr => ⟨?_, fun hv hi => ?_⟩,
    fun p bits line ho => ?_, fun k hk => ?_⟩, fun d k arrival i hj ha => Dev.ambiguous_leaves hj ha,
    fun s => ⟨fun k channel target h => ?_, fun hu hs => ?_⟩⟩
  · intro x g block a f m hj hc
    refine runUp_as hu (Dev.phxSample_steady (d := s.begin.dev) (t := t) hs ht (fun hseen => ?_) hc)
    refine (hj hseen).trans (le_of_eq ?_)
    rw [Dev.sampleDrift]
    push_cast
    rfl
  · subst he
    have hsend := Dev.phxSend_leaves (d := s.begin.dev) (bits := 80 * words + bits) p.isLt hs hn
    refine ⟨fun hfree hfits => ?_, fun hbusy => ?_⟩
    · refine runUp_as hu (congrArg (fun e : Dev => e.disableSyncs.loopBack) (hsend.trans (if_neg ?_)))
      have hgap : (s.begin.dev.reportDue p).fitsGap p (((s.begin.dev.reportDue p).reportBytes p (80 * words + bits)).length +
          (s.begin.dev.reportDue p).secLen p ((s.begin.dev.reportDue p).reportBytes p (80 * words + bits))) = true := hfits
      rw [show s.begin.dev.sendingOn p = none from hfree, hgap]
      decide
    · exact runUp_as hu (congrArg (fun e : Dev => e.disableSyncs.loopBack) (hsend.trans (if_pos (.inl hbusy))))
  · intro hf hl hv hflags hi hstate hlast
    refine runUp_as hu (Dev.phxReceive_accepts (d := s.begin.dev) ((begin_opened p line).trans ho) hr ?_)
    have hearly : s.begin.dev.reportEarly p bits = false := Dev.reportEarly_eq_false hlast
    rw [Dev.reportOk, hf, hl, hearly, show octets bs (14 + 0) 1 = 1 from hv, show octets bs (14 + 1) 1 % 4 = 3 from hflags,
      beq_false_of_ne (show octets bs (14 + 4) 8 ≠ s.begin.dev.identity from hi), bne_iff_ne.2 (show s.begin.dev.phxState p ≠ _ from hstate)]
    rfl
  · exact runUp_as hu (Dev.phxReceive_counts (d := s.begin.dev) ((begin_opened p line).trans ho) hr hv hi)
  · exact runUp_as hu (Dev.phxReceive_dropped (d := s.begin.dev) ((begin_opened p line).trans ho))
  · exact runUp_as hu (Dev.phxStale_track (d := s.begin.dev) hk)
  · obtain ⟨hlink, hchan, htarget, hstart⟩ := Dev.calAsked_fields (d := s.begin.dev.touched R.PHX_CAL_CTRL) k.isLt channel.isLt target
    have hasks := Dev.writeCalCtrl_asks (d := s.begin.dev.touched R.PHX_CAL_CTRL) k.isLt channel.isLt target
    have hrun := runs_phxCalStart k channel target h
    refine ⟨_, hlink, hchan, htarget, hstart, rfl, fun hidle hk80 htrack h80 h91 hmode => ?_, fun hbusy => ?_, fun hidle =>
      ⟨fun hk => ?_, fun hk80 htrack hch => ?_⟩⟩
    · refine runs_congr hrun (hasks.trans ?_)
      refine (if_neg hidle).trans <| (if_neg ?_).trans <| (if_neg ?_).trans (Dev.calBegun_asked k.isLt channel.isLt target)
      · exact not_or.2 ⟨not_le.2 hk80, not_not.2 htrack⟩
      · exact not_or.2 ⟨not_lt.2 h80, not_or.2 ⟨not_lt.2 h91, not_not.2 hmode⟩⟩
    · exact runs_congr hrun (hasks.trans (if_pos hbusy))
    · exact runs_congr hrun (hasks.trans ((if_neg hidle).trans (if_pos hk)))
    · refine runs_congr hrun (hasks.trans ((if_neg hidle).trans ((if_neg ?_).trans (if_pos hch))))
      exact not_or.2 ⟨not_le.2 hk80, not_not.2 htrack⟩
  · intro k htrack hepoch hpartner
    have hcheck : s.begin.dev.calCheck = s.begin.dev := Dev.calCheck_stands htrack hepoch hpartner
    exact ⟨fun hn => runUp_as hu (Dev.calEnd_short (d := s.begin.dev) hs hcheck hn),
      fun hn hw => runUp_as hu (Dev.calEnd_reports (d := s.begin.dev) hs hcheck hn hw)⟩

end Sys2Proof.Machine
end

section
/-! SUPPORT. Laws of the engines' queues and buckets: what a bucket is read from and what leaves that alone, a header that enters its
owner's queue, the headers released with their bucket (R181, R182, R185, R200, R204). -/

namespace Sys2Proof.Machine

variable {d e : Dev} {k b : Nat}

/-! ### What a bucket is read from (R181) -/

/-- What the buckets of a cluster are read from: the buckets listed, the ranks that give default owners, the cluster's configuration. -/
def Dev.bucketBase (k : Nat) (d : Dev) : Sparse Bucket × Sparse (List Nat) × Word :=
  (d.fwd.buckets, d.fwd.ranks, d.word (R.FWD_CL_CFG k))

theorem Dev.bucketBase_of (hf : e.fwd = d.fwd) (hw : e.word (R.FWD_CL_CFG k) = d.word (R.FWD_CL_CFG k)) :
    e.bucketBase k = d.bucketBase k := by
  rw [Dev.bucketBase, hf, hw, Dev.bucketBase]

theorem Dev.bucket_of_base (h : e.bucketBase k = d.bucketBase k) (b : Nat) : e.bucket k b = d.bucket k b := by
  obtain ⟨hb, hr, hw⟩ : e.fwd.buckets = d.fwd.buckets ∧ e.fwd.ranks = d.fwd.ranks ∧
    e.word (R.FWD_CL_CFG k) = d.word (R.FWD_CL_CFG k) := by simpa only [Dev.bucketBase, Prod.mk.injEq] using h
  have hx : e.expressEngine k = d.expressEngine k := Dev.get_of_word hw
  rw [Dev.bucket, Dev.defaultOwner, hb, hr, hx, Dev.bucket, Dev.defaultOwner]

theorem Dev.bucket_setBucket (k b : Nat) (x : Bucket) : (d.setBucket k b x).bucket k b = x := by
  unfold Dev.bucket Dev.setBucket
  by_cases h : x = { owner := d.defaultOwner k b, ownerCl := k }
  · rw [if_pos h, Sparse.get?_del_same]
    exact h.symm
  · rw [if_neg h, Sparse.get?_put_same]
    rfl

theorem Dev.put_base {f : Fld} (h : f.addr ≠ R.FWD_CL_CFG k) (v : Nat) : (d.put f v).bucketBase k = d.bucketBase k :=
  Dev.bucketBase_of rfl (Dev.word_put_ne _ _ h)

/-! ### Counting (R474) -/

@[simp] theorem Dev.count_fwd (i n : Nat) : (d.count i n).fwd = d.fwd :=
  Dev.count_keeps Dev.fwd (fun _ i n => congrArg Dev.fwd (Dev.bump_uncounted i n) :) (fun _ => rfl) i n

theorem Dev.count_base (i n : Nat) : (d.count i n).bucketBase k = d.bucketBase k :=
  Dev.bucketBase_of (Dev.count_fwd i n) <| Dev.count_keeps (fun e => e.word (R.FWD_CL_CFG k))
    (fun _ i n => Dev.bump_word i n (by simp only [R.CNT_EVENT, R.FWD_CL_CFG]; omega) (by simp only [R.CNT_OVF_LAST, R.FWD_CL_CFG]; omega))
    (fun _ => rfl) i n

/-! ### Queues (R185) -/

/-- An engine's queue set changes the queues, and a header the engine's idle count. -/
theorem Dev.setEngQueue_fwd (k e : Nat) (l : List Nat) : (d.setEngQueue k e l).fwd = { d.fwd with
    engQ := if l = [] then Sparse.del d.fwd.engQ (engineKey k e) else Sparse.put d.fwd.engQ (engineKey k e) l
    idle := if l = [] then d.fwd.idle else Sparse.del d.fwd.idle (engineKey k e) } :=
  Dev.when_keeps Dev.fwd rfl _

theorem Dev.engQueue_setEngQueue (k e : Nat) (l : List Nat) : (d.setEngQueue k e l).engQueue k e = l := by
  rw [Dev.engQueue, Dev.setEngQueue_fwd, Sparse.getD]
  by_cases h : l = []
  · rw [if_pos h, Sparse.get?_del_same, h]
    rfl
  · rw [if_neg h, Sparse.get?_put_same]
    rfl

theorem Dev.ungate_base {j : Nat} (hj : j < 8) (x : Nat) : (d.ungate j x).bucketBase k = d.bucketBase k :=
  (Dev.put_base (by simp only [R.PWR_CL_GATED, R.FWD_CL_CFG]; omega) _).trans
    (Dev.put_base (by simp only [R.PWR_ENG_GATED, R.FWD_CL_CFG]; omega) _)

/-- The registers that follow an engine's queue are not those that say which engine is the express one. -/
theorem Dev.setEngQueue_base {j x : Nat} (hj : j < 8) (hx : x < 12) (l : List Nat) :
    (d.setEngQueue j x l).bucketBase k = d.bucketBase k := by
  have hdepth : R.FWD_ENG_DEPTH j (x / 4) ≠ R.FWD_CL_CFG k := by
    simp only [R.FWD_ENG_DEPTH, R.FWD_CL_CFG]
    omega
  have hstatus : R.FWD_ENG_STATUS j ≠ R.FWD_CL_CFG k := by
    simp only [R.FWD_ENG_STATUS, R.FWD_CL_CFG]
    omega
  unfold Dev.setEngQueue
  refine (Dev.when_keeps (Dev.bucketBase k) ?_ _).trans ?_
  · exact (Dev.ungate_base hj x).trans (Dev.put_base hstatus _)
  · rw [Dev.put_base hdepth]
    rfl

theorem Dev.setHeaderFifo_fwd (p : Nat) (l : List Nat) : (d.setHeaderFifo p l).fwd = { d.fwd with
    fifo := if l = [] then Sparse.del d.fwd.fifo p else Sparse.put d.fwd.fifo p l } :=
  Dev.when_keeps Dev.fwd rfl _

theorem Dev.headerFifo_setHeaderFifo (p : Nat) (l : List Nat) : (d.setHeaderFifo p l).headerFifo p = l := by
  rw [Dev.headerFifo, Dev.setHeaderFifo_fwd, Sparse.getD]
  by_cases h : l = []
  · rw [if_pos h, Sparse.get?_del_same, h]
    rfl
  · rw [if_neg h, Sparse.get?_put_same]
    rfl

theorem Dev.setHeaderFifo_base (p : Nat) (l : List Nat) : (d.setHeaderFifo p l).bucketBase k = d.bucketBase k :=
  (Dev.when_keeps (Dev.bucketBase k) (Dev.put_base (by simp only [R.PWR_CL_GATED, R.FWD_CL_CFG]; omega) _) _).trans
    (Dev.put_base (by simp only [R.FWD_PORT_HDR_DEPTH, R.FWD_CL_CFG]; omega) _)

/-! ### A header enters its owner's queue (R182, R200) -/

/-- A bucket of which one more header is in flight. -/
def Bucket.entered (x : Bucket) : Bucket := { x with activity := min 255 (x.activity + 1), inflight := x.inflight + 1 }

/-- The device as a header's bucket and frame have noted its engine, before it stands in the engine's queue. -/
def Dev.headerNoted (i k b : Nat) (d : Dev) : Dev :=
  let x := d.bucket k b
  let d1 := d.setBucket k b x.entered
  (d1.setFrame i { d1.frame i with cluster := x.ownerCl, engine := x.owner }).when (x.ownerCl != k) (Dev.count (4080 + 2 * k + 1) 1)

theorem Dev.enterEngine_eq (i k b : Nat) : d.enterEngine i k b = (d.headerNoted i k b).setEngQueue (d.bucket k b).ownerCl
    (d.bucket k b).owner ((d.headerNoted i k b).engQueue (d.bucket k b).ownerCl (d.bucket k b).owner ++ [i]) := rfl

theorem Dev.headerNoted_queues (i k b : Nat) : (d.headerNoted i k b).fwd.engQ = d.fwd.engQ ∧
    (d.headerNoted i k b).fwd.fifo = d.fwd.fifo :=
  ⟨Dev.when_keeps (fun e => e.fwd.engQ) (congrArg Fwd.engQ (Dev.count_fwd _ _)) _,
    Dev.when_keeps (fun e => e.fwd.fifo) (congrArg Fwd.fifo (Dev.count_fwd _ _)) _⟩

theorem Dev.enterEngine_engQueue (i k b : Nat) : (d.enterEngine i k b).engQueue (d.bucket k b).ownerCl (d.bucket k b).owner =
    d.engQueue (d.bucket k b).ownerCl (d.bucket k b).owner ++ [i] := by
  rw [Dev.enterEngine_eq, Dev.engQueue_setEngQueue, Dev.engQueue, (Dev.headerNoted_queues i k b).1, Dev.engQueue]

theorem Dev.enterEngine_headerFifo (i k b p : Nat) : (d.enterEngine i k b).headerFifo p = d.headerFifo p := by
  rw [Dev.headerFifo, Dev.enterEngine_eq, Dev.setEngQueue_fwd, (Dev.headerNoted_queues i k b).2, Dev.headerFifo]

theorem Dev.enterEngine_bucket (i : Nat) (hc : (d.bucket k b).ownerCl < 8) (ho : (d.bucket k b).owner < 12) :
    (d.enterEngine i k b).bucket k b = (d.bucket k b).entered := by
  have hnoted : (d.headerNoted i k b).bucketBase k = (d.setBucket k b (d.bucket k b).entered).bucketBase k :=
    Dev.when_keeps (Dev.bucketBase k) (Dev.count_base _ _) _
  rw [Dev.enterEngine_eq, Dev.bucket_of_base ((Dev.setEngQueue_base hc ho _).trans hnoted), Dev.bucket_setBucket]

/-! ### The headers released with their bucket (R204) -/

/-- Where a bucket stands: its owner, the owner's cluster, and whether it moves. -/
def Bucket.place (x : Bucket) : Nat × Nat × Bool := (x.owner, x.ownerCl, x.moving)

theorem Dev.enterEngines_place (l : List Nat) (hc : (d.bucket k b).ownerCl < 8) (ho : (d.bucket k b).owner < 12) :
    ((Dev.each l (fun i => Dev.enterEngine i k b) d).bucket k b).place = (d.bucket k b).place := by
  induction l generalizing d with
  | nil => rfl
  | cons i l ih =>
    have hx := Dev.enterEngine_bucket i hc ho
    rw [Dev.each_cons, ih (by rw [hx]; exact hc) (by rw [hx]; exact ho), hx]
    rfl

theorem Dev.releaseWaiting_place (hc : (d.bucket k b).ownerCl < 8) (ho : (d.bucket k b).owner < 12) :
    ((d.releaseWaiting k b).bucket k b).place = (d.bucket k b).place := by
  simp only [Dev.releaseWaiting]
  split
  · rfl
  · exact Dev.enterEngines_place (d := { d with fwd := { d.fwd with waiting := _ } }) _ hc ho

theorem Dev.waitingFor_congr (hw : e.fwd.waiting = d.fwd.waiting) (hf : e.fwd.frames = d.fwd.frames) (k b : Nat) :
    e.waitingFor k b = d.waitingFor k b := by
  simp only [Dev.waitingFor, Dev.frame, Dev.frame?, hw, hf]

theorem Dev.releaseWaiting_none (h : d.waitingFor k b = []) : d.releaseWaiting k b = d := by
  simp only [Dev.releaseWaiting, h, List.take_nil, List.contains_nil, Bool.not_false, List.filter_true, Dev.each_nil, ite_self]

/-- The count of lent and held buckets changes FWD_CL_BORROW_k alone. -/
theorem Dev.syncBorrow_keeps {β : Type} (g : Dev → β) (hp : ∀ (e : Dev) f v j, f.addr = R.FWD_CL_BORROW j → g (e.put f v) = g e) :
    g d.syncBorrow = g d := by
  unfold Dev.syncBorrow
  exact Dev.each_keeps g _ (fun j _ => (hp _ _ _ j rfl).trans (hp _ _ _ j rfl)) _ _

theorem Dev.syncBorrow_fwd : d.syncBorrow.fwd = d.fwd := Dev.syncBorrow_keeps Dev.fwd fun _ _ _ _ _ => rfl

theorem Dev.syncBorrow_base : d.syncBorrow.bucketBase k = d.bucketBase k :=
  Dev.syncBorrow_keeps (Dev.bucketBase k) fun _ _ _ j hj =>
    Dev.put_base (by simp only [hj, R.FWD_CL_BORROW, R.FWD_CL_CFG]; omega) _

end Sys2Proof.Machine
end

section
/-! SUPPORT. Laws of commands that write one field of a register whose write starts an operation: the word written is the register's
settable fields as they stand, and the field. -/

namespace Sys2Proof.Machine

variable {s : State} {d : Dev}

/-- The word that a command writes to set one field: the settable fields as they stand, and the field. -/
def Dev.fieldWord (f : Fld) (v : Nat) (d : Dev) : Word := setBits (d.settableBits f.addr) f.lsb f.width v

theorem Dev.fieldWord_bit {f : Fld} {v i : Nat} {m : Word} (hs : d.settableBits f.addr = d.word f.addr &&& m) (hi : i < 32) :
    (d.fieldWord f v).getLsbD i =
      if f.lsb ≤ i ∧ i < f.lsb + f.width then v.testBit (i - f.lsb) else (d.word f.addr).getLsbD i && m.getLsbD i := by
  rw [Dev.fieldWord, getLsbD_setBits, hs, BitVec.getLsbD_and]
  exact if_congr (and_iff_right hi) rfl rfl

/-- Such a word names no reserved bit, where the settable fields and the field written are named. -/
theorem Dev.fieldWord_named {f : Fld} {m : Word} (hs : d.settableBits f.addr = d.word f.addr &&& m)
    (hm : (m ||| fieldMask f.lsb f.width) &&& ~~~(namedAt f.addr) = 0#32) (v : Nat) :
    d.fieldWord f v &&& ~~~(namedAt f.addr) = 0#32 := by
  refine BitVec.eq_of_getLsbD_eq fun i hi => ?_
  have hbit : ((m.getLsbD i || (fieldMask f.lsb f.width).getLsbD i) && !(namedAt f.addr).getLsbD i) = false := by
    simpa [hi] using congrArg (fun x : Word => x.getLsbD i) hm
  rw [getLsbD_fieldMask, decide_eq_true hi, Bool.true_and] at hbit
  rw [BitVec.getLsbD_and, BitVec.getLsbD_not, Dev.fieldWord_bit hs hi, BitVec.getLsbD_zero, decide_eq_true hi, Bool.true_and]
  by_cases h : f.lsb ≤ i ∧ i < f.lsb + f.width
  · rw [if_pos h]
    simp_all
  · rw [if_neg h]
    cases hmi : m.getLsbD i <;> simp_all

/-- A command that writes one field of a register whose write starts an operation runs that operation on such a word. -/
theorem runHost_fieldStarts {f : Fld} {b i : Nat} {m : Word} {v : Nat} {g : Dev → Dev} (h : s.Reaches f.addr)
    (hc : startsOp f.addr b i = true) (hs : s.begin.dev.settableBits f.addr = s.begin.dev.word f.addr &&& m)
    (hm : (m ||| fieldMask f.lsb f.width) &&& ~~~(namedAt f.addr) = 0#32)
    (hg : ∀ d : Dev, d.special b i (s.begin.dev.fieldWord f v) = some g) :
    runHost (State.writeField f v) s = .next (s.begin.onDev (fun d => g (d.touched f.addr))).commit :=
  (runHost_field f v h.1).trans (runHost_startsNamed h hc (Dev.fieldWord_named hs hm v) hg)

end Sys2Proof.Machine
end

section
/-! PROOFS. The family of the forwarding engines, retirement: the retire bits of an engine, one at a time (R205–R207). -/

namespace Sys2Proof.Machine

variable {s : State} {d : Dev} {k : Nat}

/-! ### Changes made for one element of a list -/

theorem Dev.each_append {α : Type} (l m : List α) (f : α → Dev → Dev) : Dev.each (l ++ m) f d = Dev.each m f (Dev.each l f d) :=
  List.foldl_append

theorem Dev.each_idle {α : Type} {f : α → Dev → Dev} {l : List α} (h : ∀ x ∈ l, f x d = d) : Dev.each l f d = d := by
  induction l with
  | nil => rfl
  | cons x l ih =>
    obtain ⟨hx, hl⟩ := List.forall_mem_cons.1 h
    rw [Dev.each_cons, hx, ih hl]

/-- Where the change of every other element is none, before and after that of `e`, only that one is made. -/
theorem Dev.each_single {α : Type} {f : α → Dev → Dev} {l : List α} {e : α} (hn : l.Nodup) (he : e ∈ l)
    (h1 : ∀ x ∈ l, x ≠ e → f x d = d) (h2 : ∀ x ∈ l, x ≠ e → f x (f e d) = f e d) : Dev.each l f d = f e d := by
  obtain ⟨a, b, rfl⟩ := List.append_of_mem he
  have hout : ∀ x ∈ a ++ b, x ≠ e := fun x hx hxe => (List.nodup_cons.1 (List.nodup_middle.1 hn)).1 (hxe ▸ hx)
  have ha : Dev.each a f d = d := Dev.each_idle fun x hx => h1 x (by simp [hx]) (hout x (by simp [hx]))
  have hb : Dev.each b f (f e d) = f e d := Dev.each_idle fun x hx => h2 x (by simp [hx]) (hout x (by simp [hx]))
  rw [Dev.each_append, ha, Dev.each_cons, hb]

/-! ### The retire bits (R212) -/

/-- FWD_ENG_CTRL_k in the register table (R212). -/
def engCtrlRow : RegRow := ⟨0x3008, 8, 256, 1, 0, .cluster, [⟨0, 12, .rw, .num 0, .i, .w⟩]⟩

theorem rowAt_engCtrl (k : Fin 8) : rowAt (R.FWD_ENG_CTRL k) = some (engCtrlRow, (k.val, 0)) := by revert k; decide

theorem namedAt_engCtrl (k : Fin 8) : namedAt (R.FWD_ENG_CTRL k) = fieldMask 0 12 := by revert k; decide

theorem startsOp_engCtrl (k : Fin 8) : startsOp (R.FWD_ENG_CTRL k) (R.FWD_ENG_CTRL 0) k = true := by revert k; decide

theorem Dev.settableBits_engCtrl (k : Fin 8) (d : Dev) :
    d.settableBits (R.FWD_ENG_CTRL k) = d.word (R.FWD_ENG_CTRL k) &&& fieldMask 0 12 :=
  Dev.settableBits_of (rowAt_engCtrl k) (by decide)

theorem retireBit_named (k : Fin 8) (e : Fin 12) :
    (fieldMask 0 12 ||| fieldMask e 1) &&& ~~~(namedAt (R.FWD_ENG_CTRL k)) = 0#32 := by
  rw [namedAt_engCtrl]
  revert e
  decide

/-- One retire bit written: a change of it starts or ends a retirement (R205–R207). -/
def Dev.writeRetireBit (k e : Nat) (on : Bool) (d : Dev) : Dev :=
  if on && !d.bitAt (R.FWD_ENG_CTRL k) e then d.retireStart k e
  else if d.bitAt (R.FWD_ENG_CTRL k) e && !on then d.unretire k e
  else d

theorem Dev.writeEngCtrl_eq (w : Word) : d.writeEngCtrl k w = Dev.each (List.range 12) (fun e => Dev.writeRetireBit k e (w.getLsbD e)) d :=
  rfl

theorem Dev.writeRetireBit_same (e : Nat) {on : Bool} (h : d.bitAt (R.FWD_ENG_CTRL k) e = on) : d.writeRetireBit k e on = d := by
  rw [Dev.writeRetireBit, h]
  cases on <;> rfl

theorem Dev.writeRetireBit_sets {e : Nat} (h : d.bitAt (R.FWD_ENG_CTRL k) e = false) : d.writeRetireBit k e true = d.retireStart k e := by
  rw [Dev.writeRetireBit, h]
  rfl

theorem Dev.writeRetireBit_clears {e : Nat} (h : d.bitAt (R.FWD_ENG_CTRL k) e = true) : d.writeRetireBit k e false = d.unretire k e := by
  rw [Dev.writeRetireBit, h]
  rfl

/-! ### A retirement starts, is refused, or ends (R205, R206) -/

theorem Dev.retireStart_refused {e : Nat} (h : e = d.expressEngine k ∨ ((d.servants k).filter (· != e) = [] ∧ d.inService k e)) :
    d.retireStart k e = (d.setBit (R.FWD_ENG_CTRL k) e false).event R.FWD_EVENT 2 := if_pos h

/-- A retirement that starts, or its refusal, leaves the other retire bits. -/
theorem Dev.retireStart_bitAt {e i : Nat} (hi : e ≠ i) : (d.retireStart k e).bitAt (R.FWD_ENG_CTRL k) i = d.bitAt (R.FWD_ENG_CTRL k) i := by
  simp only [Dev.retireStart]
  split
  · rw [Dev.event_eq, Dev.bitAt_put_ne _ _ (by simp only [R.FWD_EVENT, R.FWD_ENG_CTRL]; omega), Dev.bitAt_setBit_other _ hi]
  · split
    · rfl
    · refine (Dev.each_keeps (fun x => x.bitAt (R.FWD_ENG_CTRL k) i) _ (fun _ _ => ?_) _ _).trans ?_
      · rfl
      · exact Dev.bitAt_setBit_other true hi

theorem Dev.unretire_fields {e : Nat} (he : e < 12) : (d.unretire k e).bitAt (R.FWD_ENG_CTRL k) e = false ∧
    (d.unretire k e).retired k e = false ∧ (d.unretire k e).fwd = { d.fwd with retiring := d.fwd.retiring.erase (engineKey k e) } := by
  refine ⟨?_, ?_, rfl⟩
  · rw [Dev.unretire, Dev.setBit_eq, Dev.bitAt_put_ne _ _ (by simp only [R.FWD_ENG_STATUS, R.FWD_ENG_CTRL]; omega),
      Dev.bitAt_setBit_same _ (by omega)]
  · rw [Dev.retired, Dev.hasBit_get _ he, Nat.zero_add, Dev.unretire, Dev.bitAt_setBit_same _ (by omega)]

/-- An engine back in service leaves the other retire bits. -/
theorem Dev.unretire_bitAt {e i : Nat} (hi : e ≠ i) : (d.unretire k e).bitAt (R.FWD_ENG_CTRL k) i = d.bitAt (R.FWD_ENG_CTRL k) i := by
  rw [Dev.unretire, Dev.setBit_eq, Dev.bitAt_put_ne _ _ (by simp only [R.FWD_ENG_STATUS, R.FWD_ENG_CTRL]; omega),
    Dev.bitAt_setBit_other _ hi]
  rfl

theorem Dev.writeRetireBit_bitAt {e i : Nat} (hi : e ≠ i) (on : Bool) :
    (d.writeRetireBit k e on).bitAt (R.FWD_ENG_CTRL k) i = d.bitAt (R.FWD_ENG_CTRL k) i := by
  rw [Dev.writeRetireBit]
  split
  · exact Dev.retireStart_bitAt hi
  · split
    · exact Dev.unretire_bitAt hi
    · rfl

/-! ### The commands (R205–R207) -/

/-- A write of FWD_ENG_CTRL_k that leaves every other retire bit as it stands writes that of one engine alone. -/
theorem Dev.writeEngCtrl_one {w : Word} {e : Nat} (he : e < 12) (h : ∀ i < 12, i ≠ e → w.getLsbD i = d.bitAt (R.FWD_ENG_CTRL k) i) :
    d.writeEngCtrl k w = d.writeRetireBit k e (w.getLsbD e) := by
  rw [Dev.writeEngCtrl_eq]
  refine Dev.each_single (f := fun x => Dev.writeRetireBit k x (w.getLsbD x)) List.nodup_range (List.mem_range.2 he)
    (fun i hi hne => ?_) (fun i hi hne => ?_)
  · exact Dev.writeRetireBit_same i (h i (List.mem_range.1 hi) hne).symm
  · refine Dev.writeRetireBit_same i ?_
    rw [Dev.writeRetireBit_bitAt hne.symm, h i (List.mem_range.1 hi) hne]

/-- The field of one retire bit (R212). -/
abbrev retireFld (k e : Nat) : Fld := ⟨R.FWD_ENG_CTRL k, e, 1⟩

/-- The word that a command of one retire bit writes: that bit, and the other retire bits as they stand. -/
theorem retireWord_bit (k : Fin 8) (e : Fin 12) (on : Bool) {i : Nat} (hi : i < 12) :
    (d.fieldWord (retireFld k e) (bit on)).getLsbD i = if i = e then on else d.bitAt (R.FWD_ENG_CTRL k) i := by
  have hi32 : i < 32 := by omega
  rw [Dev.fieldWord_bit (Dev.settableBits_engCtrl k _) hi32]
  by_cases h : i = e.val
  · subst h
    rw [if_pos ⟨le_rfl, Nat.lt_succ_self _⟩, if_pos rfl, Nat.sub_self]
    cases on <;> rfl
  · rw [if_neg (show ¬ (e.val ≤ i ∧ i < e.val + 1) by omega), if_neg h, getLsbD_fieldMask, decide_eq_true hi32,
      decide_eq_true (Nat.zero_le i), decide_eq_true (show i < 0 + 12 by omega)]
    exact Bool.and_true _

theorem runHost_engCtrl {k : Fin 8} (e : Fin 12) (v : Nat) (h : s.Reaches (R.FWD_ENG_CTRL k)) :
    runHost (State.writeField (retireFld k e) v) s = .next (s.begin.onDev (fun d =>
      (d.touched (R.FWD_ENG_CTRL k)).writeEngCtrl k (s.begin.dev.fieldWord (retireFld k e) v))).commit :=
  runHost_fieldStarts h (startsOp_engCtrl k) (Dev.settableBits_engCtrl k _) (retireBit_named k e) fun _ => rfl

theorem runHost_retireBit {k : Fin 8} (e : Fin 12) (on : Bool) (h : s.Reaches (R.FWD_ENG_CTRL k)) :
    runHost (State.writeField (retireFld k e) (bit on)) s =
      .next (s.begin.onDev (fun d => (d.touched (R.FWD_ENG_CTRL k)).writeRetireBit k e on)).commit := by
  have hone := Dev.writeEngCtrl_one (d := s.begin.dev.touched (R.FWD_ENG_CTRL k)) (k := k) e.isLt fun i hi hne =>
    (retireWord_bit (d := s.begin.dev) k e on hi).trans (if_neg hne)
  rw [retireWord_bit k e on e.isLt, if_pos rfl] at hone
  rw [runHost_engCtrl e _ h, State.onDev_congr (g := fun d => (d.touched _).writeRetireBit k e on) hone]

theorem runs_engineRetire {k : Fin 8} {e : Fin 12} (h : s.Reaches (R.FWD_ENG_CTRL k)) : Runs (.engineRetire k e) s (fun d =>
    (d.touched (R.FWD_ENG_CTRL k)).writeRetireBit k e true) := runHost_retireBit e true h

theorem runs_engineUnretire {k : Fin 8} {e : Fin 12} (h : s.Reaches (R.FWD_ENG_CTRL k)) : Runs (.engineUnretire k e) s (fun d =>
    (d.touched (R.FWD_ENG_CTRL k)).writeRetireBit k e false) := runHost_retireBit e false h

end Sys2Proof.Machine
end

section
/-! PROOFS. The family of the forwarding engines, moving buckets: who takes one over, where it stands then (R181, R204, R205), and what
is refused an engine that may not retire (R206). -/

namespace Sys2Proof.Machine

variable {s : State} {d : Dev} {k b : Nat}

/-! ### The new owner (R181, R205) -/

theorem Dev.lt_of_mem_servants {x : Nat} (h : x ∈ d.servants k) : x < 12 := List.mem_range.1 (List.mem_filter.1 h).1

theorem nthD_mem {α : Type} (l : List α) (i : Nat) (x : α) : nthD l i x ∈ l ∨ nthD l i x = x := by
  rw [nthD]
  cases h : l[i]? with
  | none => exact .inr rfl
  | some y => exact .inl (List.mem_of_getElem? h)

theorem Dev.homeOwner_lt (k b : Nat) : d.homeOwner k b < 12 := by
  rcases nthD_mem (d.servants k) (b % max 1 (d.servants k).length) 0 with h | h
  · exact Dev.lt_of_mem_servants h
  · rw [Dev.homeOwner, rankOwner, h]
    decide

theorem Dev.leastLoaded_lt (k : Nat) : d.leastLoaded k < 12 := by
  simp only [Dev.leastLoaded]
  cases h : (((d.servants k).map (fun e => (d.ownedCount k e, e))).foldl (fun acc x => insertBy (fun a b => a.1 < b.1) x acc) []).head? with
  | none => decide
  | some y =>
    have hy := (insertAll_perm _ _ []).mem_iff.1 (List.mem_of_head? h)
    rw [List.append_nil] at hy
    obtain ⟨x, hx, rfl⟩ := List.mem_map.1 hy
    exact Dev.lt_of_mem_servants hx

/-! ### A bucket moves (R204, R205) -/

/-- A moving bucket as it comes to its new owner. -/
def Dev.movedBucket (k b : Nat) (d : Dev) : Bucket := { d.bucket k b with
  owner := if (d.bucket k b).away then d.leastLoaded k else d.homeOwner k b, ownerCl := k, moving := false, away := false }

theorem Dev.movedBucket_owner_lt (k b : Nat) : (d.movedBucket k b).owner < 12 := by
  rw [Dev.movedBucket]
  split
  · exact Dev.leastLoaded_lt k
  · exact Dev.homeOwner_lt k b

theorem Dev.moveBucket_moves (hm : (d.bucket k b).moving = true) (hi : (d.bucket k b).inflight = 0) : d.moveBucket k b =
    ((((d.setBucket k b (d.movedBucket k b)).releaseWaiting k b).syncBorrow).recallEnds k) := by
  rw [Dev.moveBucket, if_neg]
  · rfl
  · rw [hm, hi]
    decide

theorem Dev.recallEnds_base (j : Nat) : (d.recallEnds j).bucketBase k = d.bucketBase k :=
  Dev.when_keeps (Dev.bucketBase k) (Dev.put_base (by simp only [R.FWD_STEAL_CFG, R.FWD_CL_CFG]; omega) _) _

theorem Dev.moveBucket_place (hk : k < 8) (hm : (d.bucket k b).moving = true) (hi : (d.bucket k b).inflight = 0) :
    ((d.moveBucket k b).bucket k b).place = (d.movedBucket k b).place := by
  have hset := Dev.bucket_setBucket (d := d) k b (d.movedBucket k b)
  rw [Dev.moveBucket_moves hm hi, Dev.bucket_of_base ((Dev.recallEnds_base k).trans Dev.syncBorrow_base), Dev.releaseWaiting_place, hset]
  · rw [hset]
    exact hk
  · rw [hset]
    exact Dev.movedBucket_owner_lt k b

/-! ### A retirement refused (R206) -/

/-- A bit written as it stands leaves every register as it was. -/
theorem Dev.setBit_idle {a i : Nat} {v : Bool} (h : d.bitAt a i = v) (x : Nat) : (d.setBit a i v).word x = d.word x := by
  by_cases hx : a = x
  · subst hx
    rw [Dev.setBit_eq, Dev.put, Dev.word_setWord_same]
    refine BitVec.eq_of_getLsbD_eq fun j hj => ?_
    rw [getLsbD_setBits]
    split
    · next hji =>
      obtain ⟨-, hle, hlt⟩ := hji
      obtain rfl : i = j := Nat.le_antisymm hle (Nat.lt_succ_iff.1 hlt)
      rw [Nat.sub_self, ← h, Dev.bitAt]
      cases (d.word a).getLsbD i <;> rfl
    · rfl
  · exact Dev.word_put_ne _ _ hx

/-- Where no other engine is in service, none is left to serve beside this one. -/
theorem Dev.servants_without {e : Nat} (h : ∀ x ∈ d.servants k, x = e) : (d.servants k).filter (· != e) = [] :=
  List.filter_eq_nil_iff.2 fun x hx => by simp [h x hx]

/-- A refusal sets FWD_EVENT.retire_refused and changes nothing else. -/
theorem Dev.retireStart_leaves {e : Nat} (hb : d.bitAt (R.FWD_ENG_CTRL k) e = false)
    (h : e = d.expressEngine k ∨ ((d.servants k).filter (· != e) = [] ∧ d.inService k e)) :
    (d.retireStart k e).bitAt (R.FWD_ENG_CTRL k) e = false ∧ (d.retireStart k e).bitAt R.FWD_EVENT 2 = true ∧
      { d.retireStart k e with csr := d.csr } = d ∧ ∀ a, a ≠ R.FWD_EVENT → (d.retireStart k e).word a = d.word a := by
  have hword : ∀ a, a ≠ R.FWD_EVENT → (d.retireStart k e).word a = d.word a := fun a ha => by
    rw [Dev.retireStart_refused h, Dev.event_eq, Dev.word_put_ne _ _ (Ne.symm ha), Dev.setBit_idle hb]
  refine ⟨?_, ?_, ?_, hword⟩
  · rw [Dev.bitAt, hword _ (by simp only [R.FWD_EVENT, R.FWD_ENG_CTRL]; omega)]
    exact hb
  · rw [Dev.retireStart_refused h]
    exact Dev.bitAt_put_same _ (by decide)
  · rw [Dev.retireStart_refused h]
    rfl

/-- Settles O32: the write of a retire bit is one change of its engine, a bucket that moves comes to its new owner and stays there. -/
theorem retireRefused : Obligations.RetireRefused := by
  refine ⟨fun s k e h hbit _ => ?_, fun s k b hu hm hi => ?_, fun s k e h hbit hlast => ?_⟩
  · obtain ⟨hctrl, hstatus, hfwd⟩ := Dev.unretire_fields (d := s.begin.dev.touched (R.FWD_ENG_CTRL k)) (k := k) e.isLt
    refine ⟨_, runs_congr (runs_engineUnretire h) (Dev.writeRetireBit_clears ?_), hctrl, hstatus, ?_, ?_⟩
    · exact hbit
    · rw [hfwd]
      rfl
    · rw [hfwd]
      rfl
  · have hplace := Dev.moveBucket_place (d := s.begin.dev) k.isLt hm hi
    simp only [Bucket.place, Prod.mk.injEq] at hplace
    obtain ⟨howner, hcl, hmoving⟩ := hplace
    exact ⟨s.begin.dev.moveBucket k b.toNat, runUp_as hu rfl, hmoving, hcl, howner⟩
  · have hstay : e.val = (s.begin.dev.touched (R.FWD_ENG_CTRL k)).expressEngine k ∨
        (((s.begin.dev.touched (R.FWD_ENG_CTRL k)).servants k).filter (· != e.val) = [] ∧
          (s.begin.dev.touched (R.FWD_ENG_CTRL k)).inService k e) :=
      hlast.imp id fun ⟨hin, hall⟩ => ⟨Dev.servants_without hall, hin⟩
    obtain ⟨hctrl, hevent, hrest, hword⟩ := Dev.retireStart_leaves (d := s.begin.dev.touched (R.FWD_ENG_CTRL k)) hbit hstay
    exact ⟨_, runs_congr (runs_engineRetire h) (Dev.writeRetireBit_sets hbit), hctrl, hevent, (congrArg Dev.fwd hrest :),
      (congrArg Dev.mem hrest :), (congrArg Dev.raised hrest :), hword⟩

end Sys2Proof.Machine
end

section
/-! SUPPORT. Laws of the sparse tables: a table whose pairs are changed or left out one by one. -/

namespace Sys2Proof.Machine

variable {α : Type}

theorem Sparse.get?_of_not_mem {m : Sparse α} {k : Nat} (h : k ∉ m.map (·.1)) : Sparse.get? m k = none := by
  induction m with
  | nil => rfl
  | cons p m ih =>
    obtain ⟨hp, hm⟩ := not_or.1 (mt List.mem_cons.2 h)
    rw [Sparse.get?, if_neg (Ne.symm hp), ih hm]

/-- A table of distinct keys whose pairs are changed, under their keys, or left out reads as its pair at the key is changed. -/
theorem Sparse.get?_filterMap {m : Sparse α} {f : Nat × α → Option (Nat × α)} (hf : ∀ x y, f x = some y → y.1 = x.1)
    (hn : (m.map (·.1)).Nodup) (k : Nat) :
    Sparse.get? (m.filterMap f) k = ((Sparse.get? m k).bind fun v => f (k, v)).map (·.2) := by
  induction m with
  | nil => rfl
  | cons p m ih =>
    obtain ⟨j, v⟩ := p
    obtain ⟨hj, hm⟩ := List.nodup_cons.1 hn
    have hrest := ih hm
    by_cases hjk : j = k
    · subst hjk
      rw [Sparse.get?_of_not_mem hj] at hrest
      rw [Sparse.get?, if_pos rfl]
      cases hv : f (j, v) with
      | none => simp [hv, hrest]
      | some y => simp [hv, Sparse.get?, hf _ _ hv]
    · rw [Sparse.get?, if_neg hjk, ← hrest]
      cases hv : f (j, v) with
      | none => simp [hv]
      | some y => simp [hv, Sparse.get?, hf _ _ hv, hjk]

end Sys2Proof.Machine
end

section
/-! PROOFS. The family of the forwarding engines, buckets: activity, recall, steals, moves and retirement (R200–R207). -/

namespace Sys2Proof.Machine

variable {s : State} {d : Dev}

/-! ### Activity (R200) -/

/-- A bucket as its activity is halved. -/
def Bucket.halved (x : Bucket) : Bucket := { x with activity := x.activity / 2 }

/-- An entry of the buckets as its bucket's activity is halved, left out where the bucket is then as one that no entry lists. -/
def Dev.halvedEntry (d : Dev) (x : Nat × Bucket) : Option (Nat × Bucket) :=
  if x.2.halved = { owner := d.defaultOwner (x.1 / 4096) (x.1 % 4096), ownerCl := x.1 / 4096 } then none else some (x.1, x.2.halved)

theorem Dev.halveActivity_buckets : d.halveActivity.fwd.buckets = d.fwd.buckets.filterMap d.halvedEntry := rfl

theorem Dev.halvedEntry_key (x y : Nat × Bucket) (h : d.halvedEntry x = some y) : y.1 = x.1 := by
  rw [Dev.halvedEntry] at h
  split at h
  · cases h
  · cases h
    rfl

theorem Dev.halvedEntry_of {j b : Nat} (hb : b < 4096) (v : Bucket) : d.halvedEntry (bucketKey j b, v) =
    if v.halved = { owner := d.defaultOwner j b, ownerCl := j } then none else some (bucketKey j b, v.halved) := by
  have hcl : bucketKey j b / 4096 = j := by
    rw [bucketKey]
    omega
  have hnum : bucketKey j b % 4096 = b := by
    rw [bucketKey]
    omega
  rw [Dev.halvedEntry, hcl, hnum]

/-- Each bucket's activity halves, that of the buckets that no entry lists, 0, included. -/
theorem Dev.bucket_halveActivity (j : Nat) {b : Nat} (hb : b < 4096) (hn : (d.fwd.buckets.map (·.1)).Nodup) :
    d.halveActivity.bucket j b = (d.bucket j b).halved := by
  rw [Dev.bucket, Dev.halveActivity_buckets, Sparse.get?_filterMap Dev.halvedEntry_key hn, Dev.bucket]
  cases Sparse.get? d.fwd.buckets (bucketKey j b) with
  | none =>
    rw [Option.bind_none, Option.map_none, Option.getD_none, Option.getD_none, Bucket.halved, Nat.zero_div]
    rfl
  | some v =>
    rw [Option.bind_some, Dev.halvedEntry_of hb]
    split
    · next h => exact h.symm
    · rfl

/-! ### Recall (R204) -/

/-- FWD_STEAL_CFG_k in the register table (R212). -/
def stealCfgRow : RegRow := ⟨0x3004, 8, 256, 1, 0, .cluster, [⟨0, 1, .rw, .num 1, .i, .w⟩, ⟨1, 1, .rw, .num 0, .i, .w⟩,
  ⟨8, 8, .rw, .num 0x14, .i, .w⟩, ⟨16, 5, .rw, .num 4, .i, .w⟩, ⟨28, 1, .w1s, .num 0, .i, .n⟩]⟩

theorem rowAt_stealCfg (k : Fin 8) : rowAt (R.FWD_STEAL_CFG k) = some (stealCfgRow, (k.val, 0)) := by revert k; decide

theorem startsOp_stealCfg (k : Fin 8) : startsOp (R.FWD_STEAL_CFG k) (R.FWD_STEAL_CFG 0) k = true := by revert k; decide

theorem recallBit_named (k : Fin 8) : (0x001FFF03#32 ||| fieldMask 28 1) &&& ~~~(namedAt (R.FWD_STEAL_CFG k)) = 0#32 := by
  revert k
  decide

theorem Dev.settableBits_stealCfg (k : Fin 8) (d : Dev) :
    d.settableBits (R.FWD_STEAL_CFG k) = d.word (R.FWD_STEAL_CFG k) &&& 0x001FFF03#32 :=
  Dev.settableBits_of (rowAt_stealCfg k) (by decide)

theorem runHost_recall {k : Fin 8} (h : s.Reaches (R.FWD_STEAL_CFG k)) :
    runHost (State.writeField (F.FWD_STEAL_CFG_recall k) 1) s = .next (s.begin.onDev (fun d =>
      (d.touched (R.FWD_STEAL_CFG k)).writeStealCfg k (s.begin.dev.fieldWord (F.FWD_STEAL_CFG_recall k) 1))).commit :=
  runHost_fieldStarts h (startsOp_stealCfg k) (Dev.settableBits_stealCfg k _) (recallBit_named k) fun _ => rfl

/-- The fields of FWD_STEAL_CFG_k but recall, as a write sets them. -/
def Dev.stealFields (k : Nat) (w : Word) (d : Dev) : Dev :=
  (((d.put (F.FWD_STEAL_CFG_enable k) (bits w 0 1)).put (F.FWD_STEAL_CFG_adj k) (bits w 1 1)).put
    (F.FWD_STEAL_CFG_idle_cycles k) (bits w 8 8)).put (F.FWD_STEAL_CFG_min_depth k) (bits w 16 5)

theorem Dev.writeStealCfg_recalls {k : Nat} {w : Word} (h : w.getLsbD 28 = true) : d.writeStealCfg k w = (d.stealFields k w).recall k :=
  if_pos h

theorem recallWord_bit (k : Fin 8) : (d.fieldWord (F.FWD_STEAL_CFG_recall k) 1).getLsbD 28 = true := by
  rw [Dev.fieldWord_bit (Dev.settableBits_stealCfg k _) (by decide), if_pos ⟨le_rfl, Nat.lt_succ_self _⟩, Nat.sub_self]
  rfl

theorem Dev.recall_flag (k : Nat) : (d.recall k).flag (F.FWD_STEAL_CFG_recall k) = true := by
  rw [Dev.flag_congr (show (d.recall k).csr = (d.put (F.FWD_STEAL_CFG_recall k) 1).csr from rfl)]
  exact Dev.flag_put_one rfl (show 28 + 1 ≤ 32 by decide)

/-! ### What a steal unit selects (R200) -/

theorem Dev.candidateBucket_fits {k : Nat} {v : Nat × Nat × Nat} {x : Nat × Nat} (h : d.candidateBucket k v = some x) :
    (d.bucket x.1 x.2).inflight = 0 ∧ (d.bucket x.1 x.2).moving = false ∧ 0 < (d.bucket x.1 x.2).activity := by
  simp only [Dev.candidateBucket] at h
  have hx := (insertAll_perm _ _ []).mem_iff.1 (List.mem_of_head? h)
  rw [List.append_nil] at hx
  have hfits := (List.mem_filter.1 hx).2
  simp only [Bool.and_eq_true, beq_iff_eq, decide_eq_true_eq, Bool.not_eq_true'] at hfits
  obtain ⟨⟨⟨hin, hact⟩, hmov⟩, -⟩ := hfits
  exact ⟨hin, hmov, hact⟩

theorem Dev.stealEval_selects {k : Nat} {x : Theft} (h : d.stealEval k = some x) : x.cluster = k ∧ d.thief k = some x.thief ∧
    ∃ v, d.candidateBucket k v = some (x.home, x.bucket) := by
  rw [Dev.stealEval] at h
  cases ht : d.thief k with
  | none => rw [ht] at h; exact absurd h (by simp)
  | some t =>
    rw [ht] at h
    obtain ⟨y, hy, rfl⟩ := Option.map_eq_some_iff.1 h
    obtain ⟨v, -, hv⟩ := List.exists_of_findSome?_eq_some hy
    exact ⟨rfl, rfl, v, hv⟩

/-! ### The steals that commit (R201) -/

/-- Of some steals selected, the one that commits for a home cluster. -/
def homeWinner (l : List Theft) (j : Nat) : Option Theft :=
  let mine := l.filter (fun x => x.home == j)
  match mine.find? (fun x => x.cluster == j) with
  | some x => some x
  | none => mine.head?

theorem winners_eq (l : List Theft) : winners l = (List.range 8).filterMap (homeWinner l) := rfl

theorem homeWinner_mem {l : List Theft} {j : Nat} {x : Theft} (h : homeWinner l j = some x) : x ∈ l ∧ x.home = j := by
  have hx : x ∈ l.filter (fun x => x.home == j) := by
    simp only [homeWinner] at h
    split at h
    · next hf => exact Option.some.inj h ▸ List.mem_of_find?_eq_some hf
    · exact List.mem_of_head? h
  obtain ⟨hl, hj⟩ := List.mem_filter.1 hx
  exact ⟨hl, beq_iff_eq.1 hj⟩

/-- A home cluster of which a bucket is selected has a steal that commits, its own thief's where there is one. -/
theorem homeWinner_exists {l : List Theft} {j : Nat} {x : Theft} (hx : x ∈ l) (hj : x.home = j) :
    ∃ y, homeWinner l j = some y ∧ ((∃ z ∈ l, z.home = j ∧ z.cluster = j) → y.cluster = j) := by
  have hmine : ∀ z ∈ l, z.home = j → z ∈ l.filter (fun x => x.home == j) := fun z hz hzj => List.mem_filter.2 ⟨hz, beq_iff_eq.2 hzj⟩
  simp only [homeWinner]
  cases hf : (l.filter (fun x => x.home == j)).find? (fun x => x.cluster == j) with
  | some y => exact ⟨y, rfl, fun _ => beq_iff_eq.1 (List.find?_some (p := fun x : Theft => x.cluster == j) hf)⟩
  | none =>
    refine ⟨_, List.head?_eq_some_head (List.ne_nil_of_mem (hmine x hx hj)), fun ⟨z, hz, hzj, hzc⟩ => ?_⟩
    exact absurd (beq_iff_eq.2 hzc) (List.find?_eq_none.1 hf z (hmine z hz hzj))

theorem mem_winners {l : List Theft} {x : Theft} : x ∈ winners l ↔ ∃ j < 8, homeWinner l j = some x := by
  simp only [winners_eq, List.mem_filterMap, List.mem_range]

/-! ### A steal commits (R200, R204) -/

/-- A steal committed, before the headers that waited for its bucket are released. -/
def Dev.stolen (x : Theft) (d : Dev) : Dev :=
  let b := d.bucket x.home x.bucket
  let d1 := (d.setBucket x.home x.bucket { b with owner := x.thief, ownerCl := x.cluster }).sat (F.FWD_CL_STEALS x.cluster) 1
  (({ d1 with fwd := { d1.fwd with idle := Sparse.del d1.fwd.idle (engineKey x.cluster x.thief) } }.put
    ⟨R.FWD_ENG_STATUS x.cluster, 16 + x.thief, 1⟩ 0).ungate x.cluster x.thief).syncBorrow

theorem Dev.commitSteal_eq (x : Theft) : d.commitSteal x = (d.stolen x).releaseWaiting x.home x.bucket := rfl

theorem Dev.stolen_fwd (x : Theft) : (d.stolen x).fwd = { d.fwd with
    buckets := (d.setBucket x.home x.bucket { d.bucket x.home x.bucket with owner := x.thief, ownerCl := x.cluster }).fwd.buckets
    idle := Sparse.del d.fwd.idle (engineKey x.cluster x.thief) } := Dev.syncBorrow_fwd

theorem Dev.stolen_bucket {x : Theft} (hc : x.cluster < 8) : (d.stolen x).bucket x.home x.bucket =
    { d.bucket x.home x.bucket with owner := x.thief, ownerCl := x.cluster } := by
  have hsteals : R.FWD_CL_STEALS x.cluster ≠ R.FWD_CL_CFG x.home := by
    simp only [R.FWD_CL_STEALS, R.FWD_CL_CFG]
    omega
  have hstatus : R.FWD_ENG_STATUS x.cluster ≠ R.FWD_CL_CFG x.home := by
    simp only [R.FWD_ENG_STATUS, R.FWD_CL_CFG]
    omega
  refine (Dev.bucket_of_base ?_ _).trans (Dev.bucket_setBucket (d := d) x.home x.bucket _)
  exact Dev.syncBorrow_base.trans <| (Dev.ungate_base hc _).trans <| (Dev.put_base hstatus _).trans (Dev.put_base hsteals _)

theorem Dev.stolen_waitingFor (x : Theft) (j b : Nat) : (d.stolen x).waitingFor j b = d.waitingFor j b :=
  Dev.waitingFor_congr (by rw [Dev.stolen_fwd]) (by rw [Dev.stolen_fwd]) j b

theorem Dev.commitSteal_place {x : Theft} (hc : x.cluster < 8) (ht : x.thief < 12) :
    ((d.commitSteal x).bucket x.home x.bucket).place = (x.thief, x.cluster, (d.bucket x.home x.bucket).moving) := by
  have hs := Dev.stolen_bucket (d := d) hc
  rw [Dev.commitSteal_eq, Dev.releaseWaiting_place (by rw [hs]; exact hc) (by rw [hs]; exact ht), hs]
  rfl

/-- A steal whose bucket has no header waiting ends with the bucket stolen. -/
theorem Dev.commitSteal_none {x : Theft} (h : d.waitingFor x.home x.bucket = []) : d.commitSteal x = d.stolen x := by
  rw [Dev.commitSteal_eq, Dev.releaseWaiting_none ((Dev.stolen_waitingFor x _ _).trans h)]

theorem Dev.stolen_idle (x : Theft) : (d.stolen x).idleOf x.cluster x.thief = 0 := by
  rw [Dev.idleOf, Dev.stolen_fwd, Sparse.getD, Sparse.get?_del_same]
  rfl

/-! ### The end of a retirement (R205) -/

theorem Dev.retireDone_retires {k e : Nat} (hr : d.retiringEng k e = true) (ho : d.owned k e = []) (hq : d.engQueue k e = []) :
    d.retireDone k e = (({ d with fwd := { d.fwd with retiring := d.fwd.retiring.erase (engineKey k e) } }).put
      ⟨R.FWD_ENG_STATUS k, e, 1⟩ 1).put ⟨R.FWD_EVENT, 1, 1⟩ 1 := if_pos ⟨hr, ho, hq⟩

/-- Settles O31: the steals by what each steal unit selects and by the one that commits for a home cluster, the other commands by the
operation each is, and a retire bit by whether its write changes it. -/
theorem bucketWork : Obligations.BucketWork := by
  refine ⟨fun s hu => ⟨fun clusters cycles l hl => ?_, ?_⟩, fun s k hu => ⟨fun h => ?_, fun bucket hm hi => ?_, fun e hr ho hq => ?_⟩,
    fun s k e h => ⟨fun hb => ?_, fun hb => ?_, fun hb => ?_, fun hb => ?_⟩, fun d k x hx => ?_, fun l x hx => ?_,
    fun l x hx hj => ?_, fun d x hc _ ht _ => ?_⟩
  · subst hl
    exact ⟨_, rfl, runUp_as hu rfl⟩
  · exact ⟨s.begin.onDev Dev.halveActivity, runUp_of_up _ hu, rfl, rfl, fun j b hb hn =>
      Dev.bucket_halveActivity (d := s.begin.dev) j hb hn⟩
  · exact ⟨_, (s.begin.dev.touched (R.FWD_STEAL_CFG k)).stealFields k (s.begin.dev.fieldWord (F.FWD_STEAL_CFG_recall k) 1),
      runHost_recall h, Dev.writeStealCfg_recalls (recallWord_bit k), rfl, rfl, by
        rw [State.onDev_dev, Dev.writeStealCfg_recalls (recallWord_bit k), Dev.recall_flag]⟩
  · exact runUp_as hu (Dev.moveBucket_moves (d := s.begin.dev) hm hi)
  · exact runUp_as hu (Dev.retireDone_retires (d := s.begin.dev) hr ho hq)
  · exact runs_congr (runs_engineRetire h) (Dev.writeRetireBit_sets hb)
  · exact runs_congr (runs_engineUnretire h) (Dev.writeRetireBit_clears hb)
  · exact runs_congr (runs_engineRetire h) (Dev.writeRetireBit_same _ hb)
  · exact runs_congr (runs_engineUnretire h) (Dev.writeRetireBit_same _ hb)
  · obtain ⟨hcl, hthief, v, hv⟩ := Dev.stealEval_selects hx
    exact ⟨hcl, hthief, Dev.candidateBucket_fits hv⟩
  · obtain ⟨j, -, hwin⟩ := mem_winners.1 hx
    obtain ⟨hl, hj⟩ := homeWinner_mem hwin
    refine ⟨hl, fun y hy hyx => ?_⟩
    obtain ⟨i, -, hwin'⟩ := mem_winners.1 hy
    obtain rfl : i = j := (homeWinner_mem hwin').2.symm.trans (hyx.trans hj)
    exact Option.some.inj (hwin'.symm.trans hwin)
  · obtain ⟨y, hy, hown⟩ := homeWinner_exists hx rfl
    exact ⟨y, mem_winners.2 ⟨x.home, hj, hy⟩, (homeWinner_mem hy).2, hown⟩
  · have hplace := Dev.commitSteal_place (d := d) hc ht
    simp only [Bucket.place, Prod.mk.injEq] at hplace
    obtain ⟨howner, hcl, -⟩ := hplace
    refine ⟨howner, hcl, fun hw => ?_⟩
    rw [Dev.commitSteal_none hw]
    exact ⟨Dev.stolen_bucket hc, Dev.stolen_idle x⟩

end Sys2Proof.Machine
end

section
/-! PROOFS. The family of the forwarding engines, dispatch, lookup and hung engines (R182, R185–R190, R197, R204, R502). -/

namespace Sys2Proof.Machine

variable {s : State} {d : Dev} {k : Nat}

/-! ### The ports a dispatcher serves (R185) -/

/-- The ports of a cluster in the order of its rotating priority. -/
def Dev.serviceOrder (d : Dev) (k : Nat) : List Nat :=
  (clusterPorts k).filter (Sparse.getD d.fwd.lastServed k 81 < ·) ++ (clusterPorts k).filter (· ≤ Sparse.getD d.fwd.lastServed k 81)

theorem Dev.mem_serviceOrder {p : Nat} : p ∈ d.serviceOrder k ↔ p ∈ clusterPorts k := by
  simp only [Dev.serviceOrder, List.mem_append, List.mem_filter, decide_eq_true_eq, ← and_or_left, lt_or_ge, and_true]

/-- A dispatcher serves no port, one, or two of which the second can be served once the first is. -/
theorem Dev.served_cases (d : Dev) (k : Nat) :
    (d.served k = [] ∧ ∀ p ∈ clusterPorts k, d.headReady p = false) ∨
    (∃ p, d.served k = [p] ∧ p ∈ clusterPorts k ∧ d.headReady p = true) ∨
    (∃ p q, d.served k = [p, q] ∧ p ∈ clusterPorts k ∧ d.headReady p = true ∧ q ∈ clusterPorts k ∧ p ≠ q ∧
      (d.dispatchHead p).headReady q = true) := by
  have hdef : d.served k = match (d.serviceOrder k).find? (fun p => d.headReady p) with
    | none => []
    | some p => p :: (((d.serviceOrder k).filter (· != p)).find? (fun q => (d.dispatchHead p).headReady q)).toList := rfl
  cases hp : (d.serviceOrder k).find? (fun p => d.headReady p) with
  | none =>
    rw [hp] at hdef
    exact .inl ⟨hdef, fun p hm => by simpa using List.find?_eq_none.1 hp p (Dev.mem_serviceOrder.2 hm)⟩
  | some p =>
    have hmem := Dev.mem_serviceOrder.1 (List.mem_of_find?_eq_some hp)
    have hready : d.headReady p = true := List.find?_some (p := fun p => d.headReady p) hp
    rw [hp] at hdef
    cases hq : ((d.serviceOrder k).filter (· != p)).find? (fun q => (d.dispatchHead p).headReady q) with
    | none => exact .inr (.inl ⟨p, hdef.trans (congrArg (fun o : Option Nat => p :: o.toList) hq), hmem, hready⟩)
    | some q =>
      obtain ⟨hqm, hqp⟩ := List.mem_filter.1 (List.mem_of_find?_eq_some hq)
      exact .inr (.inr ⟨p, q, hdef.trans (congrArg (fun o : Option Nat => p :: o.toList) hq), hmem, hready,
        Dev.mem_serviceOrder.1 hqm, (bne_iff_ne.1 hqp).symm, List.find?_some (p := fun q => (d.dispatchHead p).headReady q) hq⟩)

/-- What the ports served are, whichever of the cases (R185). -/
theorem Dev.served_spec (d : Dev) (k : Nat) : (d.served k).length ≤ 2 ∧ (d.served k).Nodup ∧ (∀ p ∈ d.served k, p ∈ clusterPorts k) ∧
    (∀ p l, d.served k = p :: l → d.headReady p = true ∧ ∀ q ∈ l, (d.dispatchHead p).headReady q = true) ∧
    (d.served k = [] ↔ ∀ p ∈ clusterPorts k, d.headReady p = false) := by
  have hbusy : ∀ {p l}, p ∈ clusterPorts k → d.headReady p = true →
      (p :: l = [] ↔ ∀ p ∈ clusterPorts k, d.headReady p = false) := fun hmem hready =>
    ⟨fun hnil => absurd hnil (List.cons_ne_nil _ _), fun hnone => absurd hready (by simp [hnone _ hmem])⟩
  rcases d.served_cases k with ⟨hs, hnone⟩ | ⟨p, hs, hmem, hready⟩ | ⟨p, q, hs, hmem, hready, hqmem, hne, hqready⟩
  · rw [hs]
    exact ⟨by decide, List.nodup_nil, by simp, by simp, fun _ => hnone, fun _ => rfl⟩
  · rw [hs]
    refine ⟨by simp, by simp, by simpa using hmem, fun p' l hpl => ?_, hbusy hmem hready⟩
    obtain ⟨rfl, rfl⟩ := List.cons.inj hpl
    exact ⟨hready, by simp⟩
  · rw [hs]
    refine ⟨by simp, by simpa using hne, by simp [hmem, hqmem], fun p' l hpl => ?_, hbusy hmem hready⟩
    obtain ⟨rfl, rfl⟩ := List.cons.inj hpl
    exact ⟨hready, by simpa using hqready⟩

theorem Dev.dispatchCycle_one {p : Nat} (h : d.served k = [p]) : d.dispatchCycle k =
    let e := d.dispatchHead p
    { e with fwd := { e.fwd with lastServed := Sparse.put e.fwd.lastServed k p } } := by
  rw [Dev.dispatchCycle, h]

theorem Dev.dispatchCycle_two {p q : Nat} (h : d.served k = [p, q]) : d.dispatchCycle k =
    let e := (d.dispatchHead (min p q)).dispatchHead (max p q)
    { e with fwd := { e.fwd with lastServed := Sparse.put e.fwd.lastServed k q } } := by
  rw [Dev.dispatchCycle, h]

/-! ### A header dispatched (R182, R185) -/

/-- The device as a port's head header has left its FIFO. -/
def Dev.headTaken (p : Nat) (rest : List Nat) (d : Dev) : Dev := (d.setHeaderFifo p rest).count (4080 + 2 * portGroup p) 1

theorem Dev.headTaken_fwd (p : Nat) (rest : List Nat) : (d.headTaken p rest).fwd = (d.setHeaderFifo p rest).fwd := Dev.count_fwd _ _

theorem Dev.headTaken_bucket (p : Nat) (rest : List Nat) (j b : Nat) : (d.headTaken p rest).bucket j b = d.bucket j b :=
  Dev.bucket_of_base ((Dev.count_base _ _).trans (Dev.setHeaderFifo_base _ _)) b

theorem Dev.headTaken_headWaits (p : Nat) (rest : List Nat) (j b : Nat) : (d.headTaken p rest).headWaits j b = d.headWaits j b := by
  have hwait : (d.headTaken p rest).waitingFor j b = d.waitingFor j b :=
    Dev.waitingFor_congr (by rw [Dev.headTaken_fwd, Dev.setHeaderFifo_fwd]) (by rw [Dev.headTaken_fwd, Dev.setHeaderFifo_fwd]) j b
  rw [Dev.headWaits, Dev.headTaken_bucket, hwait, Dev.headWaits]

/-- The head of a port that neither goes express nor waits enters its owner's queue. -/
theorem Dev.dispatchHead_enters {p i : Nat} {rest : List Nat} (h : d.headerFifo p = i :: rest) (hx : (d.frame i).express = false)
    (hw : d.headWaits (portGroup p) (d.frame i).bucket = false) :
    d.dispatchHead p = (d.headTaken p rest).enterEngine i (portGroup p) (d.frame i).bucket := by
  have hw' := (Dev.headTaken_headWaits p rest (portGroup p) (d.frame i).bucket).trans hw
  rw [Dev.headTaken] at hw'
  rw [Dev.dispatchHead, h]
  simp only [hx, hw', Bool.false_eq_true, if_false]
  rfl

theorem Dev.dispatchHead_queues {p i : Nat} {rest : List Nat} (h : d.headerFifo p = i :: rest) (hx : (d.frame i).express = false)
    (hw : d.headWaits (portGroup p) (d.frame i).bucket = false) :
    (d.dispatchHead p).headerFifo p = rest ∧
      let x := d.bucket (portGroup p) (d.frame i).bucket
      (d.dispatchHead p).engQueue x.ownerCl x.owner = d.engQueue x.ownerCl x.owner ++ [i] := by
  rw [Dev.dispatchHead_enters h hx hw]
  constructor
  · rw [Dev.enterEngine_headerFifo, Dev.headerFifo, Dev.headTaken_fwd]
    exact Dev.headerFifo_setHeaderFifo p rest
  · have hq := Dev.enterEngine_engQueue (d := d.headTaken p rest) (k := portGroup p) (b := (d.frame i).bucket) i
    rw [Dev.headTaken_bucket] at hq
    exact hq.trans (by rw [Dev.engQueue, Dev.headTaken_fwd, Dev.setHeaderFifo_fwd, Dev.engQueue])

/-! ### A bypass frame (R186) -/

theorem Dev.bypassEnqueue_sends {n i : Nat} {rest : List Nat} {f : Frame} (hq : Sparse.getD d.host.bypassQ n [] = i :: rest)
    (hf : d.frame? i = some f) (hw : f.waits = false) (he : d.earlierOf n i = false) (hr : d.flag F.TOP_READY_qsc = true)
    (hc : f.bad ≠ chainFailed) (hp : f.bypass.getD 127 ≤ 80) (hpp : d.portPresent (f.bypass.getD 127) = true) :
    d.bypassEnqueue n = (({ d with host := { d.host with bypassQ := Sparse.put d.host.bypassQ n rest } }).setFrame i { f with
      looked := true, act := some { cls := n }, copies := [{ port := f.bypass.getD 127, queue := n }]
      lastOwner := f.bypass.getD 127 }).createCopies i := by
  rw [Dev.bypassEnqueue, hq]
  simp only [hf, Option.filter_some, hw, Bool.not_false, if_true]
  rw [if_neg (by rw [he, hr]; decide), if_neg hc, if_neg (not_or.2 ⟨not_lt.2 hp, by rw [hpp]; decide⟩)]

/-- Settles O30: a dispatcher cycle by the ports it serves, a lookup and a hung engine by the head of the queue, a bypass frame by what
holds it back. -/
theorem engineWork : Obligations.EngineWork := by
  refine ⟨fun s k hu => ⟨fun p hp => ?_, fun p q hpq => ?_, fun e i rest errors d0 hd0 hq => ?_, fun e i rest hq => ?_,
    fun ring i rest f hq hf hw he hr hc hp hpp => ?_⟩, fun d k => d.served_spec k, fun d p i rest h hx _ hw => Dev.dispatchHead_queues h hx hw⟩
  · exact runUp_as hu (Dev.dispatchCycle_one hp)
  · exact runUp_as hu (Dev.dispatchCycle_two hpq)
  · subst hd0
    refine runUp_as hu (congrArg (fun x : Dev => x.disableSyncs.loopBack) ?_)
    show Dev.engineLookup k e (s.begin.dev.lookupErrors k e errors) = _
    unfold Dev.engineLookup
    split
    · next hnil => exact absurd (hnil.symm.trans hq) (by simp)
    · next hcons =>
      obtain ⟨rfl, rfl⟩ := List.cons.inj (hcons.symm.trans hq)
      rfl
  · refine runUp_as hu ?_
    unfold Dev.engineHang
    split
    · next hnil => exact absurd (hnil.symm.trans hq) (by simp)
    · next hcons =>
      obtain ⟨rfl, rfl⟩ := List.cons.inj (hcons.symm.trans hq)
      rfl
  · exact runUp_as hu (Dev.bypassEnqueue_sends (d := s.begin.dev) hq hf hw he hr hc hp hpp)

end Sys2Proof.Machine
end

section
/-! SUPPORT. Laws of the dwords of the memories and of the stream keeper's flow entries kept in them: what is read after a write, and
what leaves the memories alone. -/

namespace Sys2Proof.Machine

variable {d e : Dev}

/-! ### Dwords -/

theorem length_leBytes (n v : Nat) : (leBytes n v).length = n := by
  induction n generalizing v with
  | zero => rfl
  | succ n ih => rw [leBytes, List.length_cons, ih]

/-- A number is read back from its low bytes, as far as they reach. -/
theorem leNat_leBytes (n v : Nat) : leNat (leBytes n v) = v % 256 ^ n := by
  induction n generalizing v with
  | zero => rw [leBytes, leNat, pow_zero, Nat.mod_one]
  | succ n ih =>
    rw [leBytes, leNat, ih, BitVec.toNat_ofNat, pow_succ' 256 n]
    exact Nat.mod_mul.symm

theorem Memory.read_write_same (m : List Host.Cell) (a : Nat) (bs : List Byte) :
    Memory.read (Memory.write m a bs) a bs.length = bs :=
  List.ext_getElem (by simp [Memory.read]) fun i _ hi => by simp [Memory.read, Memory.get_write_in _ _ _ _ hi]

theorem Memory.read_write_apart (m : List Host.Cell) {a b n : Nat} {bs : List Byte} (h : b + n ≤ a ∨ a + bs.length ≤ b) :
    Memory.read (Memory.write m a bs) b n = Memory.read m b n :=
  List.map_congr_left fun i hi => Memory.get_write_out _ _ _ _ (by have := List.mem_range.1 hi; omega)

theorem Dev.dword_lt (a : Nat) : d.dword a < 2 ^ 32 :=
  (leNat_lt _).trans_eq (by rw [Memory.read, List.length_map, List.length_range]; rfl)

theorem Dev.dword_storeDword_same (a v : Nat) : (d.storeDword a v).dword a = v % 2 ^ 32 := by
  have hread := Memory.read_write_same d.mem a (leBytes 4 v)
  rw [length_leBytes] at hread
  exact (congrArg leNat hread).trans (leNat_leBytes 4 v)

theorem Dev.dword_storeDword_apart {a b : Nat} (v : Nat) (h : b + 4 ≤ a ∨ a + 4 ≤ b) : (d.storeDword a v).dword b = d.dword b :=
  congrArg leNat (Memory.read_write_apart d.mem (by rw [length_leBytes]; exact h))

/-! ### Flow entries (Table QSC-5) -/

theorem Dev.flowWord_lt (n k : Nat) : d.flowWord n k < 2 ^ 32 := Dev.dword_lt _

theorem Dev.flowWord_congr (h : e.mem = d.mem) (n k : Nat) : e.flowWord n k = d.flowWord n k := by
  simp only [Dev.flowWord, Dev.dword, h]

theorem Dev.flowWord_setFlowWord_same (n k v : Nat) : (d.setFlowWord n k v).flowWord n k = v % 2 ^ 32 :=
  Dev.dword_storeDword_same _ _

theorem Dev.flowWord_setFlowWord_ne {n j k : Nat} (v : Nat) (h : j ≠ k) : (d.setFlowWord n j v).flowWord n k = d.flowWord n k :=
  Dev.dword_storeDword_apart _ (by omega)

/-- The state of a flow reads as it was set. -/
theorem Dev.skState_setSkState (n : Nat) {x : Nat} (h : x < 4) : (d.setSkState n x).skState n = x := by
  have hlt := d.flowWord_lt n 0
  have hw : (d.setSkState n x).flowWord n 0 = (d.flowWord n 0 - d.skState n * 2 ^ 28 + x * 2 ^ 28) % 2 ^ 32 :=
    Dev.flowWord_setFlowWord_same n 0 _
  rw [Dev.skState, hw, Dev.skState]
  unfold field
  omega

/-- The state of a flow stands in the first dword of its entry alone. -/
theorem Dev.flowWord_setSkState {n k : Nat} (x : Nat) (h : 0 ≠ k) : (d.setSkState n x).flowWord n k = d.flowWord n k :=
  Dev.flowWord_setFlowWord_ne _ h

theorem Dev.flowWord_setSkDue {n k : Nat} (t : Nat) (h4 : 4 ≠ k) (h5 : 5 ≠ k) (h6 : 6 ≠ k) :
    (d.setSkDue n t).flowWord n k = d.flowWord n k := by
  rw [Dev.setSkDue, Dev.flowWord_setFlowWord_ne _ h6, Dev.flowWord_setFlowWord_ne _ h5, Dev.flowWord_setFlowWord_ne _ h4]

/-- The due time of a flow reads as it was set, its seconds kept to 32 bits. -/
theorem Dev.skDue_setSkDue (n t : Nat) : (d.setSkDue n t).skDue n = t % (2 ^ 32 * 1000000000 * 16) := by
  simp only [Dev.skDue, Dev.setSkDue, Dev.flowWord_setFlowWord_same, Dev.flowWord_setFlowWord_ne _ (show 6 ≠ 4 by decide),
    Dev.flowWord_setFlowWord_ne _ (show 6 ≠ 5 by decide), Dev.flowWord_setFlowWord_ne _ (show 5 ≠ 4 by decide)]
  unfold field
  omega

end Sys2Proof.Machine
end

section
/-! PROOFS. The family of the egress queues, gate lists and preemption (R246, R247, R250–R252, R266). -/

namespace Sys2Proof.Machine

variable {d e : Dev} {g : Gcl} {p entry : Nat}

/-! ### Gate entries (R246, R249, R251) -/

/-- What an entry of a list sets before the turns and the preemptions that follow from it: the gate states, the hold or release and the
entry's number stand, and the port's lanes have left L1. -/
def Dev.gateSet (p : Nat) (g : Gcl) (entry : Nat) (d : Dev) : Dev :=
  let states := d.gateStates p g.bank entry
  let op := d.gateOp p g.bank entry
  let held := if op = 1 then addOnce p d.qsc.heldMac else if op = 2 then d.qsc.heldMac.filter (· != p) else d.qsc.heldMac
  let oper := Sparse.put d.qsc.oper p { g with held := false }
  let gates := Sparse.put d.qsc.gates p states
  ({ d with qsc := { d.qsc with oper := oper, gates := gates, heldMac := held } }.put (F.QSC_GCL_STATUS_entry p) entry).leaveL1 p

/-- The copy in transmission on a port uses a queue whose gate is closed under `states`. -/
def Dev.closesOn (d : Dev) (p states : Nat) : Bool :=
  match d.sendingOn p with
  | some x => !hasBit states x.queue
  | none => false

theorem Dev.closesOn_congr (h : e.qsc = d.qsc) (p states : Nat) : e.closesOn p states = d.closesOn p states := by
  rw [Dev.closesOn, Dev.closesOn, Dev.sendingOn, Dev.sendingOn, h]

theorem Dev.gateSet_qsc : (d.gateSet p g entry).qsc = { d.qsc with
    oper := Sparse.put d.qsc.oper p { g with held := false }
    gates := Sparse.put d.qsc.gates p (d.gateStates p g.bank entry)
    heldMac := if d.gateOp p g.bank entry = 1 then addOnce p d.qsc.heldMac
      else if d.gateOp p g.bank entry = 2 then d.qsc.heldMac.filter (· != p) else d.qsc.heldMac } :=
  Dev.leaveL1_qsc p

theorem Dev.gateSet_entry (h : entry < 256) : (d.gateSet p g entry).get (F.QSC_GCL_STATUS_entry p) = entry := by
  have hlanes : ∀ l, R.HSL_STATUS l ≠ R.QSC_GCL_STATUS p := fun l => by simp only [R.HSL_STATUS, R.QSC_GCL_STATUS]; omega
  have hevent : R.CNT_EVENT ≠ R.QSC_GCL_STATUS p := by simp only [R.CNT_EVENT, R.QSC_GCL_STATUS]; omega
  have hlast : R.CNT_OVF_LAST ≠ R.QSC_GCL_STATUS p := by simp only [R.CNT_OVF_LAST, R.QSC_GCL_STATUS]; omega
  exact (Dev.get_of_word (Dev.leaveL1_word hevent hlast hlanes p)).trans (Dev.get_put_fits _ (by simp) h)

theorem Dev.gateSet_mem : (d.gateSet p g entry).mem = d.mem := (congrArg Dev.mem (Dev.leaveL1_uncounted p) :)

theorem Dev.gateSet_raised : (d.gateSet p g entry).raised = d.raised := (congrArg Dev.raised (Dev.leaveL1_uncounted p) :)

theorem Dev.gateSet_closesOn (states : Nat) : (d.gateSet p g entry).closesOn p states = d.closesOn p states :=
  Dev.closesOn_congr (Dev.leaveL1_qsc p) p states

/-- The entry in force takes effect; turns end and copies are set aside as the gates then stand. -/
theorem Dev.gateEntry_inForce (hr : d.runningList p = some g) (he : d.entryNow p g = some entry) : d.gateEntry p entry =
    (((d.gateSet p g entry).turnSync p).when
      (d.gateOp p g.bank entry == 1 || d.closesOn p (d.gateStates p g.bank entry)) (Dev.preempt p)).preemptCheck p := by
  rw [← Dev.gateSet_closesOn, Dev.gateEntry, hr]
  exact if_neg (not_not.2 he)

/-- An entry that is not the one in force does nothing. -/
theorem Dev.gateEntry_idle (h : ∀ g, d.runningList p = some g → d.entryNow p g ≠ some entry) : d.gateEntry p entry = d := by
  unfold Dev.gateEntry
  split
  · rfl
  · next g hg => exact if_pos (h g hg)

/-! ### List switches (R247) -/

theorem Dev.entryNow_congr (hm : e.mem = d.mem) (ht : e.tbs = d.tbs) (p : Nat) (g : Gcl) : e.entryNow p g = d.entryNow p g := by
  have hplan : e.gclPlan p g = d.gclPlan p g := by simp only [Dev.gclPlan, Dev.gateInterval, Dev.dword, hm]
  have hnow : e.nowNs = d.nowNs := by rw [Dev.nowNs, ht, Dev.nowNs]
  rw [Dev.entryNow, hplan, hnow, Dev.entryNow]

theorem Dev.gclSwitch_due (hp : Sparse.get? d.qsc.pend p = some g) (ht : d.timeReady = true) (hd : g.due ≤ d.nowNs) : d.gclSwitch p =
    ((((({ d with qsc := { d.qsc with oper := Sparse.put d.qsc.oper p g, pend := Sparse.del d.qsc.pend p } }).put
      (F.QSC_GCL_STATUS_pending p) 0).put (F.QSC_GCL_STATUS_running p) 1).put (F.QSC_GCL_STATUS_oper_bank p) g.bank).event
        (R.QSC_EVENT p) 2).gateEntry p ((d.entryNow p g).getD 0) := by
  rw [Dev.gclSwitch, hp]
  refine (if_neg ?_).trans ?_
  · rw [ht]
    exact not_or.2 ⟨Bool.false_ne_true, not_lt.2 hd⟩
  · exact congrArg (fun x : Option Nat => Dev.gateEntry p (x.getD 0) _) (Dev.entryNow_congr (d := d) rfl rfl p g)

/-- The first cycle start at or after an instant (R246, R247). -/
theorem cycleStart_first (base now : Nat) {cycle : Nat} (h : 0 < cycle) : now ≤ cycleStart base cycle now ∧
    cycleStart base cycle now < now + cycle ∧ ((cycleStart base cycle now : Int) - base) % cycle = 0 := by
  unfold cycleStart
  split
  · next hle =>
    have hdiv := Nat.div_add_mod' (base - now) cycle
    have hmod := Nat.mod_lt (base - now) h
    refine ⟨by omega, by omega, Int.emod_eq_zero_of_dvd ⟨-(((base - now) / cycle : Nat) : Int), ?_⟩⟩
    rw [Nat.cast_sub (by omega), Nat.cast_mul]
    ring
  · next hgt =>
    have hdiv := Nat.div_add_mod' (now - base + cycle - 1) cycle
    have hmod := Nat.mod_lt (now - base + cycle - 1) h
    refine ⟨by omega, by omega, Int.emod_eq_zero_of_dvd ⟨((now - base + cycle - 1) / cycle : Nat), ?_⟩⟩
    push_cast
    ring

/-! ### The verify procedure (R250) -/

theorem queueEvent_ne_preempt (p : Nat) : R.QSC_EVENT p ≠ R.QSC_PREEMPT p := by
  simp only [R.QSC_EVENT, R.QSC_PREEMPT]
  omega

/-- The verify procedure has ended, its state and, on a failure, its event set. -/
def Dev.verified (p : Nat) (ok : Bool) (d : Dev) : Dev :=
  (d.put (F.QSC_PREEMPT_verify_state p) (if ok then 2 else 3)).when (!ok) (Dev.event (R.QSC_EVENT p) 4)

theorem Dev.preemptVerify_ends (hp : p < 64) (he : d.flag (F.QSC_PREEMPT_enable p) = true)
    (hd : d.flag (F.QSC_PREEMPT_verify_dis p) = false) (hr : d.portReady p = true) (ok : Bool) :
    d.preemptVerify p ok = (d.verified p ok).syncPreempt p :=
  if_neg (by simp [hp, he, hd, hr])

theorem Dev.verified_state (ok : Bool) : (d.verified p ok).get (F.QSC_PREEMPT_verify_state p) = if ok then 2 else 3 := by
  cases ok with
  | true => exact Dev.get_put_fits _ (by simp) (by simp)
  | false =>
    have hevent : Fld.apart ⟨R.QSC_EVENT p, 4, 1⟩ (F.QSC_PREEMPT_verify_state p) := .inl (queueEvent_ne_preempt p)
    exact (Dev.get_put_apart _ _ hevent).trans (Dev.get_put_fits _ (by simp) (by simp))

theorem Dev.verified_enable (ok : Bool) : (d.verified p ok).flag (F.QSC_PREEMPT_enable p) = d.flag (F.QSC_PREEMPT_enable p) := by
  have hstate : ∀ v, (d.put (F.QSC_PREEMPT_verify_state p) v).flag (F.QSC_PREEMPT_enable p) = d.flag (F.QSC_PREEMPT_enable p) :=
    fun v => Dev.flag_put_apart _ _ (.inr (by simp))
  cases ok with
  | true => exact hstate _
  | false => exact (Dev.flag_put_apart _ _ (.inl (queueEvent_ne_preempt p))).trans (hstate _)

theorem Dev.verified_event (ok : Bool) :
    (d.verified p ok).flag ⟨R.QSC_EVENT p, 4, 1⟩ = (d.flag ⟨R.QSC_EVENT p, 4, 1⟩ || !ok) := by
  cases ok with
  | true => exact (Dev.flag_put_apart _ _ (.inl (queueEvent_ne_preempt p).symm)).trans (Bool.or_false _).symm
  | false => exact (Dev.flag_put_same _ _ _ (by simp)).trans (Bool.or_true _).symm

theorem Dev.verified_keeps {β : Type} (f : Dev → β) (hf : ∀ (e : Dev) x v, f (e.put x v) = f e) (ok : Bool) :
    f ((d.verified p ok).syncPreempt p) = f d :=
  (hf _ _ _).trans ((Dev.when_keeps f (hf _ _ _) _).trans (hf _ _ _))

/-- Preemption is active on an enabled Ethernet port once verification has succeeded. -/
theorem Dev.verified_active (hp : p < 64) (he : d.flag (F.QSC_PREEMPT_enable p) = true) (ok : Bool) :
    ((d.verified p ok).syncPreempt p).flag (F.QSC_PREEMPT_active p) = ok := by
  rw [Dev.syncPreempt, Dev.verified_state, Dev.verified_enable, he, decide_eq_true hp, Dev.flag_put_same _ _ _ (by simp)]
  cases ok <;> rfl

end Sys2Proof.Machine
end

section
/-! PROOFS. The family of the egress queues, the stream keeper (R259, R261–R263). -/

namespace Sys2Proof.Machine

variable {d : Dev} {p n : Nat} {bs : List Byte}

/-! ### What counting and queueing leave of the memories -/

theorem Dev.count_mem (i k : Nat) : (d.count i k).mem = d.mem :=
  Dev.count_keeps Dev.mem (fun _ i k => (congrArg Dev.mem (Dev.bump_uncounted i k) :)) (fun _ => rfl) i k

theorem Dev.enqueue_mem (p q : Nat) (c : Copy) : (d.enqueue p q c).mem = d.mem := (congrArg Dev.mem (Dev.leaveL1_uncounted p) :)

theorem Dev.preemptCheck_mem (p : Nat) : (d.preemptCheck p).mem = d.mem := by
  refine Dev.when_keeps Dev.mem ?_ _
  simp only [Dev.preempt]
  split
  · rfl
  · split <;> rfl

/-! ### A placeholder sent (R259, R262, R263) -/

/-- The copy that the keeper sends on a flow. -/
def Dev.fillCopy (d : Dev) (n : Nat) (bs : List Byte) : Copy :=
  { holder := some bs, flow := n
    launch := if d.flowWord n 3 = 0 then none else some (d.skLaunch (d.skDue n + d.flowWord n 3)) }

theorem State.begin_fillCopy (s : State) (n : Nat) (bs : List Byte) : s.begin.dev.fillCopy n bs = s.dev.fillCopy n bs := rfl

/-- The placeholder has gone to the watched queue of its flow and is counted. -/
def Dev.fillSent (n : Nat) (bs : List Byte) (d : Dev) : Dev :=
  (d.placeCopy (field (d.flowWord n 0) 0 7) (field (d.flowWord n 0) 8 3) (d.fillCopy n bs)).count (devCtr 0) 1

/-- One more fill in a flow's entry: the due time, the fill count and the sequence number beside it, and the flow's total. -/
def Dev.fillNoted (n t count : Nat) (d : Dev) : Dev :=
  let e := d.setSkDue n t
  let w := e.flowWord n 6
  (e.setFlowWord n 6 (w / 2 ^ 24 * 2 ^ 24 + (field w 16 8 + 1) % 256 * 2 ^ 16 + (count + 1) % 65536)).setFlowWord n 7
    (min (2 ^ 32 - 1) (e.flowWord n 7 + 1))

/-- A running flow goes to filling with its event; one that fills goes on. -/
def Dev.fillEntered (n : Nat) (running : Bool) (d : Dev) : Dev := d.when running (fun e => (e.setSkState n Sk.filling).skEvent 0 n)

theorem Dev.placeCopy_enters {q : Nat} {c : Copy} (hs : d.standsBy p = false) (hb : d.beyondHorizon p c.launch = false) :
    d.placeCopy p q c = (d.enqueue p q c).preemptCheck p := by
  rw [Dev.placeCopy, hs, hb]
  rfl

section
variable (hs : d.standsBy (field (d.flowWord n 0) 0 7) = false)
  (hb : d.beyondHorizon (field (d.flowWord n 0) 0 7) (d.fillCopy n bs).launch = false)
include hs hb

theorem Dev.fillSent_mem : (d.fillSent n bs).mem = d.mem := by
  rw [Dev.fillSent, Dev.count_mem, Dev.placeCopy_enters hs hb, Dev.preemptCheck_mem, Dev.enqueue_mem]

theorem Dev.fillSent_queue : (d.fillSent n bs).queue (field (d.flowWord n 0) 0 7) (field (d.flowWord n 0) 8 3) =
    d.queue (field (d.flowWord n 0) 0 7) (field (d.flowWord n 0) 8 3) ++ [d.fillCopy n bs] := by
  rw [Dev.fillSent, Dev.queue_congr (Dev.count_qsc _ _), Dev.placeCopy_enters hs hb, Dev.preemptCheck_queue, Dev.queue_enqueue]

end

/-! ### A fill noted in the entry -/

section
variable (n : Nat) (t count : Nat)

theorem Dev.fillNoted_qsc : (d.fillNoted n t count).qsc = d.qsc := by
  rw [Dev.fillNoted, Dev.setFlowWord_qsc, Dev.setFlowWord_qsc, Dev.setSkDue_qsc]

theorem Dev.fillNoted_skState : (d.fillNoted n t count).skState n = d.skState n := by
  rw [Dev.skState, Dev.fillNoted, Dev.flowWord_setFlowWord_ne _ (by decide), Dev.flowWord_setFlowWord_ne _ (by decide),
    Dev.flowWord_setSkDue t (by decide) (by decide) (by decide), Dev.skState]

theorem Dev.fillNoted_word7 : (d.fillNoted n t count).flowWord n 7 = min (2 ^ 32 - 1) (d.flowWord n 7 + 1) := by
  rw [Dev.fillNoted, Dev.flowWord_setFlowWord_same, Dev.flowWord_setSkDue t (by decide) (by decide) (by decide)]
  omega

/-- The dword of the fill count: the bits above it and the sequence number keep what the due time left there. -/
theorem Dev.fillNoted_word6 : (d.fillNoted n t count).flowWord n 6 = (d.setSkDue n t).flowWord n 6 / 2 ^ 24 * 2 ^ 24 +
    (field ((d.setSkDue n t).flowWord n 6) 16 8 + 1) % 256 * 2 ^ 16 + (count + 1) % 65536 := by
  have hlt := (d.setSkDue n t).flowWord_lt n 6
  rw [Dev.fillNoted, Dev.flowWord_setFlowWord_ne _ (by decide), Dev.flowWord_setFlowWord_same]
  omega

theorem Dev.fillNoted_count : field ((d.fillNoted n t count).flowWord n 6) 0 16 = (count + 1) % 65536 := by
  rw [Dev.fillNoted_word6]
  unfold field
  omega

theorem Dev.fillNoted_skDue : (d.fillNoted n t count).skDue n = t % (2 ^ 32 * 1000000000 * 16) := by
  have hwords : ∀ k, 6 ≠ k → 7 ≠ k → (d.fillNoted n t count).flowWord n k = (d.setSkDue n t).flowWord n k := fun k h6 h7 =>
    (Dev.flowWord_setFlowWord_ne _ h7).trans (Dev.flowWord_setFlowWord_ne _ h6)
  have hfrac : field ((d.fillNoted n t count).flowWord n 6) 28 4 = field ((d.setSkDue n t).flowWord n 6) 28 4 := by
    rw [Dev.fillNoted_word6]
    unfold field
    omega
  rw [← Dev.skDue_setSkDue (d := d) n t, Dev.skDue, Dev.skDue, hwords 4 (by decide) (by decide), hwords 5 (by decide) (by decide), hfrac]

end

/-! ### The state of a flow that fills (Table QSC-6) -/

theorem Dev.flowWord_skEvent (i m n k : Nat) : (d.skEvent i m).flowWord n k = d.flowWord n k := Dev.flowWord_congr (d := d) rfl n k

section
variable (n : Nat) (running : Bool)

theorem Dev.fillEntered_qsc : (d.fillEntered n running).qsc = d.qsc :=
  Dev.when_keeps (f := fun e => (e.setSkState n Sk.filling).skEvent 0 n) Dev.qsc
    ((Dev.skEvent_qsc 0 n).trans (Dev.setSkState_qsc n _)) _

theorem Dev.fillEntered_word {k : Nat} (h : 0 ≠ k) : (d.fillEntered n running).flowWord n k = d.flowWord n k :=
  Dev.when_keeps (f := fun e => (e.setSkState n Sk.filling).skEvent 0 n) (fun e => e.flowWord n k)
    ((Dev.flowWord_skEvent 0 n n k).trans (Dev.flowWord_setSkState _ h)) _

theorem Dev.fillEntered_skDue : (d.fillEntered n running).skDue n = d.skDue n := by
  rw [Dev.skDue, Dev.skDue, Dev.fillEntered_word n running (by decide), Dev.fillEntered_word n running (by decide),
    Dev.fillEntered_word n running (by decide)]

end

theorem Dev.fillEntered_skState (hs : d.skState n = Sk.running ∨ d.skState n = Sk.filling) :
    (d.fillEntered n (d.skState n == Sk.running)).skState n = Sk.filling := by
  rcases hs with hs | hs
  · rw [hs]
    exact (congrArg (fun w => field w 28 2) (Dev.flowWord_skEvent 0 n n 0)).trans (Dev.skState_setSkState n (by decide))
  · rw [hs]
    exact hs

/-- A flow that goes to filling raises its event and stands in QSC_SK_LAST. -/
theorem Dev.fillEntered_event (hn : n < 4096) :
    (d.fillEntered n true).bitAt R.QSC_SK_EVENT 0 = true ∧ (d.fillEntered n true).get F.QSC_SK_LAST = n :=
  ⟨(Dev.bitAt_put_ne _ _ (by decide)).trans (Dev.bitAt_put_same _ (by decide)), Dev.get_put_fits _ (by decide) hn⟩

/-! ### Visits (R261, R262) -/

theorem Dev.skVisit_notReady (h : d.flag F.TOP_READY_qsc = false) : d.skVisit = d := if_pos (by rw [h]; rfl)

/-- A visit to the next flow, after which the keeper goes on. -/
theorem Dev.skVisit_goesOn (h : d.flag F.TOP_READY_qsc = true) (hn : n = d.qsc.skVisit % 4096) :
    d.skVisit = { d.skVisitFlow n with qsc := { (d.skVisitFlow n).qsc with skVisit := (n + 1) % 4096 } } := by
  subst hn
  exact if_neg (by rw [h]; decide)

section
variable (hm : d.skMayRun n = true) (hs : d.skState n = Sk.running ∨ d.skState n = Sk.filling)
include hm hs

/-- At the fill limit, its due time past, a flow ramps down. -/
theorem Dev.skVisitFlow_ramps (hc : field (d.flowWord n 2) 16 16 ≤ field (d.flowWord n 6) 0 16) (ht : d.skDue n ≤ d.skNow) :
    d.skVisitFlow n = ((d.setSkState n Sk.ramped).fault R.QSC_SK_EVENT 1 E.QSC_SK_EXHAUSTED n).put F.QSC_SK_LAST n := by
  rw [Dev.skVisitFlow, if_neg (by simp [hm]), if_neg (by omega)]
  exact if_pos ⟨hc, ht⟩

/-- Below the fill limit, due time and grace past, a flow sends its placeholder, notes it and fills. -/
theorem Dev.skVisitFlow_fills (hc : field (d.flowWord n 6) 0 16 < field (d.flowWord n 2) 16 16)
    (ht : d.skDue n + 16 * field (d.flowWord n 2) 0 16 ≤ d.skNow) (hp : d.placeholder n = some bs) :
    d.skVisitFlow n = ((d.fillSent n bs).fillNoted n (d.skDue n + max 16 ((d.fillSent n bs).flowWord n 1))
      (field (d.flowWord n 6) 0 16)).fillEntered n (d.skState n == Sk.running) := by
  simp only [Dev.skVisitFlow]
  rw [if_neg (by simp [hm]), if_neg (by omega), if_neg (by omega), if_neg (by omega), hp]
  rcases hs with hs | hs <;> rw [hs] <;> rfl

/-- What a fill leaves in the queue and in the flow's entry. -/
theorem Dev.skVisitFlow_filled (hc : field (d.flowWord n 6) 0 16 < field (d.flowWord n 2) 16 16)
    (ht : d.skDue n + 16 * field (d.flowWord n 2) 0 16 ≤ d.skNow) (hp : d.placeholder n = some bs)
    (hst : d.standsBy (field (d.flowWord n 0) 0 7) = false)
    (hb : d.beyondHorizon (field (d.flowWord n 0) 0 7) (d.fillCopy n bs).launch = false) :
    let e := d.skVisitFlow n
    e.queue (field (d.flowWord n 0) 0 7) (field (d.flowWord n 0) 8 3) =
        d.queue (field (d.flowWord n 0) 0 7) (field (d.flowWord n 0) 8 3) ++ [d.fillCopy n bs] ∧
      e.skState n = Sk.filling ∧ field (e.flowWord n 6) 0 16 = field (d.flowWord n 6) 0 16 + 1 ∧
      e.skDue n = (d.skDue n + max 16 (d.flowWord n 1)) % (2 ^ 32 * 1000000000 * 16) ∧
      e.flowWord n 7 = min (2 ^ 32 - 1) (d.flowWord n 7 + 1) ∧
      (n < 4096 → d.skState n = Sk.running → e.bitAt R.QSC_SK_EVENT 0 = true ∧ e.get F.QSC_SK_LAST = n) := by
  have hword : ∀ k, (d.fillSent n bs).flowWord n k = d.flowWord n k := fun k => Dev.flowWord_congr (Dev.fillSent_mem hst hb) n k
  have hnoted : ∀ t count, ((d.fillSent n bs).fillNoted n t count).skState n = d.skState n := fun t count =>
    (Dev.fillNoted_skState n t count).trans (congrArg (fun w => field w 28 2) (hword 0))
  rw [Dev.skVisitFlow_fills hm hs hc ht hp, hword]
  refine ⟨?_, ?_, ?_, ?_, ?_, fun hn hrun => ?_⟩
  · rw [Dev.queue_congr (Dev.fillEntered_qsc _ _), Dev.queue_congr (Dev.fillNoted_qsc _ _ _), Dev.fillSent_queue hst hb]
  · rw [← hnoted]
    exact Dev.fillEntered_skState (by rw [hnoted]; exact hs)
  · have hlt : field (d.flowWord n 2) 16 16 < 2 ^ 16 := Nat.mod_lt _ (by decide)
    rw [Dev.fillEntered_word _ _ (by decide), Dev.fillNoted_count]
    omega
  · rw [Dev.fillEntered_skDue, Dev.fillNoted_skDue]
  · rw [Dev.fillEntered_word _ _ (by decide), Dev.fillNoted_word7, hword]
  · rw [hrun]
    exact Dev.fillEntered_event hn

end

end Sys2Proof.Machine
end

section
/-! PROOFS. The statement of the family of the egress queues on gates and streams. -/

namespace Sys2Proof.Machine

/-- Settles O36: the entry in force and the list switch by what they set, the verify procedure by its outcome, a visit of the keeper
by what a fill sends, notes and enters. -/
theorem gatesAndStreams : Obligations.GatesAndStreams := by
  refine ⟨fun s p hu => ⟨fun entry g hr he => ?_, fun entry h => ?_, fun g hp ht hd => ?_, fun ok hp he hd hr => ?_⟩,
    fun base _ now h => cycleStart_first base now h, fun s hu h => ?_, fun s n hu hq hn hm hs => ⟨?_, fun hc ht => ?_⟩⟩
  · exact ⟨s.begin.dev.gateSet p g entry, Dev.gateSet_qsc, Dev.gateSet_entry entry.isLt, Dev.gateSet_mem, Dev.gateSet_raised,
      runUp_as hu (Dev.gateEntry_inForce (d := s.begin.dev) hr he)⟩
  · exact runUp_as hu (Dev.gateEntry_idle (d := s.begin.dev) h)
  · exact runUp_as hu (Dev.gclSwitch_due (d := s.begin.dev) hp ht hd)
  · refine ⟨s.begin.onDev (fun d => (d.verified p ok).syncPreempt p),
      runUp_as hu (Dev.preemptVerify_ends (d := s.begin.dev) hp he hd hr ok), ?_, Dev.verified_active (d := s.begin.dev) hp he ok, ?_,
      Dev.verified_keeps (d := s.begin.dev) Dev.qsc (fun _ _ _ => rfl) ok,
      Dev.verified_keeps (d := s.begin.dev) Dev.mem (fun _ _ _ => rfl) ok,
      Dev.verified_keeps (d := s.begin.dev) Dev.raised (fun _ _ _ => rfl) ok⟩
    · exact (Dev.get_put_apart _ _ (.inr (by simp))).trans (Dev.verified_state ok)
    · exact (Dev.flag_put_apart _ _ (.inl (queueEvent_ne_preempt p).symm)).trans (Dev.verified_event ok)
  · exact runUp_as hu (Dev.skVisit_notReady (d := s.begin.dev) h)
  · intro bs launch hc ht hp hl hb hst
    have hlaunch : (s.begin.dev.fillCopy n bs).launch = launch := (congrArg Copy.launch (s.begin_fillCopy n bs)).trans hl.symm
    obtain ⟨hqueue, hstate, hcount, hdue, htotal, hevent⟩ :=
      Dev.skVisitFlow_filled (d := s.begin.dev) hm hs hc ht hp hst (by rw [hlaunch]; exact hb)
    have hn' : n < 4096 := hn ▸ Nat.mod_lt _ (by decide)
    exact ⟨s.begin.dev.skVisitFlow n, runUp_as hu (Dev.skVisit_goesOn (d := s.begin.dev) hq hn),
      ⟨s.begin.dev.fillCopy n bs, rfl, rfl, hlaunch, hqueue⟩, hstate, hcount, hdue, htotal, hevent hn'⟩
  · exact runUp_as hu ((Dev.skVisit_goesOn (d := s.begin.dev) hq hn).trans
      (by rw [Dev.skVisitFlow_ramps (d := s.begin.dev) hm hs hc ht]))

end Sys2Proof.Machine
end
